-- ==== Sys2Proof/Word.lean ====
section
/-! DEFINITION. The word types of the Rhaostan and their plainest arithmetic. -/
namespace Sys2Proof

/-- A byte of memory (R4). -/
abbrev Byte := BitVec 8

/-- A 32-bit word: a lane's register word, an instruction word. -/
abbrev Word := BitVec 32

/-- A 64-bit doubleword: a scalar register, a PC, a generic address. -/
abbrev Dword := BitVec 64

/-- A mask over the 128 lanes of a strand; bit l is lane l (R33). -/
abbrev Lanes := BitVec 128

end Sys2Proof
end

