-- ==== Sys2Proof/Config.lean ====
section
/-! DEFINITION. The free values: what the spec leaves open, as constants without a body. Nothing in Lean can evaluate
them or prove a value of them. Each is applied to a counter of State, to the operands it depends on, or to both. -/
namespace Sys2Proof.Config

/-- Which of several enabled actions comes first (R48, R59). Applied to State.tick. Assumption 5. -/
opaque order : Nat → Nat

/-- How many ns of pod time pass before a step (R78). Applied to State.tick. Assumption 4. -/
opaque elapsedNs : Nat → Nat

/-- How many cycles pass before a step (R79). Applied to State.tick. Assumption 4. -/
opaque elapsedCycles : Nat → Nat

/-- A free choice among values the spec allows. Applied to State.tick and to a number that says which choice it is. -/
opaque choice : Nat → Nat → Nat

/-- Which value within the bound of R282 a transcendental gives: a function of the instruction, TYPE and the
operand's bits (R281). Assumption 8. -/
opaque approx : (op typ : Nat) → (bits : Nat) → Nat

/-- Replies that a home's reply cache holds (R189): the spec gives no number. Assumption 16. -/
opaque replyLimit : Nat

end Sys2Proof.Config
end

