-- ==== Sys2Proof/Data.lean ====
section
/-! DEFINITION. The data that instructions and device events carry: header and body fields of the instruction
words (R199 to R210), operand names (R202), exact values, packets, replies, engine commands and messages. -/
namespace Sys2Proof

/-- W0 of every instruction but for its opcode (R199). -/
structure Hdr where
  typ : BitVec 4
  dest : BitVec 8
  luc : Bool
  lub : Bool
  lua : Bool
  gneg : Bool
  guard : BitVec 4
  oc : BitVec 2
  deriving DecidableEq, Repr, Inhabited

/-- A source operand field of ten bits (R202). -/
inductive Operand where
  /-- vector register vn, or the pair vn, vn+1 -/
  | vec (n : BitVec 8)
  /-- scalar register sn -/
  | sc (n : BitVec 6)
  /-- special register of code c (R76) -/
  | spec (c : BitVec 6)
  /-- the zero operand, 0x2FF -/
  | zero
  /-- predicate pn, read as a per-lane bit -/
  | pred (n : BitVec 4)
  /-- any other value: reserved -/
  | other (x : BitVec 10)
  deriving DecidableEq, Repr, Inhabited

/-- Source B of the classes VV and SS (a register) or VI and SI (the literal in W2). -/
inductive SrcB where
  | reg (o : Operand)
  | imm (w : Word)
  deriving DecidableEq, Repr, Inhabited

/-- W1 and W2 of the classes VV, SS (R204) and VI, SI (R205); `rsv` holds the layout's reserved bits. -/
structure AluBody where
  rm : BitVec 2
  sat : Bool
  var : BitVec 8
  c : Operand
  b : SrcB
  a : Operand
  ty3 : BitVec 4
  ty2 : BitVec 4
  rsv : BitVec 15
  deriving DecidableEq, Repr, Inhabited

/-- W1 and W2 of the class MEM (R206). In group 0xA `off` bits 19..12 are ROUTINE. -/
structure MemBody where
  shift : BitVec 2
  data : Operand
  index : Operand
  base : Operand
  var : BitVec 2
  hint : BitVec 2
  ord : BitVec 2
  scope : BitVec 3
  sx : Bool
  size : BitVec 2
  off : BitVec 20
  deriving DecidableEq, Repr, Inhabited

/-- W1 and W2 of the class MAT (R207). -/
structure MatBody where
  rows : BitVec 5
  scl : Bool
  asp : Bool
  bank : Bool
  typb : BitVec 4
  b : Operand
  a : Operand
  rsv : BitVec 9
  atile : BitVec 4
  sat : Bool
  rm : BitVec 2
  var : BitVec 6
  c : Operand
  deriving DecidableEq, Repr, Inhabited

/-- W1 and W2 of the class CTL (R208). -/
structure CtlBody where
  w1 : Word
  aux : BitVec 16
  var : BitVec 6
  a : Operand
  deriving DecidableEq, Repr, Inhabited

/-- W1 and W2 of the class ASY (R209). -/
structure AsyBody where
  rsv1 : BitVec 2
  c : Operand
  b : Operand
  a : Operand
  rsv2 : BitVec 14
  tile : BitVec 6
  tv : Bool
  scope : BitVec 3
  var : BitVec 8
  deriving DecidableEq, Repr, Inhabited

/-- W1 and W2 of the class SYS (R210). -/
structure SysBody where
  sreg : BitVec 12
  b : Operand
  a : Operand
  rsv : BitVec 24
  var : BitVec 8
  deriving DecidableEq, Repr, Inhabited

/-- The three words of an instruction slot (R192), for the rows that keep them raw. -/
structure RawInsn where
  w0 : Word
  w1 : Word
  w2 : Word
  deriving DecidableEq, Repr, Inhabited

/-- An exact value of an element (R97, R98, R118): `fin` is (−1)^neg × m × 2^e, with the sign of zero kept. -/
inductive Val where
  | fin (neg : Bool) (m : Nat) (e : Int)
  | inf (neg : Bool)
  | qnan
  | snan
  deriving DecidableEq, Repr, Inhabited

/-- A row of A or a column of B as a matrix step uses it: its values, or the token that poisons it (R133). -/
inductive MatLine where
  | vals (v : List Val)
  | tok (t : Word)
  deriving DecidableEq, Repr, Inhabited

/-- What the sources of a latch's column held at some moment: its values, or its poison (R312). -/
inductive ColAt where
  | vals (v : List Val)
  | tok (t : Word)
  | bad (cause : BitVec 8) (addr : Dword)
  deriving DecidableEq, Repr, Inhabited

/-- Where a physical byte is served (R156, R378). -/
inductive Loc where
  /-- device memory at a physical address -/
  | mem (pa : Nat)
  /-- host memory at a host physical address -/
  | host (pa : Nat)
  /-- memory of pod device `dev` -/
  | rem (dev pa : Nat)
  /-- byte `off` of the scratchpad partition of block `blk` -/
  | spad (blk off : Nat)
  /-- byte `off` of the 4 MiB window of core `k` (cluster × 128 + core number) -/
  | core (k off : Nat)
  /-- byte `off` of the register block of cluster `c` -/
  | creg (c off : Nat)
  /-- byte `off` of the device register block -/
  | dreg (off : Nat)
  deriving DecidableEq, Repr, Inhabited

/-- A translated place: where the byte is, and its page's ordering and coherence kinds (R165). -/
structure Place where
  loc : Loc
  ord : BitVec 2
  sm : Bool
  deriving DecidableEq, Repr, Inhabited

/-- A 32-bit word with its poison mark (R125). -/
structure MWord where
  data : Word
  mark : Bool
  deriving DecidableEq, Repr, Inhabited

/-- Who sent an operation packet (R186): a fragment's lane with the image words its reply fills and the number of the
instruction among those whose results are due; another device; or the device itself. -/
inductive Sender where
  | strand (sid frag lane : Nat) (pc : Dword) (dest : List Nat) (tag : Nat)
  | fabric (dev stn seq ctx : Nat)
  | device (ctx : Nat)
  deriving DecidableEq, Repr, Inhabited

/-- An operation packet at its home (R187). `va` is the generic address it was formed with; `act` are the lanes active at its
issue (R460); `optok` is the token of the first poisoned operand word of a packet from another device (R134, R188). -/
structure Packet where
  src : Sender
  rtn : BitVec 8
  va : Dword
  place : Place
  op0 : Dword
  op1 : Dword
  scope : BitVec 3
  retw : Bool
  noreply : Bool
  acq : Bool
  rel : Bool
  ext : Bool
  rslot : Dword
  extw : List Dword
  act : Lanes
  optok : Option Word
  deriving DecidableEq, Repr, Inhabited

/-- What a reply brings: words, a token that a target word carried, or a fault of the home (R130, R188). -/
inductive ReplyVal where
  | words (w : List Word)
  | tok (t : Word)
  | bad (cause origin : BitVec 8) (addr : Dword)
  deriving DecidableEq, Repr, Inhabited

/-- A reply on its way to its return slot (R71), with the generic address of its packet. `tag` is the number of the
instruction that it answers, `act` the lanes active at its issue, and `at_` where its request was served. -/
structure Reply where
  sid : Nat
  frag : Nat
  lane : Nat
  pc : Dword
  dest : List Nat
  tag : Nat
  val : ReplyVal
  va : Dword
  act : Lanes
  at_ : Loc
  deriving DecidableEq, Repr, Inhabited

/-- An arrival on its way to a barrier object's home (R346). `tag` is the number of the instruction that made it, and `act` the
lanes active at its issue. -/
structure Arrival where
  sid : Nat
  frag : Nat
  lane : Nat
  pc : Dword
  tag : Nat
  dest : BitVec 8
  va : Dword
  place : Place
  bytes : Dword
  scope : BitVec 3
  act : Lanes
  deriving DecidableEq, Repr, Inhabited

/-- The engine commands (R355). -/
inductive EngOp where
  | copy | copyFrom | gather | scatter | coll | fill | copyT | pref
  deriving DecidableEq, Repr, Inhabited

/-- An engine command in its queue (R352): the values of its sources as issued. -/
structure Cmd where
  op : EngOp
  sid : Nat
  frag : Nat
  pc : Dword
  a : Dword
  b : Dword
  c : Dword
  hasObj : Bool
  tile : Option Nat
  scope : BitVec 3
  var : BitVec 8
  /-- its writes have been sent and some go to other devices: their number, its object's place and the bytes to complete (R189, R354) -/
  sent : Option (Nat × Option Place × Nat)
  deriving DecidableEq, Repr, Inhabited

/-- A matrix pass captured at issue (R306): its rows, and either a token for every element or the operands; rows come with their
lanes in the register form. `tag` is the number of the instruction. -/
structure MatPass where
  sid : Nat
  pc : Dword
  tag : Nat
  /-- the fragment's lanes at issue: passes of one tile whose lanes meet keep their order (R316) -/
  lanes : Lanes
  tile : Nat
  rows : List Nat
  mark : Option Word
  integer : Bool
  a : List (Option Nat × ColAt)
  b : List MatLine
  deriving DecidableEq, Repr, Inhabited

/-- A tile transfer under way (R339, R340): the words as they were read at issue, and for a store the places of those
words in memory. -/
structure TileOp where
  sid : Nat
  frag : Nat
  blk : Nat
  entry : Nat
  load : Bool
  pc : Dword
  addr : Dword
  scope : BitVec 3
  desc : Dword
  data : List MWord
  places : List Place
  deriving DecidableEq, Repr, Inhabited

/-- What a watcher at a home waits for (R191, R346, R347, R144). -/
inductive Watch where
  /-- WAITC and JOIN: comparison code, sign-extension, doubleword, the value compared -/
  | cmp (cc : BitVec 2) (sx wide : Bool) (v : Dword)
  /-- OBJ.WAIT: the phase to leave -/
  | phase (p : Bool)
  /-- a commit park: STATE 3 in the record's HEAD -/
  | state3
  deriving DecidableEq, Repr, Inhabited

/-- A condition monitor, or the wait kept with an object (`held` false). -/
structure Monitor where
  sid : Nat
  frag : Nat
  held : Bool
  va : Dword
  place : Place
  watch : Watch
  dest : BitVec 8
  deriving DecidableEq, Repr, Inhabited

/-- A request from another device (R189, R463): bit i of `be` enables byte i of a store. -/
inductive FabKind where
  | store (be : Nat) (data : List MWord)
  | tileLoad (rows bytes pitch : Nat)
  | tileStore (bytes pitch : Nat) (data : List MWord)
  | read (words : Nat)
  | write (data : List MWord)
  | atomic
  deriving DecidableEq, Repr, Inhabited

structure FabReq where
  src : Nat
  stn : Nat
  seq : Nat
  ctx : Nat
  pa : Nat
  kind : FabKind
  deriving DecidableEq, Repr, Inhabited

/-- A sequence number of a source station toward a home: each home has its own count (R189). -/
structure HomeSeq where
  home : Nat
  seq : Nat
  deriving DecidableEq, Repr, Inhabited

/-- Who writes or reads a register block (R374, R381). -/
inductive Agent where
  | host
  | policy
  | ctx (c : Nat)
  deriving DecidableEq, Repr, Inhabited

/-- A system register: its block, and its index in doublewords (R385). -/
inductive RegId where
  | core (k i : Nat)
  | cluster (c i : Nat)
  | device (i : Nat)
  deriving DecidableEq, Repr, Inhabited

/-- A member's report of its part of a pod grid (R427). -/
structure Report where
  blocks : Nat
  events : Nat
  first : Dword
  firstTime : Nat
  causes : List (Nat × Nat)
  deriving DecidableEq, Repr, Inhabited

/-- The Halo messages (R443). -/
inductive HaloMsg where
  | record (ctx : Nat) (r : List Dword)
  | accept (ctx : Nat) (grid : Dword)
  | reject (ctx : Nat) (grid : Dword)
  | go (ctx : Nat) (grid : Dword)
  | drop (ctx : Nat) (grid : Dword)
  | report (ctx : Nat) (grid : Dword) (r : Report)
  | cancel (ctx : Nat) (grid : Dword) (term : Bool)
  | straggler (gid ttime lateness : Nat)
  | agreement (gid ttime : Nat)
  | switch (gid ttime : Nat)
  deriving DecidableEq, Repr, Inhabited

/-- Requests of a cache to a home (R395, R396). -/
inductive CohReq where
  | shared
  | modified
  deriving DecidableEq, Repr, Inhabited

/-- Directory states (R395). -/
inductive Moesi where
  | m | o | e | s
  deriving DecidableEq, Repr, Inhabited

/-- What a host access through CXL.mem or a BAR does (R401, R468). -/
inductive HostOp where
  | read (words : Nat)
  | write (data : List MWord)
  deriving DecidableEq, Repr, Inhabited

/-- An error of the hardware (R87, R134, R153, R162, R194, R327). -/
inductive Strike where
  /-- the parity of word `i` of a strand's image is wrong from now on; `spare`: the hardware has a current duplicate of the
  line, or has written the line back unasked -/
  | reg (sid i : Nat) (spare : Bool)
  /-- a word of a scratchpad bank of core `k` is in error from now on: data banks 0 to 31, parity banks 32 to 39 -/
  | spad (k row bank : Nat)
  /-- a sector of device memory fails its ECC in the stack or in the L2 slice -/
  | sector (pa : Nat) (inSlice fixed : Bool)
  /-- a sector of device memory that the L1 of core `k` holds fails its ECC -/
  | l1 (k pa : Nat) (fixed : Bool)
  /-- a vector datapath errs in lanes of the next arithmetic result of a strand, which a retry corrects or not -/
  | vector (sid : Nat) (lanes : Lanes) (fixed : Bool)
  /-- residue codes find an error in rows of the matrix pass at an index, corrected by recomputing or not -/
  | rows (pass : Nat) (rows : List Nat) (fixed : Bool)
  /-- a held fetch line of a core changes in one bit of a word -/
  | line (core ctx va word bit : Nat)
  /-- an uncorrectable error in control state of a partition closes its error domain (R405) -/
  | control (part : Nat) (cause : BitVec 8) (addr : Dword)
  /-- the next completion of the host link for a line of host memory fails (R467) -/
  | completion (line : Nat)
  deriving DecidableEq, Repr, Inhabited

/-- What PTP brings: the device that sent the message, the offset to apply, and the new bound (R410, R470). -/
structure PtpMsg where
  src : Nat
  offset : Int
  eb : Nat
  lock : Bool
  deriving DecidableEq, Repr, Inhabited

end Sys2Proof
end

