-- ==== Sys2Proof/Machine/Maps.lean ====
section
/-! DEFINITION. Finite maps as association lists sorted by key, bit fields of words, and lane masks. -/
namespace Sys2Proof.Machine

/-- Look up a key. -/
def aget {α : Type} : List (Nat × α) → Nat → Option α
  | [], _ => none
  | (k, v) :: m, i => if i = k then some v else aget m i

/-- Set a key, keeping keys in rising order. -/
def aput {α : Type} : List (Nat × α) → Nat → α → List (Nat × α)
  | [], i, x => [(i, x)]
  | (k, v) :: m, i, x =>
    if i < k then (i, x) :: (k, v) :: m
    else if i = k then (i, x) :: m
    else (k, v) :: aput m i x

/-- Remove a key. -/
def adel {α : Type} : List (Nat × α) → Nat → List (Nat × α)
  | [], _ => []
  | (k, v) :: m, i => if i = k then adel m i else (k, v) :: adel m i

/-- Change a key that is present. -/
def amod {α : Type} (m : List (Nat × α)) (i : Nat) (f : α → α) : List (Nat × α) :=
  match aget m i with
  | some v => aput m i (f v)
  | none => m

/-- Set or remove a key, as the value is or is not the one that an unlisted key stands for. -/
def aputD {α : Type} [DecidableEq α] (d : α) (m : List (Nat × α)) (i : Nat) (x : α) : List (Nat × α) :=
  if x = d then adel m i else aput m i x

/-- Keys in strictly rising order. -/
def asorted {α : Type} : List (Nat × α) → Bool
  | [] => true
  | [_] => true
  | (k, _) :: (k', v') :: m => decide (k < k') && asorted ((k', v') :: m)

/-- Bits `lo + len − 1` down to `lo` of a word, as a number. -/
def fld {n : Nat} (w : BitVec n) (lo len : Nat) : Nat := w.toNat / 2 ^ lo % 2 ^ len

/-- A 64-bit word with one field replaced. -/
def setFld (w : Dword) (lo len v : Nat) : Dword :=
  let old := w.toNat / 2 ^ lo % 2 ^ len
  BitVec.ofNat 64 (w.toNat - old * 2 ^ lo + v % 2 ^ len * 2 ^ lo)

/-- A 64-bit word made of fields: pairs of position and value. -/
def mk64 (fs : List (Nat × Nat)) : Dword := BitVec.ofNat 64 (fs.foldl (fun a f => a + f.2 * 2 ^ f.1) 0)

/-- The signed value of the low `n` bits of a number. -/
def signed (n v : Nat) : Int :=
  let m := v % 2 ^ n
  if m < 2 ^ (n - 1) then (m : Int) else (m : Int) - (2 ^ n : Nat)

/-- The 64-bit word congruent to an integer. -/
def dword (i : Int) : Dword := BitVec.ofInt 64 i

/-- The 32-bit word congruent to an integer. -/
def wordI (i : Int) : Word := BitVec.ofInt 32 i

/-- A number as 1 or 0. -/
def b2n (b : Bool) : Nat := if b then 1 else 0

/-- The low and high word of a doubleword. -/
def loW (d : Dword) : Word := d.extractLsb' 0 32
def hiW (d : Dword) : Word := d.extractLsb' 32 32

/-- A doubleword from its words. -/
def join32 (lo hi : Word) : Dword := hi ++ lo

/-- The numbers of a list below a bound that a mask holds: the lanes of a fragment in ascending order. -/
def lanesOf (m : Lanes) : List Nat := (List.range 128).filter fun l => m.getLsbD l

/-- The mask of a list of lanes. -/
def maskOf (ls : List Nat) : Lanes := ls.foldl (fun m l => m ||| (1#128 <<< l)) 0

/-- Mask word q of a lane mask (R33). -/
def maskWord (m : Lanes) (q : Nat) : Word := m.extractLsb' (32 * q) 32

/-- The word summary of a mask: bit q set exactly when mask word q is not zero (R33). -/
def summary (m : Lanes) : Nat :=
  b2n (maskWord m 0 != 0) + 2 * b2n (maskWord m 1 != 0) + 4 * b2n (maskWord m 2 != 0)
    + 8 * b2n (maskWord m 3 != 0)

/-- The lanes of quarter q (R32). -/
def quarterMask (q : Nat) : Lanes := (0xFFFFFFFF#128) <<< (32 * q)

/-- The lowest lane of a mask. -/
def lowest (m : Lanes) : Option Nat := (lanesOf m).head?

/-- Number of set bits. -/
def popMask (m : Lanes) : Nat := (lanesOf m).length

/-- Round a number up to a multiple. -/
def roundUp (n k : Nat) : Nat := (n + k - 1) / k * k

/-- The list without the element at an index. -/
def dropAt {α : Type} (l : List α) (i : Nat) : List α := l.eraseIdx i

/-- Insert into a list kept sorted by a key, after equal keys. -/
def insertBy {α : Type} (key : α → Nat) (x : α) : List α → List α
  | [] => [x]
  | y :: ys => if key x < key y then x :: y :: ys else y :: insertBy key x ys

/-- Saturating addition. -/
def satAdd (max a b : Nat) : Nat := if a + b < max then a + b else max

end Sys2Proof.Machine
end

