-- ==== Sys2Proof/Machine/Formats.lean ====
section
/-! DEFINITION. The sixteen element formats (R92 to R103), block scales and codebooks (R104 to R110), AF80 (R118), exact values and
their rounding (R112 to R116). -/
namespace Sys2Proof.Machine

/-! ### Float formats (R97, R98, R118) -/

/-- What the top exponent of a float format means: infinities and NaNs, one NaN (F8A), or numbers. -/
inductive FloatTop where
  | ieee | oneNan | finite
  deriving DecidableEq, Repr

/-- A float format: exponent bits, fraction bits, bias, and its top exponent. -/
structure FloatFmt where
  ew : Nat
  fw : Nat
  bias : Nat
  top : FloatTop
  deriving DecidableEq, Repr

/-- The float format of a type code 0 to 7 (R92, R97, R98). -/
def floatFmt : Nat → FloatFmt
  | 0 => ⟨8, 23, 127, .ieee⟩
  | 1 => ⟨5, 10, 15, .ieee⟩
  | 2 => ⟨8, 7, 127, .ieee⟩
  | 3 => ⟨4, 3, 7, .oneNan⟩
  | 4 => ⟨5, 2, 15, .ieee⟩
  | 5 => ⟨3, 2, 3, .finite⟩
  | 6 => ⟨2, 3, 1, .finite⟩
  | _ => ⟨2, 1, 1, .finite⟩

/-- AF80 (R118). -/
def af80 : FloatFmt := ⟨12, 67, 2047, .ieee⟩

/-- Exponent of a unit in the last place of the subnormals. -/
def FloatFmt.emin (f : FloatFmt) : Int := 1 - f.bias - f.fw

/-- The largest finite number: significand and exponent. -/
def FloatFmt.maxM (f : FloatFmt) : Nat := if f.top = .oneNan then 2 ^ (f.fw + 1) - 2 else 2 ^ (f.fw + 1) - 1
def FloatFmt.maxE (f : FloatFmt) : Int :=
  (if f.top = .ieee then 2 ^ f.ew - 2 else 2 ^ f.ew - 1 : Nat) - f.bias - f.fw

/-- Sign bit, infinity and canonical NaN patterns (R97, R99). -/
def FloatFmt.signBit (f : FloatFmt) : Nat := 2 ^ (f.ew + f.fw)
def FloatFmt.infBits (f : FloatFmt) : Nat := (2 ^ f.ew - 1) * 2 ^ f.fw
def FloatFmt.nanBits (f : FloatFmt) : Nat :=
  if f.top = .oneNan then 2 ^ (f.ew + f.fw) - 1 else f.infBits + 2 ^ (f.fw - 1)

/-- Decode a pattern (R97 to R99). -/
def FloatFmt.decode (f : FloatFmt) (bits : Nat) : Val :=
  let neg := bits / f.signBit % 2 = 1
  let e := bits / 2 ^ f.fw % 2 ^ f.ew
  let m := bits % 2 ^ f.fw
  if f.top = .ieee && e = 2 ^ f.ew - 1 then
    if m = 0 then .inf neg else if 2 ^ (f.fw - 1) ≤ m then .qnan else .snan
  else if f.top = .oneNan && e = 2 ^ f.ew - 1 && m = 2 ^ f.fw - 1 then .qnan
  else if e = 0 then .fin neg m f.emin
  else .fin neg (2 ^ f.fw + m) (f.emin + (e - 1 : Nat))

/-! ### Rounding (R112) -/

/-- Round a magnitude m × 2^e to a multiple of 2^q: modes 0 .RN, 1 .RZ, 2 .RU, 3 .RD. -/
def roundAt (mode : Nat) (neg : Bool) (m : Nat) (e q : Int) : Nat :=
  if q ≤ e then m * 2 ^ (e - q).toNat
  else
    let sh := min (q - e).toNat (m.log2 + 3)
    let k := m / 2 ^ sh
    let r := m % 2 ^ sh
    let up := match mode with
      | 0 => decide (2 ^ (sh - 1) < r) || (r == 2 ^ (sh - 1) && k % 2 == 1)
      | 1 => false
      | 2 => !neg && r != 0
      | _ => neg && r != 0
    if up then k + 1 else k

/-- Where a magnitude rounds in a format: its exponent of last place. -/
def FloatFmt.place (f : FloatFmt) (m : Nat) (e : Int) : Int := max (e + m.log2 - f.fw) f.emin

/-- A rounded magnitude k × 2^q lies beyond the largest finite number. -/
def FloatFmt.beyond (f : FloatFmt) (k : Nat) (q : Int) : Bool := k != 0 && (f.maxE < q || (q == f.maxE && f.maxM < k))

/-- The bits of the largest finite number, and of an overflow: R116's table. -/
def FloatFmt.maxBits (f : FloatFmt) : Nat := (f.maxE - f.emin).toNat * 2 ^ f.fw + f.maxM
def FloatFmt.overflow (f : FloatFmt) (mode : Nat) (sat neg : Bool) : Nat :=
  let toInf := match mode with | 0 => true | 1 => false | 2 => !neg | _ => neg
  if f.top = .ieee && !sat && toInf then f.infBits else f.maxBits

/-- Round an exact value into a float format (R112 to R116); none is an invalid operation. -/
def FloatFmt.encode (f : FloatFmt) (mode : Nat) (sat : Bool) (v : Val) : Option Nat :=
  let sgn (neg : Bool) (b : Nat) : Nat := if neg then f.signBit + b else b
  match v with
  | .snan => none
  | .qnan => if f.top = .finite then none else some f.nanBits
  | .inf neg => some (sgn neg (if f.top = .ieee && !sat then f.infBits else f.maxBits))
  | .fin neg m e =>
    if m = 0 then some (sgn neg 0)
    else
      let q := f.place m e
      let k := roundAt mode neg m e q
      some (sgn neg (if f.beyond k q then f.overflow mode sat neg else (q - f.emin).toNat * 2 ^ f.fw + k))

/-! ### Integers (R101, R116) -/

/-- Bits and signedness of the integer type codes 8 to 12. -/
def intFmt : Nat → Nat × Bool
  | 8 => (8, true)
  | 9 => (8, false)
  | 10 => (4, true)
  | 11 => (4, false)
  | _ => (2, true)

/-- An integer as an exact value. -/
def valInt (i : Int) : Val := .fin (i < 0) i.natAbs 0

/-- Round a value to an integer and clamp it; none is an invalid operation. -/
def toInt (mode : Nat) (lo hi : Int) (v : Val) : Option Int :=
  match v with
  | .qnan => none
  | .snan => none
  | .inf neg => some (if neg then lo else hi)
  | .fin neg m e =>
    let k : Int := if (m.log2 : Int) + e < 200 then roundAt mode neg m e 0 else 2 ^ 200
    some (max lo (min hi (if neg then -k else k)))

/-- The range of an integer type code (R101), T5 among them. -/
def intRange (t : Nat) : Int × Int :=
  if t = 13 then (-1, 1)
  else
    let (w, sgn) := intFmt t
    if sgn then (-(2 ^ (w - 1)), 2 ^ (w - 1) - 1) else (0, 2 ^ w - 1)

/-! ### Elements of the type codes -/

/-- Width of an element in bits (R92); T5, QL and QT have layouts of their own. -/
def elemWidth (t : Nat) : Nat :=
  match t with
  | 0 => 32
  | 1 => 16
  | 2 => 16
  | 5 => 6
  | 6 => 6
  | 7 => 4
  | 10 => 4
  | 11 => 4
  | 12 => 2
  | _ => 8

/-- Decode an element of type code 0 to 12. -/
def decodeElem (t bits : Nat) : Val :=
  if t < 8 then (floatFmt t).decode bits
  else
    let (w, sgn) := intFmt t
    valInt (if sgn then signed w bits else (bits % 2 ^ w : Nat))

/-- Encode a value as an element of type code 0 to 13 (R116): for T5, digit + 1. -/
def encodeElem (t mode : Nat) (sat : Bool) (v : Val) : Option Nat :=
  if t < 8 then (floatFmt t).encode mode sat v
  else
    let (lo, hi) := intRange t
    (toInt mode lo hi v).map fun i => if t = 13 then (i + 1).toNat else (i % 2 ^ elemWidth t).toNat

/-- Digit k of a T5 byte (R102); none when the byte is invalid (R103). -/
def t5Digit (byte k : Nat) : Option Int := if 242 < byte then none else some ((byte / 3 ^ k % 3 : Nat) - 1)

/-! ### Block scales (R104) -/

/-- The value of a scale code 0x00 to 0xFE. -/
def scaleVal (code : Nat) : Val := .fin false (8 + code % 8) (code / 8 - 18 : Int)

/-- The format maximum of a type code 3 to 15: significand and exponent (R92). -/
def formatMax : Nat → Nat × Int
  | 3 => (448, 0)
  | 4 => (57344, 0)
  | 5 => (28, 0)
  | 6 => (15, -1)
  | 7 => (6, 0)
  | 8 => (127, 0)
  | 9 => (255, 0)
  | 10 => (7, 0)
  | 11 => (15, 0)
  | 14 => (2, 0)
  | 15 => (7, 0)
  | _ => (1, 0)

/-- Compare magnitudes: a × 2^d ≤ b × 2^e. -/
def magLe (a : Nat) (d : Int) (b : Nat) (e : Int) : Bool :=
  if d ≤ e then a ≤ b * 2 ^ (e - d).toNat else a * 2 ^ (d - e).toNat ≤ b

/-- The smallest S8 code whose value is not below m × 2^e ÷ (format maximum of T) (R111 step 2). -/
def scaleUp (t m : Nat) (e : Int) : Nat :=
  let (fm, fe) := formatMax t
  ((List.range 255).find? fun c => magLe m e ((8 + c % 8) * fm) (c / 8 - 18 + fe)).getD 0xFE

/-! ### Exact arithmetic; `snan` stands for an invalid operation -/

/-- The sign of an exact zero sum (R115). -/
def zeroSign (rd a b : Bool) : Bool := if rd then a || b else a && b

/-- The exact sum of two numbers. -/
def addFin (rd : Bool) (n1 : Bool) (m1 : Nat) (e1 : Int) (n2 : Bool) (m2 : Nat) (e2 : Int) : Val :=
  if m1 = 0 && m2 = 0 then .fin (zeroSign rd n1 n2) 0 0
  else if m1 = 0 then .fin n2 m2 e2
  else if m2 = 0 then .fin n1 m1 e1
  else
    let e := min e1 e2
    let x : Int := (m1 * 2 ^ (e1 - e).toNat : Nat)
    let y : Int := (m2 * 2 ^ (e2 - e).toNat : Nat)
    let t := (if n1 then -x else x) + (if n2 then -y else y)
    if t = 0 then .fin rd 0 0 else .fin (t < 0) t.natAbs e

/-- The exact sum of a list of values: opposite infinities or a signalling NaN are invalid, then a quiet NaN, then an
infinity (R113, R114, R122). `rd` says that rounding is toward −∞. -/
def sumVals (rd : Bool) (vs : List Val) : Val :=
  if vs.contains .snan || (vs.contains (.inf true) && vs.contains (.inf false)) then .snan
  else if vs.contains .qnan then .qnan
  else if vs.contains (.inf true) then .inf true
  else if vs.contains (.inf false) then .inf false
  else
    match vs with
    | [] => .fin false 0 0
    | v :: r => r.foldl (fun a b => match a, b with
        | .fin n1 m1 e1, .fin n2 m2 e2 => addFin rd n1 m1 e1 n2 m2 e2
        | _, _ => .snan) v

/-- What NaN operands give, or else a result (R113, R114). -/
def nan2 (a b : Val) (r : Val) : Val :=
  if a = .snan || b = .snan then .snan else if a = .qnan || b = .qnan then .qnan else r

/-- The exact product. -/
def mulVal (a b : Val) : Val :=
  nan2 a b (match a, b with
    | .fin n1 m1 e1, .fin n2 m2 e2 => .fin (xor n1 n2) (m1 * m2) (e1 + e2)
    | .inf n1, .fin n2 m2 _ => if m2 = 0 then .snan else .inf (xor n1 n2)
    | .fin n1 m1 _, .inf n2 => if m1 = 0 then .snan else .inf (xor n1 n2)
    | .inf n1, .inf n2 => .inf (xor n1 n2)
    | _, _ => .snan)

/-- Negation. -/
def negVal : Val → Val
  | .fin n m e => .fin (!n) m e
  | .inf n => .inf (!n)
  | v => v

/-- A quotient of magnitudes with a last bit that says whether anything remains: it rounds as the exact one does in any
format of fewer than 40 significand bits. -/
def quotient (m1 m2 : Nat) : Nat × Int :=
  let n := m1 * 2 ^ 128
  (2 * (n / m2) + (if n % m2 = 0 then 0 else 1), -129)

/-- The quotient (R276). -/
def divVal (a b : Val) : Val :=
  nan2 a b (match a, b with
    | .fin n1 m1 e1, .fin n2 m2 e2 =>
      if m2 = 0 then (if m1 = 0 then .snan else .inf (xor n1 n2))
      else
        let (q, e) := quotient m1 m2
        .fin (xor n1 n2) q (if m1 = 0 then 0 else e + e1 - e2)
    | .inf n1, .fin n2 _ _ => .inf (xor n1 n2)
    | .fin n1 _ _, .inf n2 => .fin (xor n1 n2) 0 0
    | _, _ => .snan)

/-- The integer square root of a number below 4^bits. -/
def isqrt (bits n : Nat) : Nat :=
  (List.range bits).foldr (fun i r => if (r + 2 ^ i) * (r + 2 ^ i) ≤ n then r + 2 ^ i else r) 0

/-- The square root (R276). -/
def sqrtVal (a : Val) : Val :=
  match a with
  | .fin n m e =>
    if m = 0 then a
    else if n then .snan
    else
      let (m, e) := if e % 2 = 0 then (m, e) else (2 * m, e - 1)
      let x := m * 2 ^ 128
      let r := isqrt 100 x
      .fin false (2 * r + (if r * r = x then 0 else 1)) (e / 2 - 65)
  | .inf n => if n then .snan else a
  | v => v

/-- −0 below +0, infinities at the ends: a ≤ b. -/
def leVal (a b : Val) : Bool :=
  match a, b with
  | .inf true, _ => true
  | _, .inf false => true
  | .inf false, _ => false
  | _, .inf true => false
  | .fin true m1 e1, .fin true m2 e2 => magLe m2 e2 m1 e1
  | .fin true _ _, .fin false _ _ => true
  | .fin false _ _, .fin true _ _ => false
  | .fin false m1 e1, .fin false m2 e2 => magLe m1 e1 m2 e2
  | _, _ => false

/-- Equal as numbers, zeros alike. -/
def eqVal (a b : Val) : Bool :=
  match a, b with
  | .fin n1 m1 e1, .fin n2 m2 e2 => (m1 == 0 && m2 == 0) || (n1 == n2 && magLe m1 e1 m2 e2 && magLe m2 e2 m1 e1)
  | .inf n1, .inf n2 => n1 == n2
  | _, _ => false

/-- Times a power of two. -/
def scaleBy (a : Val) (n : Int) : Val :=
  match a with
  | .fin s m e => .fin s m (if m = 0 then 0 else e + n)
  | v => v

/-- Rounded to an integral value (FRND, R276). -/
def integral (mode : Nat) (a : Val) : Val :=
  match a with
  | .fin n m e => if 0 ≤ e then a else .fin n (roundAt mode n m e 0) 0
  | v => v

/-- Magnitude of a finite value. -/
def magOf : Val → Nat × Int
  | .fin _ m e => (m, e)
  | _ => (0, 0)

def isFin : Val → Bool
  | .fin .. => true
  | _ => false

/-- The larger of two magnitudes. -/
def magMax (a b : Nat × Int) : Nat × Int := if magLe a.1 a.2 b.1 b.2 then b else a

/-! ### Codebooks (R107 to R110) -/

/-- The eight values of a QL index, in half units (R107). -/
def qlVals (idx : Nat) : List Int :=
  let neg (e : Nat) : Bool :=
    if e < 7 then idx.testBit (e + 1)
    else ((List.range 7).filter fun i => idx.testBit (i + 1)).length % 2 == 1
  (List.range 8).map fun e =>
    let m : Int := if idx.testBit (8 + e) then 3 else 1
    (if neg e then -m else m) + b2n (idx.testBit 0)

/-- Common scaling of dyadic numbers: signed integers over one power of two. -/
def alignTo (e0 : Int) (v : Val) : Int :=
  match v with
  | .fin n m e => let x : Int := (m * 2 ^ (e - e0).toNat : Nat); if n then -x else x
  | _ => 0

/-- The least exponent among finite values. -/
def minExp (vs : List Val) : Int :=
  vs.foldl (fun a v => match v with | .fin _ m e => if m = 0 then a else min a e | _ => a) 0

/-- The better of two candidates: the smaller error, then the lower index. -/
def better (a b : Nat × Nat) : Nat × Nat := if a.1 < b.1 || (a.1 = b.1 && a.2 ≤ b.2) then a else b

/-- The best QL index of one coset: over the coordinates in turn, the best choice of magnitudes and signs for an even and
for an odd number of negative signs; the sign of element 7 has no index bit. -/
def qlCoset (sh : Nat) (ys : List Int) (unit : Int) : Nat × Nat :=
  let opts (e : Nat) (y : Int) : List (Bool × (Nat × Nat)) :=
    [(false, 1, 0), (true, 1, 1), (false, 3, 0), (true, 3, 1)].map fun o =>
      let x : Int := (if o.1 then -(o.2.1 : Int) else o.2.1) + sh
      let d := 2 * y - x * unit
      (o.1, ((d * d).toNat, (if o.2.1 = 3 then 2 ^ (8 + e) else 0) + (if o.1 && e < 7 then 2 ^ (e + 1) else 0)))
  let add (a : Option (Nat × Nat)) (b : Nat × Nat) : Option (Nat × Nat) := a.map fun x => (x.1 + b.1, x.2 + b.2)
  let best (a b : Option (Nat × Nat)) : Option (Nat × Nat) :=
    match a, b with
    | some x, some y => some (better x y)
    | some x, none => some x
    | none, y => y
  let r := (ys.zipIdx).foldl (fun (acc : Option (Nat × Nat) × Option (Nat × Nat)) y =>
    (opts y.2 y.1).foldl (fun new o =>
      let ev := add (if o.1 then acc.2 else acc.1) o.2
      let od := add (if o.1 then acc.1 else acc.2) o.2
      (best new.1 ev, best new.2 od)) (none, none)) (some (0, sh), none)
  r.1.getD (0, sh)

/-- The QL index that minimises the error of eight values over a scale, ties to the lowest index (R108). -/
def qlEncode (ys : List Val) (scale : Val) : Nat :=
  let e0 := minExp (scale :: ys)
  let a := ys.map (alignTo e0)
  let u := alignTo e0 scale
  (better (qlCoset 0 a u) (qlCoset 1 a u)).2

/-- The magnitude of element e of a QT table entry, and its validity (R109, R110). -/
def qtMag (entry e : Nat) : Nat := entry / 2 ^ (3 * e) % 8
def qtValid (entry : Nat) : Bool := entry / 2 ^ 24 == 0

/-- The eight values of a QT index under its entry. -/
def qtVals (idx entry : Nat) : List Int :=
  (List.range 8).map fun e => if idx.testBit e then -(qtMag entry e : Int) else qtMag entry e

/-- The QT index for eight values over a scale, signs first, then the nearest valid entry (R110); none when every entry is
invalid. -/
def qtEncode (table : List Nat) (ys : List Val) (scale : Val) : Option Nat :=
  let e0 := minExp (scale :: ys)
  let a := ys.map (alignTo e0)
  let u := alignTo e0 scale
  let signs := (a.zipIdx).foldl (fun s y => if y.1 < 0 then s + 2 ^ y.2 else s) 0
  let cost (entry : Nat) : Nat := (a.zipIdx).foldl (fun c y =>
    let d := (y.1.natAbs : Int) - qtMag entry y.2 * u
    c + (d * d).toNat) 0
  let r := (table.zipIdx).foldl (fun (acc : Option (Nat × Nat)) t =>
    if !qtValid t.1 then acc
    else
      match acc with
      | none => some (cost t.1, t.2)
      | some b => some (better b (cost t.1, t.2))) none
  r.map fun b => b.2 * 256 + signs

/-! ### 80-bit accumulators (R118) -/

/-- The value of an AF80 pattern; every NaN reads as the canonical one. -/
def af80Decode (bits : Nat) : Val := match af80.decode bits with | .snan => .qnan | v => v

/-- RoundAF80, to nearest even (R121). -/
def af80Encode (v : Val) : Option Nat := af80.encode 0 false v

/-- The bounds of integer mode, and a pattern's value (R118). -/
def accMax : Int := 2 ^ 79 - 1
def accInt (bits : Nat) : Int := max (-accMax) (signed 80 bits)

end Sys2Proof.Machine
end

