-- ==== Sys2Proof/Machine/Approx.lean ====
section
/-! DEFINITION. The transcendental approximations (R281 to R283): exact special results, and for every other operand a free choice
among the values within the bound of R282, found with rational intervals around the exact result. -/
namespace Sys2Proof.Machine

/-! ### Rational intervals -/

/-- A positive exact result lies between lo × 2^e and hi × 2^e, and is neither of them unless they are equal; `neg` is the sign of
the result. No value of a TYPE lies strictly between them, so the TYPE's values that enclose the result enclose them. -/
structure Enclosed where
  neg : Bool
  lo : Nat
  hi : Nat
  e : Int
  deriving DecidableEq, Repr

/-- Fixed-point numbers with 128 fraction bits. -/
def fixOne : Nat := 2 ^ 128

/-- ln 2, from Σ 1 ÷ (k 2^k). -/
def fixLn2 : Nat := (List.range 150).foldl (fun a k => a + 2 ^ 160 / ((k + 1) * 2 ^ (k + 1))) 0 / 2 ^ 32

/-- arctan (1 ÷ k) with 160 fraction bits. -/
def fixAtan (k : Nat) : Int :=
  (List.range 70).foldl (fun (a : Int) j =>
    let t : Int := (2 ^ 160 / ((2 * j + 1) * k ^ (2 * j + 1)) : Nat)
    if j % 2 = 0 then a + t else a - t) 0

/-- π, from 16 arctan (1 ÷ 5) − 4 arctan (1 ÷ 239). -/
def fixPi : Nat := (16 * fixAtan 5 - 4 * fixAtan 239).toNat / 2 ^ 32

/-- 2^f for a fraction f, by the exponential series; the error is far below 2^20 units. -/
def fixExp2 (f : Nat) : Nat :=
  let y := f * fixLn2 / fixOne
  ((List.range 45).foldl (fun (a : Nat × Nat) k => (a.1 + a.2, a.2 * y / ((k + 1) * fixOne))) (0, fixOne)).1

/-- The error allowed for fixed-point results. -/
def fixErr : Nat := 2 ^ 20

/-- sin (π M ÷ 2^u) for M ÷ 2^u in (0, 1 ÷ 2): below 1. -/
def encloseSin (neg : Bool) (m u : Nat) : Enclosed :=
  let x := fixPi * m / 2 ^ u
  let z := x * x / fixOne
  let s := ((List.range 30).foldl (fun (a : Int × Nat) k =>
    (if k % 2 = 0 then a.1 + a.2 else a.1 - a.2, a.2 * z / ((2 * k + 2) * (2 * k + 3) * fixOne))) ((0 : Int), fixOne)).1.toNat
  ⟨neg, m * fixPi * (s - fixErr), min (2 ^ (256 + u)) (m * (fixPi + fixErr) * (s + fixErr)), -256 - u⟩

/-- An exact result, or an enclosure of it. -/
inductive Approx where
  | exact (v : Val)
  | near (x : Enclosed)
  deriving DecidableEq, Repr

/-- sin of π × (m × 2^e), negated for `neg`; a zero takes the sign `zneg`. -/
def sinHalfTurns (neg zneg : Bool) (m : Nat) (e : Int) : Approx :=
  if 0 < e then .exact (.fin zneg 0 0)
  else
    let u := (-e).toNat
    let r := m % 2 ^ (u + 1)
    let neg := xor neg (2 ^ u ≤ r)
    let r := r % 2 ^ u
    let r := if 2 ^ u < 2 * r then 2 ^ u - r else r
    if r = 0 then .exact (.fin zneg 0 0)
    else if 2 * r = 2 ^ u then .exact (.fin neg 1 0)
    else .near (encloseSin neg r u)

/-- log2 of m × 2^e, m > 0: by repeated squaring. -/
def log2Of (m : Nat) (e : Int) : Approx :=
  let b := m.log2
  if m = 2 ^ b then .exact (valInt (e + b))
  else
    let r := (List.range 100).foldl (fun (a : Nat × Nat) _ =>
      let y := a.2 * a.2 / fixOne
      if 2 * fixOne ≤ y then (2 * a.1 + 1, y / 2) else (2 * a.1, y)) (0, m * fixOne / 2 ^ b)
    let v : Int := (e + b) * 2 ^ 100 + r.1
    if v < 0 then .near ⟨true, (v + 2).natAbs, v.natAbs, -100⟩ else .near ⟨false, v.toNat, v.toNat + 2, -100⟩

/-- 2^(±m × 2^e): between the powers of two of the integers on either side. -/
def exp2Of (neg : Bool) (m : Nat) (e : Int) : Approx :=
  if 9 ≤ e + m.log2 then (if neg then .near ⟨false, 0, 1, -512⟩ else .near ⟨false, 1, 1, 512⟩)
  else
    let x : Int := if -128 ≤ e then (m * 2 ^ (e + 128).toNat : Nat) else (m / 2 ^ (-128 - e).toNat : Nat)
    let x := if neg then (if -128 ≤ e then -x else -x - 1) else x
    let n := x / fixOne
    if x % fixOne = 0 && -128 ≤ e then .exact (.fin false 1 n)
    else
      let p := fixExp2 (x % fixOne).toNat
      .near ⟨false, max fixOne (p - fixErr), min (2 * fixOne) (p + fixErr), n - 128⟩

/-- tanh of m × 2^e, m > 0. -/
def tanhOf (neg : Bool) (m : Nat) (e : Int) : Approx :=
  let b := e + m.log2
  if 6 ≤ b then .near ⟨neg, 2 ^ 180 - 1, 2 ^ 180, -180⟩
  else if b < -30 then .near ⟨neg, m * (2 ^ 58 - 1), m * 2 ^ 58, e - 58⟩
  else
    let x := m * 2 ^ (e + 257).toNat / fixLn2
    let n := x / fixOne
    let p := fixExp2 (x % fixOne) * 2 ^ n
    let err := fixErr * 2 ^ n
    .near ⟨neg, (p - err - fixOne) * fixOne / (p + err + fixOne), 
      min fixOne ((p + err - fixOne) * fixOne / (p - err + fixOne) + 1), -128⟩

/-- 1 ÷ (m × 2^e). -/
def rcpOf (neg : Bool) (m : Nat) (e : Int) : Approx :=
  let q := 2 ^ 160 / m
  .near ⟨neg, q, if 2 ^ 160 % m = 0 then q else q + 1, -160 - e⟩

/-- 1 ÷ √(m × 2^e). -/
def rsqOf (m : Nat) (e : Int) : Approx :=
  if m = 2 ^ m.log2 && e + m.log2 = 0 then .exact (.fin false 1 0)
  else
    let (m, e) := if e % 2 = 0 then (m, e) else (2 * m, e - 1)
    let r := isqrt 130 (2 ^ 256 / m)
    .near ⟨false, r, if r * r * m = 2 ^ 256 then r else r + 1, -128 - e / 2⟩

/-! ### The seven functions (R282, R283) -/

/-- The function of an opcode at a value that is not a NaN; `snan` marks poison 0x20. -/
def approxOf (op : Nat) (a : Val) : Approx :=
  match op, a with
  | 0x140, .fin n m e => if m = 0 then .exact (.inf n) else rcpOf n m e
  | 0x140, .inf n => .exact (.fin n 0 0)
  | 0x141, .fin n m e => if m = 0 then .exact (.inf n) else if n then .exact .snan else rsqOf m e
  | 0x141, .inf n => .exact (if n then .snan else .fin false 0 0)
  | 0x142, .fin n m e => if m = 0 then .exact (.fin false 1 0) else exp2Of n m e
  | 0x142, .inf n => .exact (if n then .fin false 0 0 else .inf false)
  | 0x143, .fin n m e => if m = 0 then .exact (.inf true) else if n then .exact .snan else log2Of m e
  | 0x143, .inf n => .exact (if n then .snan else .inf false)
  | 0x144, .fin n m e => sinHalfTurns n n m e
  | 0x145, .fin _ m e =>
    if 0 < e then .exact (.fin false 1 0) else sinHalfTurns false false (2 * m + 2 ^ (-e).toNat) (e - 1)
  | 0x144, .inf _ => .exact .snan
  | 0x145, .inf _ => .exact .snan
  | _, .fin n m e => if m = 0 then .exact a else tanhOf n m e
  | _, .inf n => .exact (.fin n 1 0)
  | _, v => .exact v

/-- The bound of an opcode for F32: ulps, and whether 2^−22 absolute stands in when larger (R282). -/
def approxBound (op : Nat) : Nat × Bool := (if op = 0x140 then 1 else 2, 0x143 ≤ op)

/-- Patterns in the order of their values: negative ones below. -/
def ordOf (f : FloatFmt) (bits : Nat) : Int :=
  if f.signBit ≤ bits then -1 - ((bits - f.signBit : Nat) : Int) else bits
def ofOrd (f : FloatFmt) (i : Int) : Nat := if i < 0 then f.signBit + (-1 - i).toNat else i.toNat

/-- The lowest and the highest pattern within the bound of a positive result: infinity where it overflows; for F32 the patterns
within the bound, of the ulp that encloses the result; else the two enclosing values (R281, R282). Of a result that is itself a
value of the format the ulp is the gap above it (assumption 8). -/
def boundOrds (op typ : Nat) (x : Enclosed) : Int × Int :=
  let f := floatFmt typ
  let enc (mode : Nat) (v : Val) : Int := ordOf f ((f.encode mode false v).getD 0)
  if magLe f.maxM f.maxE x.lo x.e && !magLe x.hi x.e f.maxM f.maxE then ((f.infBits : Int), (f.infBits : Int))
  else if typ = 0 then
    let (k, absolute) := approxBound op
    let ulp := f.place x.lo x.e
    let rel : Nat × Int := (k, ulp)
    let bound := if absolute && magLe k ulp 1 (-22) then (1, -22) else rel
    (enc 2 (addFin false false x.hi x.e true bound.1 bound.2), enc 3 (addFin false false x.lo x.e false bound.1 bound.2))
  else (enc 3 (.fin false x.lo x.e), enc 2 (.fin false x.hi x.e))

/-- A value is a value of a format (R283). -/
def FloatFmt.represents (f : FloatFmt) (v : Val) : Bool := f.encode 2 false v == f.encode 3 false v

/-- An exact value that is not one of TYPE's is enclosed by itself. -/
def Approx.inFmt (f : FloatFmt) (a : Approx) : Approx :=
  match a with
  | .exact (.fin n m e) => if f.represents (.fin n m e) then a else .near ⟨n, m, m, e⟩
  | a => a

/-- The result of FRCP to FTANH for a pattern of TYPE; none is poison 0x20 (R275, R281). -/
def approxResult (op typ bits : Nat) : Option Nat :=
  let f := floatFmt typ
  match f.decode bits with
  | .snan => none
  | .qnan => some f.nanBits
  | v =>
    match (approxOf op v).inFmt f with
    | .exact r => f.encode 0 false r
    | .near x =>
      let (lo, hi) := boundOrds op typ x
      let n := (hi - lo).toNat + 1
      let b := ofOrd f (lo + (Config.approx op typ bits % n : Nat))
      some (if x.neg then (if f.signBit ≤ b then b - f.signBit else b + f.signBit) else b)

end Sys2Proof.Machine
end

