-- ==== Sys2Proof/Machine/Checks.lean ====
section
/-! DEFINITION. The static checks of an instruction: what makes its words a control trap 0x41 before anything is
performed (R83, R200 to R211 and each entry's own limits). Each check reads the instruction's fields alone. -/
namespace Sys2Proof.Machine.Check

/-- Operands on which a last-use mark may be set: registers, but not p15 (R83). -/
def isReg : Operand → Bool
  | .vec _ => true
  | .sc _ => true
  | .pred n => n != 15
  | _ => false

/-- A last-use bit is clear, or it stands on a register the instruction names (R83). -/
def lu (bit : Bool) (o : Operand) : Bool := !bit || isReg o

/-- The field that names no operand: all its bits zero (R211). -/
def unused (o : Operand) : Bool := o == .vec 0

/-- An even register number: what a pair needs (R202). -/
def even (n : BitVec 8) : Bool := n.getLsbD 0 == false

/-- A special register the machine has (R76). -/
def specOk (c : BitVec 6) : Bool := c.toNat ≤ 0x13

/-- A per-strand special register (R76). -/
def specStrand (c : BitVec 6) : Bool := 2 ≤ c.toNat && c.toNat ≤ 0x13

/-- A per-strand special register of 64 bits (R76), as a base needs it (R329). -/
def spec64 (c : BitVec 6) : Bool :=
  [0x07, 0x09, 0x0A, 0x0B, 0x0C, 0x0D, 0x0E, 0x0F, 0x12].contains c.toNat

/-- A source of a per-lane class; `wide` asks a vector register to be an even pair (R202). -/
def srcV (wide : Bool) : Operand → Bool
  | .vec n => !wide || even n
  | .sc _ => true
  | .spec c => specOk c
  | .zero => true
  | .pred _ => true
  | .other _ => false

/-- A source of a once-per-fragment class (R202). -/
def srcS : Operand → Bool
  | .sc _ => true
  | .spec c => specStrand c
  | .zero => true
  | _ => false

def isPred : Operand → Bool
  | .pred _ => true
  | _ => false

def isVec : Operand → Bool
  | .vec _ => true
  | _ => false

def isVecPair : Operand → Bool
  | .vec n => even n
  | _ => false

def isSc : Operand → Bool
  | .sc _ => true
  | _ => false

def isScOrZero : Operand → Bool
  | .sc _ => true
  | .zero => true
  | _ => false

/-- A scalar destination: s0 to s63, or $deadline, the one special register a program may write (R203, R77). -/
def destS (d : BitVec 8) : Bool := d.toNat < 0x40 || d == 0x92

/-- A scalar destination among s0 to s63 alone. -/
def destSc (d : BitVec 8) : Bool := d.toNat < 0x40

/-- A predicate destination (R203). -/
def destP (d : BitVec 8) : Bool := d.toNat < 0x10

/-- What an instruction asks of a source field. -/
inductive SK where
  /-- not read: zero -/
  | none
  /-- a 32-bit value -/
  | w
  /-- a value of the width .64 selects -/
  | x
  /-- always 64 bits -/
  | d
  /-- a predicate -/
  | p
  /-- a vector register, read as a 512-byte string -/
  | v
  /-- a vector register pair -/
  | vv
  /-- a source of one word, or the zero operand -/
  | vz
  deriving DecidableEq, Repr

/-- What an instruction asks of DEST. -/
inductive DK where
  /-- none: zero -/
  | none
  /-- one register word, or a scalar -/
  | w
  /-- the width .64 selects -/
  | x
  /-- always a pair, or a scalar -/
  | d
  /-- a predicate -/
  | p
  deriving DecidableEq, Repr

/-- A source field against its kind; `s` says the class is performed once per fragment. -/
def src (k : SK) (s w64 : Bool) (o : Operand) : Bool :=
  match k with
  | .none => unused o
  | .w => if s then srcS o else srcV false o
  | .x => if s then srcS o else srcV w64 o
  | .d => if s then srcS o else srcV true o
  | .p => isPred o
  | .v => isVec o
  | .vv => isVecPair o
  | .vz => srcV false o || o == .zero

def dst (k : DK) (s w64 : Bool) (d : BitVec 8) : Bool :=
  match k with
  | .none => d == 0
  | .w => if s then destS d else true
  | .x => if s then destS d else !w64 || even d
  | .d => if s then destS d else even d
  | .p => destP d

/-- Classes of R200. -/
def scalarClass (h : Hdr) : Bool := h.oc.getLsbD 1
def immClass (h : Hdr) : Bool := h.oc.getLsbD 0

/-- The class bits agree with the body: the literal stands in VI and SI. -/
def bodyFits (imm : Bool) (b : AluBody) : Bool :=
  match b.b with
  | .reg _ => !imm
  | .imm _ => imm && b.ty2 == 0 && b.ty3 == 0 && b.rsv.toNat == 0

/-- The common part of groups 0x1 to 0x6: class, kinds of the operands, last-use bits, reserved bits. -/
def alu (classes : List Nat) (ka kb kc : SK) (kd : DK) (w64 : Bool) (h : Hdr) (b : AluBody) : Bool :=
  let s := scalarClass h
  classes.contains h.oc.toNat && bodyFits (immClass h) b && b.rsv == 0
    && src ka s w64 b.a && lu h.lua b.a
    && (match b.b with
        | .reg o => src kb s w64 o && lu h.lub o
        | .imm w => (kb != .none || w == 0) && !h.lub)
    && src kc s w64 b.c && lu h.luc b.c
    && dst kd s w64 h.dest
    && (ka != .none || !h.lua) && (kb != .none || !h.lub) && (kc != .none || !h.luc)

/-- VAR restricted to the bits of a mask. -/
def varIn (mask : BitVec 8) (b : AluBody) : Bool := (b.var &&& ~~~mask) == 0

def all4 : List Nat := [0, 1, 2, 3]
def vvss : List Nat := [0, 2]
def vv : List Nat := [0]
def vvvi : List Nat := [0, 1]
def ss : List Nat := [2]

/-- TYPE, RM, TYPE2, TYPE3 zero and SAT only where allowed (R252, R263). -/
def plainInt (sat : Bool) (h : Hdr) (b : AluBody) : Bool :=
  h.typ == 0 && b.rm == 0 && b.ty2 == 0 && b.ty3 == 0 && (sat || !b.sat)

/-- A two- or three-source integer operation of group 0x1 (R254). -/
def int (u sat : Bool) (ka kb kc : SK) (kd : DK) (h : Hdr) (b : AluBody) : Bool :=
  plainInt sat h b && varIn (if u then 0b11 else 0b01) b
    && alu all4 ka kb kc kd (b.var.getLsbD 0) h b

def icmp (h : Hdr) (b : AluBody) : Bool :=
  plainInt false h b && varIn 0b11111 b && (b.var.extractLsb' 2 3).toNat ≤ 5
    && alu all4 .x .x .none .p (b.var.getLsbD 0) h b

/-- ISEL: the condition is a predicate in VV and VI, a scalar in SS and SI (R255). -/
def isel (h : Hdr) (b : AluBody) : Bool :=
  plainInt false h b && varIn 0b01 b
    && alu all4 .x .x (if scalarClass h then .x else .p) .x (b.var.getLsbD 0) h b

def lea (h : Hdr) (b : AluBody) : Bool :=
  plainInt false h b && varIn 0b11110 b && alu all4 .d .w .none .d false h b

/-- MOV takes its one source from A, or from the literal (R256). -/
def mov (h : Hdr) (b : AluBody) : Bool :=
  plainInt false h b && varIn 0b01 b
    && (if immClass h then alu all4 .none .x .none .x (b.var.getLsbD 0) h b
        else alu all4 .x .none .none .x (b.var.getLsbD 0) h b)

/-- A bit operation of group 0x2 (R258). -/
def bit (mask : BitVec 8) (cl : List Nat) (ka kb kc : SK) (kd : DK) (h : Hdr) (b : AluBody) : Bool :=
  plainInt false h b && varIn mask b && alu cl ka kb kc kd (b.var.getLsbD 0) h b

def logt (h : Hdr) (b : AluBody) : Bool :=
  plainInt false h b && alu all4 .w .w .w .w false h b

def plogt (h : Hdr) (b : AluBody) : Bool :=
  plainInt false h b && alu vv .p .p .p .p false h b

/-- SHFL and SHFLQ (R264). -/
def shfl (h : Hdr) (b : AluBody) : Bool :=
  plainInt false h b && varIn 0b111101 b && (b.var.extractLsb' 2 3).toNat ≤ 4
    && alu vvvi .x .w (if b.var.getLsbD 5 then .x else .none) .x (b.var.getLsbD 0) h b

def bcast (h : Hdr) (b : AluBody) : Bool :=
  plainInt false h b && varIn 0b01 b && alu vvvi .x .w .none .x (b.var.getLsbD 0) h b

/-- VOTE: only .MASK takes a source B and the class VI (R266, R272). -/
def vote (h : Hdr) (b : AluBody) : Bool :=
  plainInt false h b && varIn 0b1100 b
    && (if (b.var.extractLsb' 2 2) == 3 then alu vvvi .p .w .none .w false h b
        else alu vv .p .none .none .p false h b)

def matchLanes (h : Hdr) (b : AluBody) : Bool :=
  plainInt false h b && varIn 0b1101 b && alu vv .x .none .none .w (b.var.getLsbD 0) h b

/-- PREFIX and REDUX (R268); `excl` says VAR bit 5 is allowed. -/
def scan (excl : Bool) (h : Hdr) (b : AluBody) : Bool :=
  plainInt false h b && varIn (if excl then 0b111111 else 0b011111) b
    && (b.var.extractLsb' 2 3).toNat ≤ 5
    && (!b.var.getLsbD 1 || (b.var.extractLsb' 2 3) == 1 || (b.var.extractLsb' 2 3) == 2)
    && alu vv .x .none .none .x (b.var.getLsbD 0) h b

def solo (h : Hdr) (b : AluBody) : Bool :=
  plainInt false h b && varIn 0b100 b && alu vv .none .none .none .p false h b

def pcnt (h : Hdr) (b : AluBody) : Bool :=
  plainInt false h b && varIn 0b100 b && alu vv .p .none .none .w false h b

def mget (h : Hdr) (b : AluBody) : Bool :=
  plainInt false h b && varIn 0b1100 b && alu ss .none .none .none .w false h b

def p2s (h : Hdr) (b : AluBody) : Bool :=
  plainInt false h b && varIn 0b11111 b && alu ss .none .none .none .w false h b

def s2p (h : Hdr) (b : AluBody) : Bool :=
  plainInt false h b && varIn 0 b && alu vvvi .d .d .none .p false h b

/-- F32, F16 or B16. -/
def isFloat (t : BitVec 4) : Bool := t.toNat ≤ 2

/-- F16 or B16. -/
def isHalf (t : BitVec 4) : Bool := t == 1 || t == 2

/-- The literal of a 16-bit type has its higher bits zero (R273). -/
def immHalf (h : Hdr) (b : AluBody) : Bool :=
  match b.b with
  | .imm w => h.typ == 0 || (w >>> 16) == 0
  | .reg _ => true

/-- A float operation of group 0x4 or 0x5 whose only type is TYPE (R273). -/
def flt (types : BitVec 4 → Bool) (cl : List Nat) (rm sat : Bool) (mask : BitVec 8)
    (ka kb kc : SK) (kd : DK) (h : Hdr) (b : AluBody) : Bool :=
  types h.typ && b.ty2 == 0 && b.ty3 == 0 && (rm || b.rm == 0) && (sat || !b.sat)
    && varIn mask b && immHalf h b && alu cl ka kb kc kd false h b

def fcmp (h : Hdr) (b : AluBody) : Bool :=
  flt isFloat all4 false false 0b11100 .w .w .none .p h b && (b.var.extractLsb' 2 3) != 7

/-- FSCALE: its literal is a signed integer, of any value (R273). -/
def fscale (h : Hdr) (b : AluBody) : Bool :=
  isFloat h.typ && b.ty2 == 0 && b.ty3 == 0 && varIn 0 b && alu all4 .w .w .none .w false h b

/-- An instruction with further types, in VV and SS or VV alone (R273). -/
def typed (t2 t3 : BitVec 4 → Bool) (types : BitVec 4 → Bool) (cl : List Nat) (rm sat : Bool)
    (mask : BitVec 8) (w64a w64d : Bool) (ka kb kc : SK) (kd : DK) (h : Hdr) (b : AluBody) : Bool :=
  types h.typ && t2 b.ty2 && t3 b.ty3 && (rm || b.rm == 0) && (sat || !b.sat) && varIn mask b
    && alu cl ka kb kc kd false h b
    && (!w64a || src (match ka with | .none => .none | _ => .d) (scalarClass h) true b.a)
    && (!w64d || dst .d (scalarClass h) true h.dest)

def zeroT (t : BitVec 4) : Bool := t == 0

def fdot4 (h : Hdr) (b : AluBody) : Bool :=
  typed (fun t => t == 3 || t == 4) (fun t => t == 3 || t == 4) zeroT vvss true true 0 false false
    .w .w .w .w h b

def idot4 (h : Hdr) (b : AluBody) : Bool :=
  typed (fun t => t == 8 || t == 9) (fun t => t == 8 || t == 9) zeroT vvss false true 0 false false
    .w .w .w .w h b

def hdot2 (h : Hdr) (b : AluBody) : Bool :=
  typed isHalf (fun t => t == b.ty2) zeroT vvss true true 0 false false .w .w .w .w h b

/-- Width in bits of an element of a format (R92); 16 for the codebooks' group index, 8 for a T5 byte. -/
def width (t : BitVec 4) : Nat :=
  match t.toNat with
  | 0 => 32
  | 1 => 16
  | 2 => 16
  | 3 => 8
  | 4 => 8
  | 5 => 6
  | 6 => 6
  | 7 => 4
  | 8 => 8
  | 9 => 8
  | 10 => 4
  | 11 => 4
  | 12 => 2
  | 13 => 8
  | _ => 16

/-- The highest chunk of a format (R289). -/
def maxChunk (t : BitVec 4) : Nat :=
  match t.toNat with
  | 0 => 0
  | 1 => 1
  | 2 => 1
  | 3 => 3
  | 4 => 3
  | 5 => 4
  | 6 => 4
  | 7 => 7
  | 8 => 3
  | 9 => 3
  | 10 => 7
  | 11 => 7
  | _ => 15

/-- Formats of CVT (R285). -/
def cvtT (t : BitVec 4) : Bool := [0, 1, 2, 3, 4, 7, 8, 9, 10, 11, 12].contains t.toNat

def cvt (h : Hdr) (b : AluBody) : Bool :=
  typed cvtT zeroT cvtT vvss true true 0xFF false false .w .none .none .w h b
    && (b.var.extractLsb' 0 4).toNat * width b.ty2 < 32
    && (b.var.extractLsb' 4 4).toNat * width h.typ < 32

def cvtp (h : Hdr) (b : AluBody) : Bool :=
  typed zeroT zeroT (fun t => [1, 2, 3, 4, 8, 9].contains t.toNat) vvss true true 0b100 false false
    .w .w .none .w h b && (!isHalf h.typ || !b.var.getLsbD 2)

def cvts (h : Hdr) (b : AluBody) : Bool :=
  let w64 := b.var.getLsbD 0
  let toi := b.var.getLsbD 2
  typed zeroT zeroT isFloat vvss true true 0b111 (w64 && !toi) (w64 && toi) .w .none .none .w h b

/-- Targets of QNT and QNTS: codes 3 to 15. -/
def qT (t : BitVec 4) : Bool := 3 ≤ t.toNat

def chunkOk (t : BitVec 4) (b : AluBody) : Bool := (b.var.extractLsb' 0 4).toNat ≤ maxChunk t

def qnt (h : Hdr) (b : AluBody) : Bool :=
  typed isFloat zeroT qT vv false false 0x0F false false .w (if h.typ == 15 then .vv else .none)
    .none .w h b && chunkOk h.typ b

def qnts (h : Hdr) (b : AluBody) : Bool :=
  typed isFloat zeroT qT vv false false 0x7F false false .w .none .none .w h b

def dqnt (h : Hdr) (b : AluBody) : Bool :=
  typed qT zeroT isFloat vv true true 0x0F false false .v .vz
    (if b.ty2 == 15 then .vv else .none) .w h b && chunkOk b.ty2 b
    && (b.ty2.toNat < 14 || b.b != .reg .zero)

def latq (h : Hdr) (b : AluBody) : Bool :=
  typed isFloat zeroT (fun t => t == 14) vv false false 0x0F false false .w .none .none .w h b

/-- Codes 0 to 13: every format but the codebooks. -/
def plainT (t : BitVec 4) : Bool := t.toNat ≤ 13

def pack (h : Hdr) (b : AluBody) : Bool :=
  typed isFloat zeroT plainT vv true true 0x0F false false .w .none .none .w h b && chunkOk h.typ b

/-- UNPACK: .INT wants an integer or T5 source and TYPE 0 (R291, R298). -/
def unpack (h : Hdr) (b : AluBody) : Bool :=
  typed plainT zeroT isFloat vv true false 0x1F false false .v .none .none .w h b && chunkOk b.ty2 b
    && (!b.var.getLsbD 4 || (h.typ == 0 && 8 ≤ b.ty2.toNat))

def t5pk (h : Hdr) (b : AluBody) : Bool :=
  typed (fun t => t == 12) zeroT (fun t => t == 13) vvss false false 0 false false .w .none .none .w h b

def t5up (h : Hdr) (b : AluBody) : Bool :=
  typed (fun t => t == 13) zeroT (fun t => t == 12) vvss false false 0 false false .w .none .none .w h b

def bmax (h : Hdr) (b : AluBody) : Bool :=
  typed isFloat zeroT zeroT vv false false 0 false false .w .none .none .w h b

/-! ### Control forms (R230) -/

/-- The register operand in W1 bits 9..0 of a CTL form: bits 31..10 zero. -/
def w1High (b : CtlBody) : Bool := (b.w1 >>> 10) == 0

/-- A field of ten bits read as an operand. -/
def opOf (x : BitVec 10) : Operand :=
  let lo := x.extractLsb' 0 8
  match (x.extractLsb' 8 2).toNat with
  | 0 => .vec lo
  | 1 => if lo.toNat < 64 then .sc (lo.extractLsb' 0 6) else .other x
  | 2 => if lo == 0xFF then .zero else if lo.toNat < 64 then .spec (lo.extractLsb' 0 6) else .other x
  | _ => if lo.toNat < 16 then .pred (lo.extractLsb' 0 4) else .other x

/-- The register operand that W1 of a CTL form names. -/
def w1Op (b : CtlBody) : Operand := opOf (b.w1.extractLsb' 0 10)

/-- What every CTL form shares: TYPE and LUC zero, the class variant, no mark on a missing SRCA. -/
def ctl (oc : Nat) (usesA usesB : Bool) (h : Hdr) (b : CtlBody) : Bool :=
  h.typ == 0 && !h.luc && h.oc.toNat == oc
    && (if usesA then lu h.lua b.a else unused b.a && !h.lua)
    && (if usesB then lu h.lub (w1Op b) && w1High b else !h.lub)

def ctlNone (h : Hdr) (b : CtlBody) : Bool :=
  ctl 0 false false h b && h.dest == 0 && b.w1 == 0 && b.aux == 0 && b.var == 0

def bra (h : Hdr) (b : CtlBody) : Bool :=
  ctl 0 false false h b && h.dest == 0 && b.aux == 0 && b.var == 0

def brc (h : Hdr) (b : CtlBody) : Bool :=
  ctl 0 true false h b && h.dest == 0 && b.aux != 0 && b.var.toNat ≤ 1 && isPred b.a

def brany (h : Hdr) (b : CtlBody) : Bool :=
  ctl 0 true false h b && h.dest == 0 && b.aux == 0 && b.var.toNat ≤ 1 && isPred b.a

def loop (h : Hdr) (b : CtlBody) : Bool :=
  ctl 0 false false h b && destSc h.dest && b.aux == 0 && b.var == 0

/-- An index: a vector register or a scalar. -/
def isIndex (o : Operand) : Bool := isVec o || isSc o

/-- A target or return PC: a vector pair or a scalar. -/
def isTarget (o : Operand) : Bool := isVecPair o || isSc o

def jtab (h : Hdr) (b : CtlBody) : Bool :=
  ctl 0 true true h b && h.dest == 0 && b.aux != 0 && b.var == 0 && isIndex b.a && isSc (w1Op b)

def call (h : Hdr) (b : CtlBody) : Bool :=
  ctl 0 false false h b && even h.dest && b.aux == 0 && b.var == 0

def callInd (h : Hdr) (b : CtlBody) : Bool :=
  ctl 1 false true h b && even h.dest && b.aux == 0 && b.var == 0 && isTarget (w1Op b)

def callt (h : Hdr) (b : CtlBody) : Bool :=
  ctl 0 true true h b && even h.dest && b.aux == 0 && b.var == 0 && isIndex b.a && isSc (w1Op b)

def ret (h : Hdr) (b : CtlBody) : Bool :=
  ctl 0 true false h b && h.dest == 0 && b.w1 == 0 && b.aux == 0 && b.var == 0 && isTarget b.a

/-- The budget fields of a PAD are in range and nothing else of W1 is set (R238). -/
def padBudget (w1 : Word) : Bool :=
  let v := (w1.extractLsb' 0 6).toNat
  let s := (w1.extractLsb' 8 7).toNat
  let t := (w1.extractLsb' 16 5).toNat
  1 ≤ v && v ≤ 32 && 1 ≤ s && s ≤ 64 && t ≤ 16 && (w1 &&& ~~~0x001F7F3F#32) == 0

def pad (h : Hdr) (b : CtlBody) : Bool :=
  ctl 0 false false h b && h.dest == 0 && b.var == 0 && padBudget b.w1

def brx (h : Hdr) (b : CtlBody) : Bool :=
  ctl 0 true false h b && h.dest == 0 && b.aux == 0 && b.var == 0 && isTarget b.a

def prefI (h : Hdr) (b : CtlBody) : Bool :=
  ctl 0 false false h b && h.dest == 0 && b.aux == 0 && b.var.toNat ≤ 3

def icinv (h : Hdr) (b : CtlBody) : Bool :=
  ctl 0 true false h b && h.dest == 0 && b.w1 == 0 && b.aux == 0 && b.var.toNat ≤ 5 && isSc b.a

def icinvAll (h : Hdr) (b : CtlBody) : Bool :=
  ctl 1 false false h b && h.dest == 0 && b.w1 == 0 && b.aux == 0 && b.var.toNat ≤ 5

def trap (h : Hdr) (b : CtlBody) : Bool :=
  ctl 0 false false h b && h.dest == 0 && b.w1 == 0 && b.var == 0

def getpc (h : Hdr) (b : CtlBody) : Bool :=
  ctl 0 false false h b && destSc h.dest && b.aux == 0 && b.var == 0

/-- COMMIT and COMMIT.R in recovery mode (R350). -/
def commit (h : Hdr) (b : CtlBody) : Bool :=
  ctl 0 true false h b && destS h.dest && b.aux == 0 && b.var == 0 && isSc b.a

/-- COMMIT and COMMIT.R in park mode (R350). -/
def commitPark (h : Hdr) (b : CtlBody) : Bool :=
  ctl 1 true false h b && destS h.dest && b.w1 == 0 && b.aux == 0 && b.var == 0 && isSc b.a

/-! ### Synchronisation forms of class SI (R344, R349, R350) -/

/-- What the SI forms outside groups 0x1 to 0x6 share. -/
def si (usesA : Bool) (h : Hdr) (b : AluBody) : Bool :=
  h.typ == 0 && h.dest == 0 && h.oc == 0 && b.rm == 0 && !b.sat && bodyFits true b && b.rsv == 0
    && unused b.c && !h.luc && !h.lub
    && (if usesA then isSc b.a else unused b.a && !h.lua)

/-- The literal of an SI form. -/
def immOf (b : AluBody) : Word :=
  match b.b with
  | .imm w => w
  | .reg _ => 0

def bar (h : Hdr) (b : AluBody) : Bool := si false h b && b.var == 0 && (immOf b).toNat ≤ 15

def fence (h : Hdr) (b : AluBody) : Bool :=
  si false h b && immOf b == 0 && (b.var.extractLsb' 0 3).toNat ≤ 4 && !b.var.getLsbD 3
    && !b.var.getLsbD 7 && ((b.var.extractLsb' 0 3) != 3 || (b.var.extractLsb' 4 3) == 0)

def rgnOpen (h : Hdr) (b : AluBody) : Bool :=
  si true h b && b.var == 0 && (immOf b).toNat < 0x10000

/-! ### Memory forms (R206, R329 to R349) -/

/-- BASE of a per-lane form, or of a once-per-fragment form (R329). -/
def base (once : Bool) : Operand → Bool
  | .vec n => !once && even n
  | .sc _ => true
  | .spec c => spec64 c
  | .zero => true
  | _ => false

def index (once : Bool) : Operand → Bool
  | .vec _ => !once
  | .sc _ => true
  | .spec c => if once then specStrand c else specOk c
  | .zero => true
  | _ => false

/-- BASE, INDEX and the fields every MEM form shares: TYPE zero, the class variant, the allowed ORD values, and
a SCOPE only beside an order (R206), unless the form is exempt. -/
def mem (oc : Nat) (once hint exempt : Bool) (ords : List Nat) (h : Hdr) (b : MemBody) : Bool :=
  h.typ == 0 && h.oc.toNat == oc && base once b.base && index once b.index
    && lu h.lua b.base && lu h.lub b.index
    && (hint || b.hint == 0) && ords.contains b.ord.toNat
    && (exempt || b.ord != 0 || b.scope == 0)

/-- No DATA operand. -/
def noData (h : Hdr) (b : MemBody) : Bool := unused b.data && !h.luc

def sxOk (b : MemBody) : Bool := !b.sx || b.size.toNat ≤ 1

def ld (h : Hdr) (b : MemBody) : Bool :=
  mem 0 false true false [0, 1] h b && noData h b && sxOk b && b.var == 0
    && (b.size != 3 || even h.dest)

def ldu (h : Hdr) (b : MemBody) : Bool :=
  mem 1 true true false [0, 1] h b && noData h b && sxOk b && b.var == 0
    && (b.size != 3 || even h.dest)

def lds (h : Hdr) (b : MemBody) : Bool :=
  mem 2 true true false [0, 1] h b && noData h b && sxOk b && b.var == 0 && destS h.dest

/-- Words per lane of LDV and STV (R332). -/
def vCount (b : MemBody) : Nat := 4 * 2 ^ b.var.toNat

def ldv (h : Hdr) (b : MemBody) : Bool :=
  mem 0 false true false [0, 1] h b && noData h b && !b.sx && b.size == 3 && b.var.toNat ≤ 2
    && even h.dest && h.dest.toNat + vCount b ≤ 256

def prefD (h : Hdr) (b : MemBody) : Bool :=
  mem 0 false true false [0] h b && noData h b && !b.sx && b.size == 0 && b.var == 0 && h.dest == 0

def probe (h : Hdr) (b : MemBody) : Bool :=
  mem 0 false true false [0] h b && noData h b && !b.sx && b.var == 0

/-- Store data of a per-lane store: a vector register, a pair for .D, or a scalar (R335). -/
def stData (w64 : Bool) : Operand → Bool
  | .vec n => !w64 || even n
  | .sc _ => true
  | _ => false

def st (h : Hdr) (b : MemBody) : Bool :=
  mem 0 false true false [0, 2] h b && !b.sx && b.var == 0 && h.dest == 0
    && stData (b.size == 3) b.data && lu h.luc b.data

def sts (h : Hdr) (b : MemBody) : Bool :=
  mem 2 true false false [0, 2] h b && !b.sx && b.var == 0 && h.dest == 0 && isSc b.data

/-- The number of a vector register operand. -/
def vecNum : Operand → Nat
  | .vec n => n.toNat
  | _ => 0

/-- The number of a scalar register operand. -/
def scNum : Operand → Nat
  | .sc n => n.toNat
  | _ => 0

def stv (h : Hdr) (b : MemBody) : Bool :=
  mem 0 false true false [0, 2] h b && !b.sx && b.size == 3 && b.var.toNat ≤ 2 && h.dest == 0
    && isVecPair b.data && vecNum b.data + vCount b ≤ 256

def stz (h : Hdr) (b : MemBody) : Bool :=
  mem 0 false true false [0, 2] h b && noData h b && !b.sx && b.var == 0 && h.dest == 0

def stzLine (h : Hdr) (b : MemBody) : Bool :=
  mem 0 false true false [0, 2] h b && noData h b && !b.sx && b.var == 1 && b.size == 3 && h.dest == 0

/-- CWB, CFLUSH and CINV (R336). -/
def cacheOp (h : Hdr) (b : MemBody) : Bool :=
  mem 0 false false true [0] h b && noData h b && !b.sx && b.size == 0 && b.var == 0 && h.dest == 0

/-- What the tile forms share: entry number in OFFSET, no other offset bits (R337). -/
def tile (ords : List Nat) (h : Hdr) (b : MemBody) : Bool :=
  h.typ == 0 && h.oc == 0 && b.hint == 0 && b.var == 0 && b.size == 0 && !b.sx
    && ords.contains b.ord.toNat && (b.off >>> 6) == 0

/-- A tile form that reads no address: BASE, INDEX and SHIFT zero. -/
def noAddr (h : Hdr) (b : MemBody) : Bool :=
  unused b.base && unused b.index && b.shift == 0 && !h.lua && !h.lub && b.scope == 0

def tdef (h : Hdr) (b : MemBody) : Bool :=
  tile [0] h b && noAddr h b && isSc b.data && h.dest == 0

def tld (h : Hdr) (b : MemBody) : Bool :=
  tile [0, 1] h b && mem 0 true false true [0, 1] h b && noData h b && b.scope != 0 && h.dest == 0

def tstr (h : Hdr) (b : MemBody) : Bool :=
  tile [0, 2] h b && mem 0 true false true [0, 2] h b && noData h b && b.scope != 0 && h.dest == 0

def trel (h : Hdr) (b : MemBody) : Bool :=
  tile [0] h b && noAddr h b && noData h b && h.dest == 0

def tqry (h : Hdr) (b : MemBody) : Bool :=
  tile [0] h b && noAddr h b && noData h b && destS h.dest

/-- ROUTINE of group 0xA (R206). -/
def routine (b : MemBody) : Nat := (b.off.extractLsb' 12 8).toNat

/-- Width in bytes of a built-in routine (R341). -/
def routineWidth (r : Nat) : Nat :=
  if (r % 2 == 0 && r ≤ 0x12) || (0x14 ≤ r && r ≤ 0x16) then 4 else 8

/-- SIZE is the routine's width; an installed routine takes either (R341). -/
def routineSize (b : MemBody) : Bool :=
  if 0x80 ≤ routine b then b.size == 2 || b.size == 3
  else b.size == (if routineWidth (routine b) == 4 then 2 else 3)

/-- Store data of an atomic: registers C to C + n − 1 exist; pairs begin at an even register. -/
def opData (once : Bool) (pairs : Bool) (nv ns : Nat) : Operand → Bool
  | .vec n => !once && (!pairs || even n) && n.toNat + nv ≤ 256
  | .sc n => n.toNat + ns ≤ 64
  | _ => false

/-- What group 0xA shares. -/
def atomCommon (oc : Nat) (once : Bool) (h : Hdr) (b : MemBody) : Bool :=
  mem oc once false false [0, 1, 2, 3] h b && !b.sx && b.var == 0 && lu h.luc b.data
    && routineSize b

def is64 (b : MemBody) : Bool := b.size == 3

/-- A reply destination: a register or a pair per lane, a scalar for the fragment. -/
def replyDest (once : Bool) (h : Hdr) (b : MemBody) : Bool :=
  if once then destS h.dest else !is64 b || even h.dest

/-- Routines of ATOM and RED (R341). -/
def atomRoutine (r : Nat) : Bool := r ≤ 0x11 || (0x14 ≤ r && r ≤ 0x16) || 0x80 ≤ r

def atom (oc : Nat) (once : Bool) (h : Hdr) (b : MemBody) : Bool :=
  atomCommon oc once h b && atomRoutine (routine b) && replyDest once h b
    && opData once (is64 b) (if is64 b then 2 else 1) 1 b.data

def red (oc : Nat) (once : Bool) (h : Hdr) (b : MemBody) : Bool :=
  atomCommon oc once h b && atomRoutine (routine b) && h.dest == 0
    && opData once (is64 b) (if is64 b then 2 else 1) 1 b.data

def cas (oc : Nat) (once : Bool) (h : Hdr) (b : MemBody) : Bool :=
  atomCommon oc once h b && (routine b == 0x12 || routine b == 0x13) && replyDest once h b
    && opData once (is64 b) (if is64 b then 4 else 2) 2 b.data

/-- CAS2, ENQ, CHASE and CRED: one routine each, pairs of operands (R341). -/
def fixed (r : Nat) (h : Hdr) (b : MemBody) : Bool :=
  atomCommon 0 false h b && routine b == r && even h.dest && opData false true 4 2 b.data

def cas4 (h : Hdr) (b : MemBody) : Bool :=
  atomCommon 2 true h b && routine b == 0x19 && h.dest.toNat < 63 && opData true true 4 4 b.data

def opk (oc : Nat) (once : Bool) (h : Hdr) (b : MemBody) : Bool :=
  atomCommon oc once h b && replyDest once h b
    && opData once (is64 b) (if is64 b then 4 else 2) 2 b.data

def opkx (oc : Nat) (once : Bool) (h : Hdr) (b : MemBody) : Bool :=
  atomCommon oc once h b && replyDest once h b && opData once true 12 6 b.data

/-- The MEM forms of group 0xB (R345). -/
def sync (ord : Nat) (h : Hdr) (b : MemBody) : Bool :=
  mem 0 true false true [ord] h b && isSc b.data

def objArr (h : Hdr) (b : MemBody) : Bool :=
  sync 2 h b && b.size == 3 && !b.sx && b.var == 0 && destS h.dest

def objWait (v : Nat) (h : Hdr) (b : MemBody) : Bool :=
  sync 1 h b && b.size == 3 && !b.sx && b.var.toNat == v && destS h.dest

def waitc (h : Hdr) (b : MemBody) : Bool :=
  sync 1 h b && (b.size == 2 || b.size == 3) && destS h.dest

def signal (h : Hdr) (b : MemBody) : Bool :=
  sync 2 h b && b.size == 3 && !b.sx && b.var == 0 && h.dest == 0

/-! ### Matrix forms (R301) -/

/-- A MAT operand field against the kind it must have, with its last-use bit. -/
def matSrc (k : Operand → Bool) (used bit : Bool) (o : Operand) : Bool :=
  if used then k o && lu bit o else unused o && !bit

/-- What every MAT form shares: reserved bits, OCLASS, and the fields it does not use. -/
def mat (oc : Nat) (typ rows scl asp bank typb atile sat rm : Bool) (var : BitVec 6)
    (h : Hdr) (b : MatBody) : Bool :=
  h.oc.toNat == oc && b.rsv == 0 && (typ || h.typ == 0) && (rows || b.rows == 0) && (scl || !b.scl)
    && (asp || !b.asp) && (bank || !b.bank) && (typb || b.typb == 0) && (atile || b.atile == 0)
    && (sat || !b.sat) && (rm || b.rm == 0) && (b.var &&& ~~~var) == 0

/-- Registers a row or column string of a format takes (R300). -/
def stringRegs (t : BitVec 4) : Nat :=
  match t.toNat with
  | 5 => 12
  | 6 => 12
  | 14 => 8
  | 15 => 8
  | _ => 16

/-- A register range of n registers ends at or before v255. -/
def vecRange (n : Nat) : Operand → Bool
  | .vec k => k.toNat + n ≤ 256
  | _ => false

/-- SCL of MLATCH: 1 for the codebooks, 0 for F32, F16 and B16 (R309). -/
def sclFits (t : BitVec 4) (scl : Bool) : Bool :=
  if 14 ≤ t.toNat then scl else if t.toNat ≤ 2 then !scl else true

def mlatchReg (h : Hdr) (b : MatBody) : Bool :=
  mat 0 false false true false true true false false false 0b11 h b && sclFits b.typb b.scl && h.dest == 0
    && matSrc (vecRange (stringRegs b.typb)) true h.lua b.a
    && matSrc isSc false h.lub b.b && matSrc isSc false h.luc b.c

def mlatchSp (h : Hdr) (b : MatBody) : Bool :=
  mat 0 false false true true true true false false false 0b11 h b && b.asp && sclFits b.typb b.scl
    && h.dest == 0 && matSrc isSc true h.lua b.a && matSrc isSc true h.lub b.b
    && matSrc isSc false h.luc b.c

/-- A tile destination (R203). -/
def destT (d : BitVec 8) : Bool := d.toNat < 0x10

/-- The A format of an MMQ, and its scaling (R314, R328). -/
def mmqType (h : Hdr) (b : MatBody) : Bool := h.typ.toNat ≤ 13 && (!b.scl || 3 ≤ h.typ.toNat)

/-- Registers vC that hold the A-side scales of a row: three (R303). -/
def mmqReg (h : Hdr) (b : MatBody) : Bool :=
  mat 0 true true true false true false false false false 0b111111 h b && mmqType h b && destT h.dest
    && matSrc (vecRange (stringRegs h.typ)) true h.lua b.a && matSrc isSc false h.lub b.b
    && matSrc (vecRange 3) b.scl h.luc b.c

def mmqSp (h : Hdr) (b : MatBody) : Bool :=
  mat 0 true false true true true false false false false 0b111111 h b && b.asp && mmqType h b
    && destT h.dest && matSrc isSc true h.lua b.a && matSrc isSc true h.lub b.b
    && matSrc isSc b.scl h.luc b.c

/-- A MAT form without register sources. -/
def matNoSrc (h : Hdr) (b : MatBody) : Bool :=
  matSrc isSc false h.lua b.a && matSrc isSc false h.lub b.b && matSrc isSc false h.luc b.c

def maccZ (h : Hdr) (b : MatBody) : Bool :=
  mat 0 false false false false false false false false false 0 h b && matNoSrc h b && destT h.dest

def maccZAll (h : Hdr) (b : MatBody) : Bool :=
  mat 1 false false false false false false false false false 0 h b && matNoSrc h b && h.dest == 0

/-- Formats of MACC.LD and MACC.ST (R320). -/
def accType (t : BitVec 4) (i32 : Bool) : Bool := if i32 then t == 0 else t.toNat ≤ 12

def maccLd (h : Hdr) (b : MatBody) : Bool :=
  let i32 := b.var.getLsbD 3
  mat 0 true false false false false false false false true 0b1111 h b && accType h.typ i32 && destT h.dest
    && matSrc (vecRange (if i32 then 32 else width h.typ)) true h.lua b.a
    && matSrc isSc false h.lub b.b && matSrc isSc false h.luc b.c

def maccSt (h : Hdr) (b : MatBody) : Bool :=
  let i32 := b.var.getLsbD 3
  mat 0 true false false false false false true true true 0b1011 h b && accType h.typ i32
    && h.dest.toNat + (if i32 then 32 else width h.typ) ≤ 256 && matNoSrc h b

def maccCp (oc : Nat) (h : Hdr) (b : MatBody) : Bool :=
  mat oc false false false false false false true false false 0 h b && matNoSrc h b && destT h.dest

/-- A factor source of MACC.SCL: a vector register or the zero operand (R323). -/
def isVecOrZero (o : Operand) : Bool := isVec o || o == .zero

def maccScl (h : Hdr) (b : MatBody) : Bool :=
  mat 0 false false false false false false false false false 0b11 h b && destT h.dest
    && matSrc isVecOrZero true h.lua b.a && matSrc isVecOrZero true h.lub b.b
    && matSrc isSc false h.luc b.c

/-- MTBL, MSCL and MSCLA: one source, one bank (R307). -/
def stage (k : Operand → Bool) (h : Hdr) (b : MatBody) : Bool :=
  mat 0 false false false false true false false false false 0 h b && h.dest == 0
    && matSrc k true h.lua b.a && matSrc isSc false h.lub b.b && matSrc isSc false h.luc b.c

def mrel (h : Hdr) (b : MatBody) : Bool :=
  mat 0 false false false false true false false false false 0 h b && matNoSrc h b && h.dest == 0

def mwait (h : Hdr) (b : MatBody) : Bool :=
  mat 0 false false false false false false false false false 0 h b && matNoSrc h b && h.dest == 0

def mstat (h : Hdr) (b : MatBody) : Bool :=
  mat 0 false false false false false false false false false 0 h b && matNoSrc h b && destS h.dest

/-! ### Engine and launch forms (R352, R355, R360) -/

/-- A used ASY source is a scalar or the zero operand; an unused one is zero. -/
def asySrc (used bit : Bool) (o : Operand) : Bool :=
  if used then isScOrZero o && lu bit o else unused o && !bit

/-- What group 0xC shares. -/
def asy (ua ub uc tv : Bool) (scopes : List Nat) (var : List Nat) (h : Hdr) (b : AsyBody) : Bool :=
  h.typ == 0 && h.oc == 0 && b.rsv1 == 0 && b.rsv2 == 0 && asySrc ua h.lua b.a && asySrc ub h.lub b.b
    && asySrc uc h.luc b.c && b.tv == tv && (tv || b.tile == 0) && scopes.contains b.scope.toNat
    && var.contains b.var.toNat

def cmdScopes : List Nat := [2, 3, 4, 5, 6, 7]

/-- ACOPY: S from a record or, with .FROM, from a tile; W a record or a tile (R355). -/
def acopy (h : Hdr) (b : AsyBody) : Bool :=
  h.dest == 0 && (if b.var == 1 then asy false true true true cmdScopes [1] h b
    else asy true true (!b.tv) b.tv cmdScopes [0] h b)

def agath (h : Hdr) (b : AsyBody) : Bool := h.dest == 0 && asy true true true true cmdScopes [0] h b

def acoll (h : Hdr) (b : AsyBody) : Bool :=
  h.dest == 0 && asy true true true false cmdScopes [0, 1, 2, 3, 4, 5] h b

def afill (h : Hdr) (b : AsyBody) : Bool :=
  h.dest == 0 && asy true true (!b.tv) b.tv cmdScopes [0] h b

def acopyt (h : Hdr) (b : AsyBody) : Bool := h.dest == 0 && asy true true true false cmdScopes [0] h b

def apref (h : Hdr) (b : AsyBody) : Bool := h.dest == 0 && asy true false false false cmdScopes [0] h b

def aqry (h : Hdr) (b : AsyBody) : Bool := destS h.dest && asy false false false false [0] [0] h b

def lnch (h : Hdr) (b : AsyBody) : Bool := h.dest == 0 && asy true false false false [0] [0] h b

def join (h : Hdr) (b : AsyBody) : Bool := destS h.dest && asy true true false false cmdScopes [0] h b

def cancel (v : Nat) (h : Hdr) (b : AsyBody) : Bool :=
  h.dest == 0 && asy true false false false [5, 6] [v] h b

def lstat (h : Hdr) (b : AsyBody) : Bool := destS h.dest && asy false false false false [0] [0] h b

/-! ### Privileged forms (R380) -/

/-- What group 0xD shares. -/
def sys (oc : Nat) (dest sreg ua ub : Bool) (var : List Nat) (h : Hdr) (b : SysBody) : Bool :=
  h.typ == 0 && h.oc.toNat == oc && b.rsv == 0 && !h.luc && (if dest then destS h.dest else h.dest == 0)
    && (sreg || b.sreg == 0) && asySrc ua h.lua b.a && asySrc ub h.lub b.b && var.contains b.var.toNat

/-- Scope 4 or 5 in VAR bits 6..4, with the low bits given. -/
def scopeVar (ks : List Nat) : List Nat := ks.map (0x40 + ·) ++ ks.map (0x50 + ·)

end Sys2Proof.Machine.Check
end

