-- ==== Sys2Proof/Syntax.lean ====
section
/-! DEFINITION. The instructions and device events of the Rhaostan: one constructor for each row of the opcode table.
The first 214 rows are instruction forms: they carry the fields of their words. The other rows are events of the
device, which have no words: they carry what the event is about. -/
namespace Sys2Proof

/-- The Glait instruction forms and the events of one device. -/
inductive Instr where
  /-- NOP: R245 Changes no state, but it is checked under R214 and its guard is read. -/
  | nop (h : Hdr) (b : CtlBody)
  /-- BRA: R233 Sends active lanes to a unit displacement; lanes whose guard fails fall through, with no reconvergence. -/
  | bra (h : Hdr) (b : CtlBody)
  /-- BRC: R234 Conditional branch on a per-lane predicate that splits the fragment and names a reconvergence address. -/
  | brc (h : Hdr) (b : CtlBody)
  /-- BRANY: R235 Moves the whole fragment when any active lane's predicate holds; it never splits. -/
  | brany (h : Hdr) (b : CtlBody)
  /-- BRALL: R235 Moves the whole fragment when every active lane's predicate holds; it never splits. -/
  | brall (h : Hdr) (b : CtlBody)
  /-- LOOP: R236 Decrements a scalar once per fragment and branches the whole fragment while the scalar is not zero. -/
  | loopOp (h : Hdr) (b : CtlBody)
  /-- JTAB: R237 Per-lane indexed jump through a labelled table, splitting into one fragment per target with a reconvergence group. -/
  | jtab (h : Hdr) (b : CtlBody)
  /-- CALL: R239 Direct call that writes the per-lane link pair and reconverges at the return address. -/
  | call (h : Hdr) (b : CtlBody)
  /-- CALL_IND: R239 Indirect call to each lane's target register; the target must be a PAD. -/
  | callInd (h : Hdr) (b : CtlBody)
  /-- CALLT: R240 Table call that writes the link and goes to the indexed table entry. -/
  | callt (h : Hdr) (b : CtlBody)
  /-- RET: R241 Sends each lane to its own return PC, splitting without reconvergence. -/
  | ret (h : Hdr) (b : CtlBody)
  /-- PAD: R238 Landing pad carrying a label and a budget; it does nothing when issued. -/
  | pad (h : Hdr) (b : CtlBody)
  /-- BRX: R242 Stahel-compatible indirect branch, taken only to targets listed in its table. -/
  | brx (h : Hdr) (b : CtlBody)
  /-- EXIT: R243 Makes every active lane exit. -/
  | exit (h : Hdr) (b : CtlBody)
  /-- YIELD: R244 Scheduling hint that defers the fragment while others are ready. -/
  | yield (h : Hdr) (b : CtlBody)
  /-- PREF_I: R248 Hint that brings up to four instruction-cache lines toward the core. -/
  | prefI (h : Hdr) (b : CtlBody)
  /-- ICINV: R249 Removes one code line from the instruction caches within the named scope. -/
  | icinv (h : Hdr) (b : CtlBody)
  /-- ICINV_ALL: R249 Removes every code line of the issuing context from the instruction caches within the scope. -/
  | icinvAll (h : Hdr) (b : CtlBody)
  /-- FBAR: R250 Discards instruction lines held ahead of issue and orders later fetches after earlier acquires and ICINVs. -/
  | fbar (h : Hdr) (b : CtlBody)
  /-- TRAP: R247 Holds every active lane with cause 0x4E. -/
  | trap (h : Hdr) (b : CtlBody)
  /-- BKPT: R247 Holds active lanes with cause 0x4F, or halts the strand when the debug right is held and breakpoints are enabled. -/
  | bkpt (h : Hdr) (b : CtlBody)
  /-- GETPC: R246 Writes a PC computed from a displacement into a scalar. -/
  | getpc (h : Hdr) (b : CtlBody)
  /-- IADD: R254 Integer add that wraps, or saturates with SAT. -/
  | iadd (h : Hdr) (b : AluBody)
  /-- ISUB: R254 Integer subtract. -/
  | isub (h : Hdr) (b : AluBody)
  /-- IMUL: R254 Integer multiply, low part. -/
  | imul (h : Hdr) (b : AluBody)
  /-- IMULH: R254 Integer multiply, high part. -/
  | imulh (h : Hdr) (b : AluBody)
  /-- IMAD: R254 Integer multiply-add. -/
  | imad (h : Hdr) (b : AluBody)
  /-- IMIN: R254 Integer minimum. -/
  | imin (h : Hdr) (b : AluBody)
  /-- IMAX: R254 Integer maximum. -/
  | imax (h : Hdr) (b : AluBody)
  /-- IABS: R254 Integer absolute value. -/
  | iabs (h : Hdr) (b : AluBody)
  /-- IDIV: R254 Integer divide truncating toward zero; a zero divisor gives poison 0x25. -/
  | idiv (h : Hdr) (b : AluBody)
  /-- IREM: R254 Integer remainder. -/
  | irem (h : Hdr) (b : AluBody)
  /-- ICMP: R255 Integer compare that writes a predicate. -/
  | icmp (h : Hdr) (b : AluBody)
  /-- ISEL: R255 Selects a or b by a condition. -/
  | isel (h : Hdr) (b : AluBody)
  /-- LEA: R254 64-bit address computation a + (extended b << k). -/
  | lea (h : Hdr) (b : AluBody)
  /-- MOV: R256 Copies a source or an immediate; the scalar forms can write $deadline. -/
  | mov (h : Hdr) (b : AluBody)
  /-- IADD3: R254 Three-operand integer add. -/
  | iadd3 (h : Hdr) (b : AluBody)
  /-- ICLAMP: R254 Clamps x to the range from y to z. -/
  | iclamp (h : Hdr) (b : AluBody)
  /-- AND: R258 Bitwise AND. -/
  | andOp (h : Hdr) (b : AluBody)
  /-- OR: R258 Bitwise OR. -/
  | orOp (h : Hdr) (b : AluBody)
  /-- XOR: R258 Bitwise XOR. -/
  | xorOp (h : Hdr) (b : AluBody)
  /-- ANDN: R258 x AND NOT y. -/
  | andn (h : Hdr) (b : AluBody)
  /-- NOT: R258 Bitwise NOT. -/
  | notOp (h : Hdr) (b : AluBody)
  /-- LOGT: R259 Three-input logic function given by a truth table. -/
  | logt (h : Hdr) (b : AluBody)
  /-- SHL: R258 Shift left. -/
  | shl (h : Hdr) (b : AluBody)
  /-- SHR: R258 Logical shift right. -/
  | shr (h : Hdr) (b : AluBody)
  /-- SAR: R258 Arithmetic shift right. -/
  | sar (h : Hdr) (b : AluBody)
  /-- ROT: R258 Rotate left. -/
  | rot (h : Hdr) (b : AluBody)
  /-- DSH: R260 Double-width funnel shift. -/
  | dsh (h : Hdr) (b : AluBody)
  /-- POPC: R258 Counts the set bits. -/
  | popc (h : Hdr) (b : AluBody)
  /-- CLZ: R258 Counts the leading zero bits. -/
  | clz (h : Hdr) (b : AluBody)
  /-- CTZ: R258 Counts the trailing zero bits. -/
  | ctz (h : Hdr) (b : AluBody)
  /-- BREV: R258 Reverses the bit order. -/
  | brev (h : Hdr) (b : AluBody)
  /-- BSWAP: R258 Reverses the byte order. -/
  | bswap (h : Hdr) (b : AluBody)
  /-- FXT: R260 Extracts a bit field. -/
  | fxt (h : Hdr) (b : AluBody)
  /-- FINS: R260 Inserts a bit field. -/
  | fins (h : Hdr) (b : AluBody)
  /-- BYSEL: R261 Selects bytes, with copy, sign, zero or reverse modes. -/
  | bysel (h : Hdr) (b : AluBody)
  /-- PLOGT: R259 Three-input logic function on predicates. -/
  | plogt (h : Hdr) (b : AluBody)
  /-- SHFL: R264 Shuffle across lanes of the strand. -/
  | shfl (h : Hdr) (b : AluBody)
  /-- SHFLQ: R264 Shuffle across lanes within each quarter. -/
  | shflq (h : Hdr) (b : AluBody)
  /-- VOTE: R266 Vote over the predicates of the active lanes. -/
  | vote (h : Hdr) (b : AluBody)
  /-- MATCH: R267 Finds active lanes whose values are equal. -/
  | matchOp (h : Hdr) (b : AluBody)
  /-- PREFIX: R268 Prefix combination over active lanes. -/
  | prefixOp (h : Hdr) (b : AluBody)
  /-- REDUX: R268 Reduction over active lanes. -/
  | redux (h : Hdr) (b : AluBody)
  /-- BCAST: R265 Broadcasts one lane's value to every active lane. -/
  | bcast (h : Hdr) (b : AluBody)
  /-- SOLO: R269 Marks the lowest or highest active lane in a predicate. -/
  | solo (h : Hdr) (b : AluBody)
  /-- MGET: R270 Reads mask words into a scalar. -/
  | mget (h : Hdr) (b : AluBody)
  /-- P2S: R270 Moves predicate bits into a scalar. -/
  | p2s (h : Hdr) (b : AluBody)
  /-- S2P: R270 Moves scalar bits into predicates. -/
  | s2p (h : Hdr) (b : AluBody)
  /-- PCNT: R269 Counts active lanes whose predicate is set. -/
  | pcnt (h : Hdr) (b : AluBody)
  /-- FADD: R276 Float add. -/
  | fadd (h : Hdr) (b : AluBody)
  /-- FSUB: R276 Float subtract. -/
  | fsub (h : Hdr) (b : AluBody)
  /-- FMUL: R276 Float multiply. -/
  | fmul (h : Hdr) (b : AluBody)
  /-- FFMA: R276 Fused multiply-add, rounded once. -/
  | ffma (h : Hdr) (b : AluBody)
  /-- FMIN: R277 Float minimum. -/
  | fmin (h : Hdr) (b : AluBody)
  /-- FMAX: R277 Float maximum. -/
  | fmax (h : Hdr) (b : AluBody)
  /-- FABS: R277 Clears the sign. -/
  | fabs (h : Hdr) (b : AluBody)
  /-- FNEG: R277 Inverts the sign. -/
  | fneg (h : Hdr) (b : AluBody)
  /-- FCPYS: R277 Copies the sign of b onto a. -/
  | fcpys (h : Hdr) (b : AluBody)
  /-- FCMP: R278 Float compare that writes a predicate. -/
  | fcmp (h : Hdr) (b : AluBody)
  /-- FCLASS: R279 Classifies a float encoding. -/
  | fclass (h : Hdr) (b : AluBody)
  /-- FRND: R276 Rounds to an integral value. -/
  | frnd (h : Hdr) (b : AluBody)
  /-- FDIV: R276 Float divide. -/
  | fdiv (h : Hdr) (b : AluBody)
  /-- FSQRT: R276 Float square root. -/
  | fsqrt (h : Hdr) (b : AluBody)
  /-- FSCALE: R276 Multiplies by a power of two. -/
  | fscale (h : Hdr) (b : AluBody)
  /-- HADD2: R280 Packed-pair half add. -/
  | hadd2 (h : Hdr) (b : AluBody)
  /-- HMUL2: R280 Packed-pair half multiply. -/
  | hmul2 (h : Hdr) (b : AluBody)
  /-- HFMA2: R280 Packed-pair half fused multiply-add. -/
  | hfma2 (h : Hdr) (b : AluBody)
  /-- HMIN2: R280 Packed-pair half minimum. -/
  | hmin2 (h : Hdr) (b : AluBody)
  /-- HMAX2: R280 Packed-pair half maximum. -/
  | hmax2 (h : Hdr) (b : AluBody)
  /-- FRCP: R282 Approximate reciprocal. -/
  | frcp (h : Hdr) (b : AluBody)
  /-- FRSQ: R282 Approximate reciprocal square root. -/
  | frsq (h : Hdr) (b : AluBody)
  /-- FEXP2: R282 Approximate power of two. -/
  | fexp2 (h : Hdr) (b : AluBody)
  /-- FLOG2: R282 Approximate base-2 logarithm. -/
  | flog2 (h : Hdr) (b : AluBody)
  /-- FSIN: R282 Approximate sine of pi times a. -/
  | fsin (h : Hdr) (b : AluBody)
  /-- FCOS: R282 Approximate cosine of pi times a. -/
  | fcos (h : Hdr) (b : AluBody)
  /-- FTANH: R282 Approximate hyperbolic tangent. -/
  | ftanh (h : Hdr) (b : AluBody)
  /-- FDOT4: R284 Four-element 8-bit float dot product into F32. -/
  | fdot4 (h : Hdr) (b : AluBody)
  /-- IDOT4: R284 Four-element 8-bit integer dot product. -/
  | idot4 (h : Hdr) (b : AluBody)
  /-- HDOT2: R284 Two-element half dot product into F32. -/
  | hdot2 (h : Hdr) (b : AluBody)
  /-- CVT: R285 Converts one element within a lane word. -/
  | cvt (h : Hdr) (b : AluBody)
  /-- CVTP: R287 Converts two F32 values into a packed word. -/
  | cvtp (h : Hdr) (b : AluBody)
  /-- CVTS: R288 Converts between a float and a 32-bit or 64-bit integer. -/
  | cvts (h : Hdr) (b : AluBody)
  /-- QNT: R294 Block-quantises each quarter into a chunk of a register string. -/
  | qnt (h : Hdr) (b : AluBody)
  /-- QNTS: R295 Writes the four quarter scales into one lane's word. -/
  | qnts (h : Hdr) (b : AluBody)
  /-- DQNT: R296 Dequantises chunk elements with their block scales. -/
  | dqnt (h : Hdr) (b : AluBody)
  /-- LATQ: R297 Encodes groups of eight lane values as QL indices. -/
  | latq (h : Hdr) (b : AluBody)
  /-- PACK: R291 Converts lane values into packed elements of a chunk. -/
  | pack (h : Hdr) (b : AluBody)
  /-- UNPACK: R291 Converts chunk elements into per-lane values. -/
  | unpack (h : Hdr) (b : AluBody)
  /-- T5PK: R292 Packs five I2 digits into a T5 byte. -/
  | t5pk (h : Hdr) (b : AluBody)
  /-- T5UP: R292 Unpacks a T5 byte into five I2 digits. -/
  | t5up (h : Hdr) (b : AluBody)
  /-- BMAX: R293 Maximum magnitude over each quarter. -/
  | bmax (h : Hdr) (b : AluBody)
  /-- MLATCH: R308 Latches a B tile from registers into a logical bank. -/
  | mlatch (h : Hdr) (b : MatBody)
  /-- MLATCH_SCRATCHPAD: R308 Latches a B tile through a scratchpad descriptor pair. -/
  | mlatchScratchpad (h : Hdr) (b : MatBody)
  /-- MMQ: R315 Accumulates a quarter's register A rows times the latch into a tile. -/
  | mmq (h : Hdr) (b : MatBody)
  /-- MMQ_SCRATCHPAD: R315 Accumulates scratchpad A rows, named by a descriptor pair, times the latch. -/
  | mmqScratchpad (h : Hdr) (b : MatBody)
  /-- MACC_Z: R319 Zeroes a tile and sets its mode to none. -/
  | maccZ (h : Hdr) (b : MatBody)
  /-- MACC_Z_ALL: R319 Zeroes every tile of the budget. -/
  | maccZAll (h : Hdr) (b : MatBody)
  /-- MACC_LD: R320 Loads tile rows from registers. -/
  | maccLd (h : Hdr) (b : MatBody)
  /-- MACC_ST: R321 Stores tile rows to registers with conversion. -/
  | maccSt (h : Hdr) (b : MatBody)
  /-- MACC_CP: R322 Copies one tile to another. -/
  | maccCp (h : Hdr) (b : MatBody)
  /-- MACC_CP_ADD: R322 Adds one tile into another. -/
  | maccCpAdd (h : Hdr) (b : MatBody)
  /-- MACC_SCL: R323 Scales an AF80 tile by row and column factors. -/
  | maccScl (h : Hdr) (b : MatBody)
  /-- MTBL: R307 Stages a register pair as the QT table source. -/
  | mtbl (h : Hdr) (b : MatBody)
  /-- MSCL: R307 Stages a register as the B scale source. -/
  | mscl (h : Hdr) (b : MatBody)
  /-- MSCLA: R307 Stages a window address as the B scale source. -/
  | mscla (h : Hdr) (b : MatBody)
  /-- MREL: R313 Releases a latch bank. -/
  | mrel (h : Hdr) (b : MatBody)
  /-- MWAIT: R324 Waits for earlier matrix instructions to complete. -/
  | mwait (h : Hdr) (b : MatBody)
  /-- MSTAT: R325 Waits, then reads matrix mode, overflow and bank status into a scalar. -/
  | mstat (h : Hdr) (b : MatBody)
  /-- LD: R331 Per-lane load. -/
  | ld (h : Hdr) (b : MemBody)
  /-- LDU: R331 Uniform load performed once and given to every active lane. -/
  | ldu (h : Hdr) (b : MemBody)
  /-- LDS: R331 Scalar load. -/
  | lds (h : Hdr) (b : MemBody)
  /-- LDV: R332 Per-lane load of 4, 8 or 16 consecutive words. -/
  | ldv (h : Hdr) (b : MemBody)
  /-- PREF_D: R333 Data prefetch hint. -/
  | prefD (h : Hdr) (b : MemBody)
  /-- PROBE: R334 Translates an address and reports its permissions without reading data. -/
  | probe (h : Hdr) (b : MemBody)
  /-- ST: R335 Per-lane store. -/
  | st (h : Hdr) (b : MemBody)
  /-- STS: R335 Scalar store. -/
  | sts (h : Hdr) (b : MemBody)
  /-- STV: R335 Per-lane store of 4, 8 or 16 words. -/
  | stv (h : Hdr) (b : MemBody)
  /-- STZ: R335 Stores zeros of the access size. -/
  | stz (h : Hdr) (b : MemBody)
  /-- STZ_LINE: R335 Stores zeros to the whole aligned 128-byte line. -/
  | stzLine (h : Hdr) (b : MemBody)
  /-- TDEF: R338 Defines a tile table entry from a descriptor. -/
  | tdef (h : Hdr) (b : MemBody)
  /-- TLD: R339 Loads a tile from memory into the scratchpad as one atomic event. -/
  | tld (h : Hdr) (b : MemBody)
  /-- TSTR: R340 Stores a tile from the scratchpad to memory as one atomic event. -/
  | tstr (h : Hdr) (b : MemBody)
  /-- TREL: R340 Makes a tile entry empty. -/
  | trel (h : Hdr) (b : MemBody)
  /-- TQRY: R338 Reads a tile descriptor with its state and BAD bit. -/
  | tqry (h : Hdr) (b : MemBody)
  /-- CWB: R336 Writes back a dirty line toward the scope. -/
  | cwb (h : Hdr) (b : MemBody)
  /-- CFLUSH: R336 Writes back a line and removes it from the caches. -/
  | cflush (h : Hdr) (b : MemBody)
  /-- CINV: R336 Removes a line from the caches, writing back dirty bytes first. -/
  | cinv (h : Hdr) (b : MemBody)
  /-- ATOM: R341 Per-lane atomic with a reply. -/
  | atom (h : Hdr) (b : MemBody)
  /-- ATOMS: R341 Scalar atomic with a reply. -/
  | atoms (h : Hdr) (b : MemBody)
  /-- RED: R341 Per-lane atomic with no reply. -/
  | red (h : Hdr) (b : MemBody)
  /-- REDS: R341 Scalar atomic with no reply. -/
  | reds (h : Hdr) (b : MemBody)
  /-- CAS: R341 Per-lane compare-and-swap. -/
  | cas (h : Hdr) (b : MemBody)
  /-- CASS: R341 Scalar compare-and-swap. -/
  | cass (h : Hdr) (b : MemBody)
  /-- CAS2: R341 Two-word compare-and-swap. -/
  | cas2 (h : Hdr) (b : MemBody)
  /-- CAS4: R341 Four-word compare-and-swap. -/
  | cas4 (h : Hdr) (b : MemBody)
  /-- ENQ: R341 List enqueue packet. -/
  | enq (h : Hdr) (b : MemBody)
  /-- CHASE: R341 Pointer chase packet. -/
  | chase (h : Hdr) (b : MemBody)
  /-- CRED: R341 Contributor-tracked reduction packet. -/
  | cred (h : Hdr) (b : MemBody)
  /-- OPK: R342 Per-lane operation packet naming any routine. -/
  | opk (h : Hdr) (b : MemBody)
  /-- OPK_SCALAR: R342 Operation packet sent once per fragment from scalars. -/
  | opkScalar (h : Hdr) (b : MemBody)
  /-- OPKX: R342 Per-lane operation packet with an extension packet. -/
  | opkx (h : Hdr) (b : MemBody)
  /-- OPKX_SCALAR: R342 Operation packet with an extension, sent once per fragment from scalars. -/
  | opkxScalar (h : Hdr) (b : MemBody)
  /-- BAR_ARR: R344 Arrives at a named block barrier without waiting. -/
  | barArr (h : Hdr) (b : AluBody)
  /-- BAR_WAIT: R344 Waits for the completion of the phase in which the strand last arrived. -/
  | barWait (h : Hdr) (b : AluBody)
  /-- BAR_SYNC: R344 Arrives at a named barrier, then waits. -/
  | barSync (h : Hdr) (b : AluBody)
  /-- OBJ_ARR: R346 Arrives at a barrier object, announcing a byte count. -/
  | objArr (h : Hdr) (b : MemBody)
  /-- OBJ_WAIT: R346 Waits at the object's home for its phase to flip. -/
  | objWait (h : Hdr) (b : MemBody)
  /-- OBJ_WAIT_EV: R346 Evictable phase wait that uses a condition monitor. -/
  | objWaitEv (h : Hdr) (b : MemBody)
  /-- WAITC: R347 Registers a condition monitor and waits, evictably, for the comparison to hold. -/
  | waitc (h : Hdr) (b : MemBody)
  /-- SIGNAL: R348 Adds to a completion signal as a release, with no reply. -/
  | signal (h : Hdr) (b : MemBody)
  /-- FENCE: R349 FULL, ACQ, REL, XL or REC fence at a scope. -/
  | fence (h : Hdr) (b : AluBody)
  /-- RGN_OPEN: R139 Opens a region with a live-in set. -/
  | rgnOpen (h : Hdr) (b : AluBody)
  /-- COMMIT: R142 Searches for live poison, then releases the locket or drops it and recovers. -/
  | commit (h : Hdr) (b : CtlBody)
  /-- COMMIT_PARK: R142 Commit that parks the strand when poison is found. -/
  | commitPark (h : Hdr) (b : CtlBody)
  /-- COMMIT_R: R143 Commit with recovery that reopens the region on release. -/
  | commitR (h : Hdr) (b : CtlBody)
  /-- COMMIT_R_PARK: R143 Commit that parks on poison and reopens the region on release. -/
  | commitRPark (h : Hdr) (b : CtlBody)
  /-- RGN_DROP: R143 Closes the region and discards its locket entries. -/
  | rgnDrop (h : Hdr) (b : CtlBody)
  /-- ACOPY: R355 Copy engine command between views or a tile. -/
  | acopy (h : Hdr) (b : AsyBody)
  /-- AGATH: R355 Gathers indexed rows into a tile. -/
  | agath (h : Hdr) (b : AsyBody)
  /-- ASCAT: R355 Scatters tile rows to indexed rows. -/
  | ascat (h : Hdr) (b : AsyBody)
  /-- ACOLL: R356 Collective combine of elements at their homes. -/
  | acoll (h : Hdr) (b : AsyBody)
  /-- AFILL: R355 Fills a view or a tile with a pattern. -/
  | afill (h : Hdr) (b : AsyBody)
  /-- ACOPYT: R355 Copy with dimensions 0 and 1 transposed. -/
  | acopyt (h : Hdr) (b : AsyBody)
  /-- APREF: R355 Prefetches a view toward L2. -/
  | apref (h : Hdr) (b : AsyBody)
  /-- AQRY: R355 Reads the strand's outstanding engine command counts. -/
  | aqry (h : Hdr) (b : AsyBody)
  /-- LNCH: R361 Snapshots a launch record into the core's pending-launch queue. -/
  | lnch (h : Hdr) (b : AsyBody)
  /-- LNCH_POD: R361 Starts a pod grid through the zenith. -/
  | lnchPod (h : Hdr) (b : AsyBody)
  /-- JOIN: R362 Waits until a completion counter reaches a target. -/
  | join (h : Hdr) (b : AsyBody)
  /-- CANCEL: R363 Cancels the grids whose GRID matches, letting running blocks finish. -/
  | cancel (h : Hdr) (b : AsyBody)
  /-- CANCEL_TERM: R363 Cancels matching grids and contains their running strands. -/
  | cancelTerm (h : Hdr) (b : AsyBody)
  /-- LREC: R364 Writes the grid's own accepted launch record. -/
  | lrec (h : Hdr) (b : AsyBody)
  /-- LSTAT: R364 Reads the launch queue, pool and overflow status. -/
  | lstat (h : Hdr) (b : AsyBody)
  /-- SRD: R382 Reads a system register. -/
  | srd (h : Hdr) (b : SysBody)
  /-- SWR: R382 Writes a system register. -/
  | swr (h : Hdr) (b : SysBody)
  /-- TBINV: R390 Invalidates translations by page, context or all. -/
  | tbinv (h : Hdr) (b : SysBody)
  /-- TBSYNC: R390 Waits until earlier TBINVs and their accesses and walks have completed. -/
  | tbsync (h : Hdr) (b : SysBody)
  /-- CTXSW_OUT: R384 Switches a context out on the device. -/
  | ctxswOut (h : Hdr) (b : SysBody)
  /-- CTXSW_IN: R384 Switches a context in on the device. -/
  | ctxswIn (h : Hdr) (b : SysBody)
  /-- SHALT: R384 Halts a strand for debug. -/
  | shalt (h : Hdr) (b : SysBody)
  /-- SRESM: R384 Resumes a halted strand. -/
  | sresm (h : Hdr) (b : SysBody)
  /-- SRESM_FETCH: R393 Ends a fetch park. -/
  | sresmFetch (h : Hdr) (b : SysBody)
  /-- SRESM_KILL: R393 Contains a fetch-parked strand with its fetch cause. -/
  | sresmKill (h : Hdr) (b : SysBody)
  /-- IEVICT: R384 Writes back a strand's dirty image lines and keeps them clean. -/
  | ievict (h : Hdr) (b : SysBody)
  /-- PLD: R383 Uncached physical load. -/
  | pld (h : Hdr) (b : SysBody)
  /-- PST: R383 Uncached physical store. -/
  | pst (h : Hdr) (b : SysBody)
  /-- CONVHC_HC: R400 Converts units to hardware-coherent, merging copies and counting conflicts. -/
  | convhcHc (h : Hdr) (b : SysBody)
  /-- CONVHC_SM: R400 Converts units to software-managed after recalling tracked copies. -/
  | convhcSm (h : Hdr) (b : SysBody)
  /-- FQPOP: R392 Takes one fault queue entry indivisibly. -/
  | fqpop (h : Hdr) (b : SysBody)
  /-- TTLOAD: R437 Validates records and loads them into the time-triggered table. -/
  | ttload (h : Hdr) (b : SysBody)
  /-- CWBALL: R384 Writes back every dirty cache line within the scope. -/
  | cwball (h : Hdr) (b : SysBody)
  /-- CWBALL_INV: R384 Writes back, then drops, every cache line within the scope. -/
  | cwballInv (h : Hdr) (b : SysBody)
  /-- HINT: R213 Hint-space opcode that executes as an unchecked no-operation. -/
  | hint (w : RawInsn)
  /-- ILLEGAL_INSTRUCTION: R213 An unallocated or group 0xF opcode holds its lanes with cause 0x40. -/
  | illegalInstruction (w : RawInsn)
  /-- ADD_ROUTINE: R188 Routine 0x00 or 0x01: wrapping add at the home, replying with the old value. -/
  | addRoutine (p : Packet)
  /-- SIGNED_MIN_ROUTINE: R188 Signed minimum routine at the home. -/
  | signedMinRoutine (p : Packet)
  /-- SIGNED_MAX_ROUTINE: R188 Signed maximum routine at the home. -/
  | signedMaxRoutine (p : Packet)
  /-- UNSIGNED_MIN_ROUTINE: R188 Unsigned minimum routine at the home. -/
  | unsignedMinRoutine (p : Packet)
  /-- UNSIGNED_MAX_ROUTINE: R188 Unsigned maximum routine at the home. -/
  | unsignedMaxRoutine (p : Packet)
  /-- AND_ROUTINE: R188 Bitwise AND routine at the home. -/
  | andRoutine (p : Packet)
  /-- OR_ROUTINE: R188 Bitwise OR routine at the home. -/
  | orRoutine (p : Packet)
  /-- XOR_ROUTINE: R188 Bitwise XOR routine at the home. -/
  | xorRoutine (p : Packet)
  /-- SWAP_ROUTINE: R188 Swap routine at the home. -/
  | swapRoutine (p : Packet)
  /-- CAS_ROUTINE: R188 Compare-and-swap routine at the home. -/
  | casRoutine (p : Packet)
  /-- F32_ADD_ROUTINE: R188 F32 add routine, rounded to nearest even. -/
  | f32AddRoutine (p : Packet)
  /-- F16_PAIR_ADD_ROUTINE: R188 F16 pair add routine. -/
  | f16PairAddRoutine (p : Packet)
  /-- B16_PAIR_ADD_ROUTINE: R188 B16 pair add routine. -/
  | b16PairAddRoutine (p : Packet)
  /-- TWO_WORD_CAS_ROUTINE: R188 Doubleword compare-and-swap routine. -/
  | twoWordCasRoutine (p : Packet)
  /-- FOUR_WORD_CAS_ROUTINE: R188 Four-word compare-and-swap routine, new value in the extension packet. -/
  | fourWordCasRoutine (p : Packet)
  /-- LIST_ENQUEUE_ROUTINE: R188 Swaps the list tail and links the new node. -/
  | listEnqueueRoutine (p : Packet)
  /-- POINTER_CHASE_ROUTINE: R188 Follows links up to OP0 times and replies with the address reached. -/
  | pointerChaseRoutine (p : Packet)
  /-- CONTRIBUTOR_REDUCTION_ROUTINE: R188 Adds F32 pairs into a line and sets the contributor mask bit. -/
  | contributorReductionRoutine (p : Packet)
  /-- INSTALLED_ROUTINE: R479 Clasp runs an installed routine body as a one-lane system strand on a copy of the line. -/
  | installedRoutine (p : Packet)
  /-- FABRIC_STORE_REQUEST: R189 A store from another device, executed at most once at its home. -/
  | fabricStoreRequest (r : FabReq)
  /-- TILE_TRANSACTION: R178 A remote tile transaction performed atomically once all its beats arrive. -/
  | tileTransaction (r : FabReq)
  /-- UALINK_STANDARD_REQUEST: R463 A standard UALink read or write is performed as a plain system-scope access; a standard atomic is refused. -/
  | ualinkStandardRequest (r : FabReq)
  /-- FABRIC_ACKNOWLEDGE: R189 The source's acknowledgement frees the home's reply cache entry. -/
  | fabricAcknowledge (src stn : Nat) (seq : HomeSeq)
  /-- FABRIC_RETRANSMIT: R189 50 µs without a reply makes the source retransmit, at most 7 times. -/
  | fabricRetransmit (id : Nat)
  /-- FABRIC_REQUEST_TIMEOUT: R189 No reply 400 µs after the first send gives the lane poison 0x3B. -/
  | fabricRequestTimeout (id : Nat)
  /-- TILE_LOCK_TIMEOUT: R180 A home lock not granted within 100 µs poisons the tile with cause 0x3D. -/
  | tileLockTimeout (t : TileOp)
  /-- REPLY_LAND: R71 A reply lands in its return slot in the image, whatever the strand's state. -/
  | replyLand (r : Reply)
  /-- BARRIER_OBJECT_ARRIVE: R182 An arrival is performed at the object's home. -/
  | barrierObjectArrive (a : Arrival)
  /-- ENGINE_COMPLETE: R354 An engine command finishes its writes and performs Complete on its object. -/
  | engineComplete (c : Cmd)
  /-- COLLECTIVE_COMBINE: R356 One element combination is performed at the element's home. -/
  | collectiveCombine (op : BitVec 3) (p : Place) (esize : Nat) (sv : MWord)
  /-- MATRIX_PASS_COMPLETE: R318 A matrix pass's rows land in their tile. -/
  | matrixPassComplete (m : MatPass)
  /-- TILE_FILL_COMPLETE: R163 A filling tile entry returns to ready when its last byte is written. -/
  | tileFillComplete (t : TileOp)
  /-- TILE_DRAIN_COMPLETE: R163 A draining tile entry returns to ready when its last byte is read. -/
  | tileDrainComplete (t : TileOp)
  /-- MONITOR_MATCH: R191 A write at the home satisfies a condition monitor, which frees it and reschedules the waiter. -/
  | monitorMatch (m : Monitor)
  /-- DEADLINE_FIRE: R80 The deadline timer fires: it sets DLF, clears $deadline and ends the wait with a timeout. -/
  | deadlineFire (sid : Nat)
  /-- COMMIT_PARK_END: R144 STATE 3 ends a commit park, and the region replays at the strand's next issue. -/
  | commitParkEnd (sid : Nat)
  /-- HELD_TRAP_TAKEN: R150 Once the other lanes exit or wait, the held trap goes to the handler or to containment. -/
  | heldTrapTaken (sid : Nat)
  /-- FETCH_TRAP: R371 A faulting fetch line makes a precise trap, parking the fragment at the PC and posting to the fault queue. -/
  | fetchTrap (sid frag : Nat) (cause : BitVec 8)
  /-- INSTRUCTION_CACHE_FILL: R369 A 256-byte instruction cache line fill completes. -/
  | instructionCacheFill (core ctx : Nat) (va : Dword)
  /-- STARVATION_PROMOTE: R46 A fragment ready for 64 cycles is served before all others. -/
  | starvationPromote (sid frag : Nat)
  /-- STRAND_RETIRE: R63 A strand whose lanes have exited retires once its replies, commands and locket entries finish. -/
  | strandRetire (sid : Nat)
  /-- GRID_COMPLETE: R358 A grid's completion writes its completion record, then adds to DONE. -/
  | gridComplete (gid : Nat)
  /-- SLOT_TAKEBACK: R51 A strand in an evictable wait gives up its slot to a readmission or a class-0 block. -/
  | slotTakeback (sid : Nat)
  /-- STRAND_READMIT: R51 A strand whose wait ended is readmitted on its core. -/
  | strandReadmit (sid : Nat)
  /-- LAUNCH_QUEUE_HANDOFF: R372 The oldest core queue record moves to the pool, or to the overflow area, after 150 cycles. -/
  | launchQueueHandoff (core : Nat)
  /-- OVERFLOW_MOVE: R412 Firmware moves an overflow record back into the pool when room frees. -/
  | overflowMove
  /-- POST_WINDOW_WRITE: R406 A full 128-byte write to a post window appends a packet. -/
  | postWindowWrite (q : Nat) (host : Bool) (dev : Nat) (data : List Dword)
  /-- LAUNCH_PACKET_ACCEPT: R409 The dispatcher accepts a launch packet, journals it and validates it. -/
  | launchPacketAccept (q : Nat)
  /-- CANCEL_PACKET: R407 An accepted cancel packet acts as CANCEL. -/
  | cancelPacket (q : Nat)
  /-- CANCEL_TERM_PACKET: R407 An accepted cancel packet of KIND 3 acts as CANCEL with .TERM. -/
  | cancelTermPacket (q : Nat)
  /-- NBHD_OFFER: R419 The device dispatcher offers a free cluster the next neighbourhood. -/
  | nbhdOffer (clu gid : Nat)
  /-- NBHD_PLACE: R54 The cluster dispatcher places a neighbourhood on the first fitting rectangle. -/
  | nbhdPlace (clu : Nat)
  /-- OFFER_TIMEOUT: R421 A neighbourhood not placed within 64 cycles returns to the pool. -/
  | offerTimeout (clu : Nat)
  /-- CSTORE_APPLY: R386 A pending store division takes effect once no block is resident. -/
  | cstoreApply (core : Nat)
  /-- TT_LAUNCH: R438 At TTIME a timed record launches the record at TREC. -/
  | ttLaunch (n : Nat)
  /-- TT_PREEMPT: R438 At TTIME a timed record switches TCTX out. -/
  | ttPreempt (n : Nat)
  /-- TT_RESUME: R438 At TTIME a timed record switches TCTX in. -/
  | ttResume (n : Nat)
  /-- TT_DELAY_EXPIRY: R438 A delayed action is performed when OCTX empties or TTIME + TLIM passes. -/
  | ttDelayExpiry (n : Nat)
  /-- GANG_BOUNDARY_MARKER: R439 A gang boundary marker arrives on a station. -/
  | gangBoundaryMarker (gid ttime dev stn : Nat)
  /-- MARKER_TIMEOUT: R441 No marker from a member by TTIME + 50 µs logs 0x56 for it. -/
  | markerTimeout (gid ttime dev : Nat)
  /-- AGREEMENT_CHECK: R442 At TTIME − 20 µs a member with a poor time bound logs 0x57 and requests agreement. -/
  | agreementCheck (gid ttime : Nat)
  /-- AGREEMENT_REQUEST: R442 A Halo agreement request reaches the leader. -/
  | agreementRequest (gid ttime dev : Nat)
  /-- SWITCH_PACKET: R442 The leader's switch packet makes a requesting member act. -/
  | switchPacket (gid ttime : Nat)
  /-- AGREEMENT_TIMEOUT: R442 A requester with no switch packet by TTIME + 100 µs acts and reports itself. -/
  | agreementTimeout (gid ttime : Nat)
  /-- STRAGGLER_REPORT: R441 A Halo straggler report is logged as 0x56 and journalled. -/
  | stragglerReport (gid ttime dev lateness : Nat)
  /-- POD_LAUNCH_RECORD: R426 A member validates and journals a pod launch record and replies accept or reject. -/
  | podLaunchRecord (src ctx : Nat) (r : List Dword)
  /-- ACCEPT: R426 A member's accept reaches the zenith. -/
  | accept (src ctx : Nat) (grid : Dword)
  /-- REJECT: R426 A member's reject makes the zenith drop the grid. -/
  | reject (src ctx : Nat) (grid : Dword)
  /-- GO: R426 Go puts the member's range into its pool. -/
  | go (src ctx : Nat) (grid : Dword)
  /-- DROP: R426 Drop discards a held pod record. -/
  | drop (src ctx : Nat) (grid : Dword)
  /-- ZENITH_REPLY_TIMEOUT: R426 A member reply missing after 100 µs makes the zenith send drop. -/
  | zenithReplyTimeout (ctx : Nat) (grid : Dword)
  /-- COMPLETION_REPORT: R427 A member's report reaches the zenith, which completes the grid when all have reported. -/
  | completionReport (src ctx : Nat) (grid : Dword) (r : Report)
  /-- HALO_CANCEL: R428 A Halo cancel applies CANCEL to the member's range. -/
  | haloCancel (src ctx : Nat) (grid : Dword) (term : Bool)
  /-- CANCEL_MEMBER_TIMEOUT: R428 A member unreported 10 ms after a cancel counts as having run nothing. -/
  | cancelMemberTimeout (ctx : Nat) (grid : Dword) (dev : Nat)
  /-- HALO_MESSAGE_RECEIVE: R466 A Halo copy is accepted, held or discarded by its sequence distance. -/
  | haloMessageReceive (src v : Nat) (good : Bool) (msg : HaloMsg)
  /-- HALO_RETRANSMIT: R466 Both copies of an unacknowledged Halo message are resent after 50 µs, at most 7 times. -/
  | haloRetransmit (dst v : Nat)
  /-- STATION_DOWN: R465 A station fails and its traffic is retransmitted on station s XOR 8. -/
  | stationDown (stn : Nat)
  /-- PTP_EVENT_MESSAGE: R470 A timestamped PTP message adjusts pod time by a step or by slewing. -/
  | ptpEventMessage (m : PtpMsg)
  /-- TIME_INPUT_LOSS: R471 Loss of an enabled 1 PPS or 10 MHz input. -/
  | timeInputLoss (pps : Bool)
  /-- HOST_SNOOP: R401 A host snoop is answered within 4 µs. -/
  | hostSnoop (line : Nat)
  /-- HOST_MEMORY_ACCESS: R401 A CXL.mem access to device memory is performed at the line's home at system scope. -/
  | hostMemoryAccess (pa : Nat) (op : HostOp)
  /-- HOST_BAR_ACCESS: R468 A host BAR0 or BAR2 access acts as PLD or PST. -/
  | hostBarAccess (bar off : Nat) (op : HostOp)
  /-- FIRMWARE_RELOAD: R469 The host reloads firmware through BAR4. -/
  | firmwareReload
  /-- FIRMWARE_FAULT: R469 A firmware fault is logged with 0x5E, and firmware functions stop. -/
  | firmwareFault
  /-- EVICTION_NOTICE: R395 A cache's eviction notice reaches the home, which updates the directory. -/
  | evictionNotice (cache line : Nat) (dirty : Bool)
  /-- COHERENCE_REQUEST: R396 A cache request reaches the home and is served in arrival order. -/
  | coherenceRequest (cache line : Nat) (req : CohReq)
  /-- HOME_PROBE: R396 A cache answers a home probe. -/
  | homeProbe (cache line : Nat) (inval : Bool)
  /-- DIRECTORY_RECALL: R395 The home recalls a region's copies for lack of room. -/
  | directoryRecall (region : Nat)
  /-- REGION_MERGE: R397 Equal sibling units idle for 2^20 cycles merge. -/
  | regionMerge (base size : Nat)
  /-- DIE_RESET: R399 Before a die reset or power gate, the die writes back and recalls its lines. -/
  | dieReset (die : Nat)
  /-- DEBUG_RIGHT_REVOCATION: R458 When the debug right ends, halted strands are released, logged and journalled. -/
  | debugRightRevocation (ctx : Nat)
  /-- SHADOW_SAMPLE: R455 A write of SHADDR starts a sample of an image doubleword. -/
  | shadowSample (who : Agent) (v : Dword)
  /-- SHADOW_SAMPLE_DONE: R455 The sample completes and sets DONE. -/
  | shadowSampleDone
  /-- FQ_BUFFER_POST: R391 A hub-buffered fault queue entry is posted when queue space frees. -/
  | fqBufferPost
  /-- FQHEAD_WRITE: R392 A write of FQHEAD, indivisible against FQPOP. -/
  | fqheadWrite (who : Agent) (v : Dword)
  /-- CRTAB_WRITE: R479 A CRTAB write discards every clasp's cached routine entries. -/
  | crtabWrite (who : Agent) (v : Dword)
  /-- FACTB_WRITE: R410 A FACTB write makes access-control table changes take effect. -/
  | factbWrite (who : Agent) (v : Dword)
  /-- CSTORE_WRITE: R386 A store division is written or refused, and PEND is set. -/
  | cstoreWrite (who : Agent) (core : Nat) (v : Dword)
  /-- CRESV_WRITE: R415 A class-0 core reservation is written or refused. -/
  | cresvWrite (who : Agent) (core : Nat) (v : Dword)
  /-- DEVICE_PARTITION_WRITE: R403 A DPCORE, DPMEM, DPQUE or DPSTAT write is applied or refused. -/
  | devicePartitionWrite (who : Agent) (i : Nat) (v : Dword)
  /-- LQCFG_WRITE: R408 A queue configuration write is applied or refused. -/
  | lqcfgWrite (who : Agent) (q : Nat) (v : Dword)
  /-- JOURNAL_CONTROL_WRITE: R450 A write of JBASE, JACK or JSTAT, with JBASE refused while JEN is 1. -/
  | journalControlWrite (who : Agent) (i : Nat) (v : Dword)
  /-- ERROR_LOG_CONTROL_WRITE: R448 A write of ELBASE or ELHEAD, with ELBASE refused while the ring is not empty. -/
  | errorLogControlWrite (who : Agent) (i : Nat) (v : Dword)
  /-- OVERFLOW_CONFIG_WRITE: R413 A LOVB or LOVCFG write, refused while HELD is not 0. -/
  | overflowConfigWrite (who : Agent) (i : Nat) (v : Dword)
  /-- TSRC_WRITE: R471 A time source configuration write, refused for GM without PPSEN. -/
  | tsrcWrite (who : Agent) (v : Dword)
  /-- PROFILE_CONFIG_WRITE: R459 A PRFCFG or PRFBASE write, refusing bad shifts. -/
  | profileConfigWrite (who : Agent) (core i : Nat) (v : Dword)
  /-- REGISTER_WRITE: R382 A write of any other system register under its Kind column. -/
  | registerWrite (who : Agent) (r : RegId) (v : Dword)
  /-- RC_REGISTER_READ: R5 A read of an RC field returns it and clears it indivisibly. -/
  | rcRegisterRead (who : Agent) (r : RegId)
  /-- POWER_ON_RESET: R472 Power-on or device reset enters stage 0, then stage 1. -/
  | powerOnReset
  /-- FIRMWARE_STAGE_DONE: R472 Firmware running and the host link up moves to warming. -/
  | firmwareStageDone
  /-- WARMING_DONE: R472 COLD reaching −20 °C moves to memory training. -/
  | warmingDone (cold : BitVec 8)
  /-- MEMORY_TRAINING_DONE: R472 Every channel passing moves to link training and offers memory over CXL.mem. -/
  | memoryTrainingDone
  /-- LINKS_DONE: R472 Stations trained and time locked brings the device to ready. -/
  | linksDone
  /-- CHANNEL_RETRAIN: R474 Retraining falls due by temperature or time, and a spare stands in for the channel. -/
  | channelRetrain (stack ch : Nat)
  /-- CHANNEL_RETIRE: R474 A channel failing after both spares are bound is retired and logged. -/
  | channelRetire (stack ch : Nat)
  /-- MARGIN_STRETCH: R473 A timing-margin monitor stretches the next clock edge. -/
  | marginStretch (core : Nat)
  /-- GOVERNOR_ADJUST: R473 The governor sets the average clock and the supply. -/
  | governorAdjust (mhz mv : Nat)
  /-- EMERGENCY_STOP: R475 Overtemperature or a supply fault contains every strand and stops the device. -/
  | emergencyStop
  /-- ERROR_DOMAIN_CLOSE: R405 An unconfinable uncorrectable error closes a partition's domain and contains its strands. -/
  | errorDomainClose (part : Nat)
  /-- HALO_ACKNOWLEDGEMENT: R466 A destination's acknowledgement of a Halo message reaches the sender, which stops retransmitting it and may send a further message that was waiting. -/
  | haloAcknowledgement (src v : Nat)
  /-- CHANNEL_RETRAINING_DONE: R474 A channel's live retraining ends, and the channel either returns with its contents filled back or is replaced by the spare for good. -/
  | channelRetrainingDone (stack : Nat) (passed : Bool)
  /-- PPS_INPUT_PULSE: R471 A pulse on the hub's 1 PPS input disciplines pod time when PPSEN is set. -/
  | ppsInputPulse (second : Nat)
  /-- STATION_RESTORED: R465 A fabric station that was down comes back into service, ending the fall in fabric bandwidth and the hand-off of its traffic to station s XOR 8. -/
  | stationRestored (stn : Nat)
  deriving DecidableEq, Repr, Inhabited

end Sys2Proof
end

