-- ==== Sys2Proof/Machine/Legal.lean ====
section
/-! DEFINITION. Which instructions are legal: the static check of every constructor (R211, R214 step 4). An event has
no words, so nothing of it can be illegal. -/
namespace Sys2Proof.Machine

/-- The opcodes R212 allocates, group by group. -/
def Check.allocated (op : Nat) : Bool :=
  (1 ≤ op && op ≤ 0x14) || (0x40 ≤ op && op ≤ 0x4F) || (0x80 ≤ op && op ≤ 0x93) || (0xC0 ≤ op && op ≤ 0xCB)
    || (0x100 ≤ op && op ≤ 0x113) || (0x140 ≤ op && op ≤ 0x149) || (0x180 ≤ op && op ≤ 0x18B)
    || (0x1C0 ≤ op && op ≤ 0x1CC) || (0x200 ≤ op && op ≤ 0x203) || (0x240 ≤ op && op ≤ 0x24A)
    || (0x280 ≤ op && op ≤ 0x289) || (0x2C0 ≤ op && op ≤ 0x2CB) || (0x300 ≤ op && op ≤ 0x307)
    || (0x310 ≤ op && op ≤ 0x315) || (0x340 ≤ op && op ≤ 0x34D)

/-- Bits 9..0 of W0 (R199). -/
def Check.opcode (w0 : Word) : Nat := (w0.extractLsb' 0 10).toNat

/-- Group 0xE (R213). -/
def Check.isHint (w0 : Word) : Bool := (w0.extractLsb' 6 4) == 0xE

/-- An opcode that no form has: R212 does not allocate it and it is not of group 0xE. -/
def Check.isIllegal (w0 : Word) : Bool := !Check.isHint w0 && !Check.allocated (Check.opcode w0)

/-- The static check of an instruction. -/
def legal (i : Instr) : Bool :=
  match i with
  | .nop h b => Check.ctlNone h b
  | .bra h b => Check.bra h b
  | .brc h b => Check.brc h b
  | .brany h b => Check.brany h b
  | .brall h b => Check.brany h b
  | .loopOp h b => Check.loop h b
  | .jtab h b => Check.jtab h b
  | .call h b => Check.call h b
  | .callInd h b => Check.callInd h b
  | .callt h b => Check.callt h b
  | .ret h b => Check.ret h b
  | .pad h b => Check.pad h b
  | .brx h b => Check.brx h b
  | .exit h b => Check.ctlNone h b
  | .yield h b => Check.ctlNone h b
  | .prefI h b => Check.prefI h b
  | .icinv h b => Check.icinv h b
  | .icinvAll h b => Check.icinvAll h b
  | .fbar h b => Check.ctlNone h b
  | .trap h b => Check.trap h b
  | .bkpt h b => Check.trap h b
  | .getpc h b => Check.getpc h b
  | .iadd h b => Check.int true true .x .x .none .x h b
  | .isub h b => Check.int true true .x .x .none .x h b
  | .imul h b => Check.int true true .x .x .none .x h b
  | .imulh h b => Check.int true false .x .x .none .x h b
  | .imad h b => Check.int true true .x .x .x .x h b
  | .imin h b => Check.int true false .x .x .none .x h b
  | .imax h b => Check.int true false .x .x .none .x h b
  | .iabs h b => Check.int false true .x .none .none .x h b
  | .idiv h b => Check.int true true .x .x .none .x h b
  | .irem h b => Check.int true false .x .x .none .x h b
  | .icmp h b => Check.icmp h b
  | .isel h b => Check.isel h b
  | .lea h b => Check.lea h b
  | .mov h b => Check.mov h b
  | .iadd3 h b => Check.int true true .x .x .x .x h b
  | .iclamp h b => Check.int true false .x .x .x .x h b
  | .andOp h b => Check.bit 0b1 Check.all4 .x .x .none .x h b
  | .orOp h b => Check.bit 0b1 Check.all4 .x .x .none .x h b
  | .xorOp h b => Check.bit 0b1 Check.all4 .x .x .none .x h b
  | .andn h b => Check.bit 0b1 Check.all4 .x .x .none .x h b
  | .notOp h b => Check.bit 0b1 Check.vvss .x .none .none .x h b
  | .logt h b => Check.logt h b
  | .shl h b => Check.bit 0b1 Check.all4 .x .w .none .x h b
  | .shr h b => Check.bit 0b1 Check.all4 .x .w .none .x h b
  | .sar h b => Check.bit 0b1 Check.all4 .x .w .none .x h b
  | .rot h b => Check.bit 0b1 Check.all4 .x .w .none .x h b
  | .dsh h b => Check.bit 0b101 Check.all4 .x .w .x .x h b
  | .popc h b => Check.bit 0b1 Check.vvss .x .none .none .x h b
  | .clz h b => Check.bit 0b1 Check.vvss .x .none .none .x h b
  | .ctz h b => Check.bit 0b1 Check.vvss .x .none .none .x h b
  | .brev h b => Check.bit 0b1 Check.vvss .x .none .none .x h b
  | .bswap h b => Check.bit 0b1 Check.vvss .x .none .none .x h b
  | .fxt h b => Check.bit 0b11 Check.all4 .x .w .none .x h b
  | .fins h b => Check.bit 0b1 Check.all4 .x .w .x .x h b
  | .bysel h b => Check.bit 0b0 Check.all4 .w .w .w .w h b
  | .plogt h b => Check.plogt h b
  | .shfl h b => Check.shfl h b
  | .shflq h b => Check.shfl h b
  | .vote h b => Check.vote h b
  | .matchOp h b => Check.matchLanes h b
  | .prefixOp h b => Check.scan true h b
  | .redux h b => Check.scan false h b
  | .bcast h b => Check.bcast h b
  | .solo h b => Check.solo h b
  | .mget h b => Check.mget h b
  | .p2s h b => Check.p2s h b
  | .s2p h b => Check.s2p h b
  | .pcnt h b => Check.pcnt h b
  | .fadd h b => Check.flt Check.isFloat Check.all4 true true 0 .w .w .none .w h b
  | .fsub h b => Check.flt Check.isFloat Check.all4 true true 0 .w .w .none .w h b
  | .fmul h b => Check.flt Check.isFloat Check.all4 true true 0 .w .w .none .w h b
  | .ffma h b => Check.flt Check.isFloat Check.all4 true true 0 .w .w .w .w h b
  | .fmin h b => Check.flt Check.isFloat Check.all4 false false 0 .w .w .none .w h b
  | .fmax h b => Check.flt Check.isFloat Check.all4 false false 0 .w .w .none .w h b
  | .fabs h b => Check.flt Check.isFloat Check.vvss false false 0 .w .none .none .w h b
  | .fneg h b => Check.flt Check.isFloat Check.vvss false false 0 .w .none .none .w h b
  | .fcpys h b => Check.flt Check.isFloat Check.all4 false false 0 .w .w .none .w h b
  | .fcmp h b => Check.fcmp h b
  | .fclass h b => Check.flt Check.isFloat Check.vvss false false 0 .w .none .none .w h b
  | .frnd h b => Check.flt Check.isFloat Check.vvss true false 0 .w .none .none .w h b
  | .fdiv h b => Check.flt Check.isFloat Check.all4 true true 0 .w .w .none .w h b
  | .fsqrt h b => Check.flt Check.isFloat Check.vvss true false 0 .w .none .none .w h b
  | .fscale h b => Check.fscale h b
  | .hadd2 h b => Check.flt Check.isHalf Check.all4 true true 0 .w .w .none .w h b
  | .hmul2 h b => Check.flt Check.isHalf Check.all4 true true 0 .w .w .none .w h b
  | .hfma2 h b => Check.flt Check.isHalf Check.all4 true true 0 .w .w .w .w h b
  | .hmin2 h b => Check.flt Check.isHalf Check.all4 false false 0 .w .w .none .w h b
  | .hmax2 h b => Check.flt Check.isHalf Check.all4 false false 0 .w .w .none .w h b
  | .frcp h b => Check.flt Check.isFloat Check.vvss false false 0 .w .none .none .w h b
  | .frsq h b => Check.flt Check.isFloat Check.vvss false false 0 .w .none .none .w h b
  | .fexp2 h b => Check.flt Check.isFloat Check.vvss false false 0 .w .none .none .w h b
  | .flog2 h b => Check.flt Check.isFloat Check.vvss false false 0 .w .none .none .w h b
  | .fsin h b => Check.flt Check.isFloat Check.vvss false false 0 .w .none .none .w h b
  | .fcos h b => Check.flt Check.isFloat Check.vvss false false 0 .w .none .none .w h b
  | .ftanh h b => Check.flt Check.isFloat Check.vvss false false 0 .w .none .none .w h b
  | .fdot4 h b => Check.fdot4 h b
  | .idot4 h b => Check.idot4 h b
  | .hdot2 h b => Check.hdot2 h b
  | .cvt h b => Check.cvt h b
  | .cvtp h b => Check.cvtp h b
  | .cvts h b => Check.cvts h b
  | .qnt h b => Check.qnt h b
  | .qnts h b => Check.qnts h b
  | .dqnt h b => Check.dqnt h b
  | .latq h b => Check.latq h b
  | .pack h b => Check.pack h b
  | .unpack h b => Check.unpack h b
  | .t5pk h b => Check.t5pk h b
  | .t5up h b => Check.t5up h b
  | .bmax h b => Check.bmax h b
  | .mlatch h b => Check.mlatchReg h b
  | .mlatchScratchpad h b => Check.mlatchSp h b
  | .mmq h b => Check.mmqReg h b
  | .mmqScratchpad h b => Check.mmqSp h b
  | .maccZ h b => Check.maccZ h b
  | .maccZAll h b => Check.maccZAll h b
  | .maccLd h b => Check.maccLd h b
  | .maccSt h b => Check.maccSt h b
  | .maccCp h b => Check.maccCp 0 h b
  | .maccCpAdd h b => Check.maccCp 1 h b
  | .maccScl h b => Check.maccScl h b
  | .mtbl h b => Check.stage Check.isVecPair h b
  | .mscl h b => Check.stage Check.isVec h b
  | .mscla h b => Check.stage Check.isSc h b
  | .mrel h b => Check.mrel h b
  | .mwait h b => Check.mwait h b
  | .mstat h b => Check.mstat h b
  | .ld h b => Check.ld h b
  | .ldu h b => Check.ldu h b
  | .lds h b => Check.lds h b
  | .ldv h b => Check.ldv h b
  | .prefD h b => Check.prefD h b
  | .probe h b => Check.probe h b
  | .st h b => Check.st h b
  | .sts h b => Check.sts h b
  | .stv h b => Check.stv h b
  | .stz h b => Check.stz h b
  | .stzLine h b => Check.stzLine h b
  | .tdef h b => Check.tdef h b
  | .tld h b => Check.tld h b
  | .tstr h b => Check.tstr h b
  | .trel h b => Check.trel h b
  | .tqry h b => Check.tqry h b
  | .cwb h b => Check.cacheOp h b
  | .cflush h b => Check.cacheOp h b
  | .cinv h b => Check.cacheOp h b
  | .atom h b => Check.atom 0 false h b
  | .atoms h b => Check.atom 2 true h b
  | .red h b => Check.red 0 false h b
  | .reds h b => Check.red 2 true h b
  | .cas h b => Check.cas 0 false h b
  | .cass h b => Check.cas 2 true h b
  | .cas2 h b => Check.fixed 0x18 h b
  | .cas4 h b => Check.cas4 h b
  | .enq h b => Check.fixed 0x1A h b
  | .chase h b => Check.fixed 0x1B h b
  | .cred h b => Check.fixed 0x1C h b
  | .opk h b => Check.opk 0 false h b
  | .opkScalar h b => Check.opk 2 true h b
  | .opkx h b => Check.opkx 0 false h b
  | .opkxScalar h b => Check.opkx 2 true h b
  | .barArr h b => Check.bar h b
  | .barWait h b => Check.bar h b
  | .barSync h b => Check.bar h b
  | .objArr h b => Check.objArr h b
  | .objWait h b => Check.objWait 0 h b
  | .objWaitEv h b => Check.objWait 1 h b
  | .waitc h b => Check.waitc h b
  | .signal h b => Check.signal h b
  | .fence h b => Check.fence h b
  | .rgnOpen h b => Check.rgnOpen h b
  | .commit h b => Check.commit h b
  | .commitPark h b => Check.commitPark h b
  | .commitR h b => Check.commit h b
  | .commitRPark h b => Check.commitPark h b
  | .rgnDrop h b => Check.ctlNone h b
  | .acopy h b => Check.acopy h b
  | .agath h b => Check.agath h b
  | .ascat h b => Check.agath h b
  | .acoll h b => Check.acoll h b
  | .afill h b => Check.afill h b
  | .acopyt h b => Check.acopyt h b
  | .apref h b => Check.apref h b
  | .aqry h b => Check.aqry h b
  | .lnch h b => Check.lnch h b
  | .lnchPod h b => Check.lnch h b
  | .join h b => Check.join h b
  | .cancel h b => Check.cancel 0 h b
  | .cancelTerm h b => Check.cancel 1 h b
  | .lrec h b => Check.lnch h b
  | .lstat h b => Check.lstat h b
  | .srd h b => Check.sys 0 true true false false [0] h b
  | .swr h b => Check.sys 0 false true true false [0] h b
  | .tbinv h b => Check.sys 0 false false true true (Check.scopeVar [0, 1, 2]) h b
  | .tbsync h b => Check.sys 0 false false false false (Check.scopeVar [0]) h b
  | .ctxswOut h b => Check.sys 0 true false true false [0] h b
  | .ctxswIn h b => Check.sys 1 true false true false [0] h b
  | .shalt h b => Check.sys 0 true false true true [0] h b
  | .sresm h b => Check.sys 0 false false true true [0] h b
  | .sresmFetch h b => Check.sys 0 false false true true [1] h b
  | .sresmKill h b => Check.sys 0 false false true true [2] h b
  | .ievict h b => Check.sys 0 false false true true [0] h b
  | .pld h b => Check.sys 0 true false true false [0, 1] h b
  | .pst h b => Check.sys 0 false false true true [0, 1] h b
  | .convhcHc h b => Check.sys 0 true false true true [0] h b
  | .convhcSm h b => Check.sys 1 true false true true [0] h b
  | .fqpop h b => Check.sys 0 true false true false [0] h b
  | .ttload h b => Check.sys 0 true false true true [0] h b
  | .cwball h b => Check.sys 0 false false false false (Check.scopeVar [0]) h b
  | .cwballInv h b => Check.sys 1 false false false false (Check.scopeVar [0]) h b
  | .hint w => Check.isHint w.w0
  | .illegalInstruction w => Check.isIllegal w.w0
  | .addRoutine _ => true
  | .signedMinRoutine _ => true
  | .signedMaxRoutine _ => true
  | .unsignedMinRoutine _ => true
  | .unsignedMaxRoutine _ => true
  | .andRoutine _ => true
  | .orRoutine _ => true
  | .xorRoutine _ => true
  | .swapRoutine _ => true
  | .casRoutine _ => true
  | .f32AddRoutine _ => true
  | .f16PairAddRoutine _ => true
  | .b16PairAddRoutine _ => true
  | .twoWordCasRoutine _ => true
  | .fourWordCasRoutine _ => true
  | .listEnqueueRoutine _ => true
  | .pointerChaseRoutine _ => true
  | .contributorReductionRoutine _ => true
  | .installedRoutine _ => true
  | .fabricStoreRequest _ => true
  | .tileTransaction _ => true
  | .ualinkStandardRequest _ => true
  | .fabricAcknowledge _ _ _ => true
  | .fabricRetransmit _ => true
  | .fabricRequestTimeout _ => true
  | .tileLockTimeout _ => true
  | .replyLand _ => true
  | .barrierObjectArrive _ => true
  | .engineComplete _ => true
  | .collectiveCombine _ _ _ _ => true
  | .matrixPassComplete _ => true
  | .tileFillComplete _ => true
  | .tileDrainComplete _ => true
  | .monitorMatch _ => true
  | .deadlineFire _ => true
  | .commitParkEnd _ => true
  | .heldTrapTaken _ => true
  | .fetchTrap _ _ _ => true
  | .instructionCacheFill _ _ _ => true
  | .starvationPromote _ _ => true
  | .strandRetire _ => true
  | .gridComplete _ => true
  | .slotTakeback _ => true
  | .strandReadmit _ => true
  | .launchQueueHandoff _ => true
  | .overflowMove => true
  | .postWindowWrite _ _ _ _ => true
  | .launchPacketAccept _ => true
  | .cancelPacket _ => true
  | .cancelTermPacket _ => true
  | .nbhdOffer _ _ => true
  | .nbhdPlace _ => true
  | .offerTimeout _ => true
  | .cstoreApply _ => true
  | .ttLaunch _ => true
  | .ttPreempt _ => true
  | .ttResume _ => true
  | .ttDelayExpiry _ => true
  | .gangBoundaryMarker _ _ _ _ => true
  | .markerTimeout _ _ _ => true
  | .agreementCheck _ _ => true
  | .agreementRequest _ _ _ => true
  | .switchPacket _ _ => true
  | .agreementTimeout _ _ => true
  | .stragglerReport _ _ _ _ => true
  | .podLaunchRecord _ _ _ => true
  | .accept _ _ _ => true
  | .reject _ _ _ => true
  | .go _ _ _ => true
  | .drop _ _ _ => true
  | .zenithReplyTimeout _ _ => true
  | .completionReport _ _ _ _ => true
  | .haloCancel _ _ _ _ => true
  | .cancelMemberTimeout _ _ _ => true
  | .haloMessageReceive _ _ _ _ => true
  | .haloRetransmit _ _ => true
  | .stationDown _ => true
  | .ptpEventMessage _ => true
  | .timeInputLoss _ => true
  | .hostSnoop _ => true
  | .hostMemoryAccess _ _ => true
  | .hostBarAccess _ _ _ => true
  | .firmwareReload => true
  | .firmwareFault => true
  | .evictionNotice _ _ _ => true
  | .coherenceRequest _ _ _ => true
  | .homeProbe _ _ _ => true
  | .directoryRecall _ => true
  | .regionMerge _ _ => true
  | .dieReset _ => true
  | .debugRightRevocation _ => true
  | .shadowSample _ _ => true
  | .shadowSampleDone => true
  | .fqBufferPost => true
  | .fqheadWrite _ _ => true
  | .crtabWrite _ _ => true
  | .factbWrite _ _ => true
  | .cstoreWrite _ _ _ => true
  | .cresvWrite _ _ _ => true
  | .devicePartitionWrite _ _ _ => true
  | .lqcfgWrite _ _ _ => true
  | .journalControlWrite _ _ _ => true
  | .errorLogControlWrite _ _ _ => true
  | .overflowConfigWrite _ _ _ => true
  | .tsrcWrite _ _ => true
  | .profileConfigWrite _ _ _ _ => true
  | .registerWrite _ _ _ => true
  | .rcRegisterRead _ _ => true
  | .powerOnReset => true
  | .firmwareStageDone => true
  | .warmingDone _ => true
  | .memoryTrainingDone => true
  | .linksDone => true
  | .channelRetrain _ _ => true
  | .channelRetire _ _ => true
  | .marginStretch _ => true
  | .governorAdjust _ _ => true
  | .emergencyStop => true
  | .errorDomainClose _ => true
  | .haloAcknowledgement _ _ => true
  | .channelRetrainingDone _ _ => true
  | .ppsInputPulse _ => true
  | .stationRestored _ => true

end Sys2Proof.Machine
end

