-- ==== Sys2Proof/WellFormed.lean ====
section
/-! DEFINITION. Well-formed instructions: those whose words hold no reserved field, no reserved value and no operand
their entry does not admit (R211). The checks themselves are in Machine/Checks.lean. -/
namespace Sys2Proof

/-- The instruction passes its static check; one that does not is a control trap with cause 0x41. -/
def WellFormed (i : Instr) : Prop := Machine.legal i = true

end Sys2Proof
end

