-- ==== Sys2Proof/Machine/State.lean ====
section
/-! DEFINITION. The state of one device, as plain data: strands with their register images, blocks, grids, queues, memory,
caches that hold stale copies, system registers, the fabric's and Halo's records; the faults and refusals; reset. -/
namespace Sys2Proof.Machine

/-- Why the model stops. Both stops are safe: they stand where no instruction of the spec is being executed. -/
inductive Fault where
  /-- raised by `exec` of a program form when no fragment is issuing: safe; a step reaches it only where `inputs` holds such
  a form, which is not something the outside world can do -/
  | noIssuer
  /-- raised by `exec` of an event whose subject (a strand, grid, block or record) does not exist: safe; a step reaches it
  only where `inputs` holds such an event -/
  | noSubject
  deriving DecidableEq, Repr

/-- What the model gives no meaning to. -/
inductive Refusal where
  /-- raised by an arm of `exec` whose instruction has no meaning yet: safe -/
  | notModelled (mnemonic : String)
  deriving DecidableEq, Repr

/-- Byte memory in canonical form: addresses strictly rising, no byte equal to what an unlisted address reads as, and
the addresses of marked words, strictly rising (R125, R134). -/
structure Mem where
  cells : List Host.Cell
  marks : List (Nat × Unit)
  deriving DecidableEq, Repr, Inhabited

/-- A word of a register image: data, poison mark, whether the word is live (R82, R125), and whether its poison has been
consumed (R136). -/
structure ImgWord where
  data : Word
  mark : Bool
  live : Bool
  used : Bool
  deriving DecidableEq, Repr, Inhabited

/-- What a fragment waits for (R45, R60, R74). -/
inductive Wait where
  | ready
  /-- at the reconvergence address of group `g` -/
  | reconv (g : Nat)
  /-- for a phase of named barrier `n` -/
  | barrier (n : Nat)
  /-- for an object's flip, kept with the object: not evictable -/
  | obj
  /-- on a condition monitor: evictable -/
  | monitor
  /-- in a commit park: evictable -/
  | commitPark
  /-- parked on a fetch trap of this cause: evictable -/
  | fetchPark (cause : BitVec 8)
  /-- on the scoreboard: its next instruction needs a result that is still due, or must follow an access that has not been
  performed -/
  | scoreboard
  /-- for the completion of a system instruction (R381) -/
  | system
  deriving DecidableEq, Repr, Inhabited

/-- A check of a transfer's target that is still due because the target's line could not be fetched (R231 step 4): the
transferring pc, the target bit, the PAD check (0 none, 1 any PAD within budget, 2 a PAD with this label, 3 the budget if it is
a PAD, 4 the handler's entry), the lanes that transferred, and the link pair and value that a CALL writes for those that pass. -/
structure Due where
  pc : Dword
  tgt : Bool
  pad : Nat
  label : BitVec 16
  lanes : Lanes
  link : Option (Nat × Dword)
  deriving DecidableEq, Repr, Inhabited

/-- A fragment entry of the split table (R38), with what the issue machine keeps of it (R422): the cycle it last became
ready, its wait count, one more than the cycle in which the count reached 64, the cycle at which its YIELD interval ends, and the
checks still due at its pc. -/
structure Frag where
  mask : Lanes
  pc : Dword
  grp : Option Nat
  wait : Wait
  readyAt : Nat
  count : Nat
  hit64 : Nat
  yieldEnd : Nat
  due : Option Due
  deriving DecidableEq, Repr, Inhabited

/-- A group entry of the split table (R38). -/
structure Group where
  arrived : Lanes
  addr : Dword
  out : Nat
  encl : Option Nat
  deriving DecidableEq, Repr, Inhabited

/-- A split table entry. -/
inductive Entry where
  | frag (f : Frag)
  | group (g : Group)
  deriving DecidableEq, Repr, Inhabited

/-- A lane's request to memory that latency samples count once it is performed (R461): its address, and the lanes active with it. -/
structure LaneReq where
  lane : Nat
  pc : Dword
  va : Dword
  act : Lanes
  deriving DecidableEq, Repr, Inhabited

/-- A locket entry (R137): a held line, or a poison entry. Lines of one tile store carry its number; `tag` is the number of the
instruction that made the entry, and `reqs` are the requests it holds. -/
structure LkEntry where
  poison : Bool
  tok : Word
  pc : Dword
  lane : Nat
  tag : Nat
  /-- generic address of the line, and its place -/
  line : Dword
  place : Place
  bytes : List (Nat × Byte)
  marks : List (Nat × Unit)
  rel : Bool
  scope : BitVec 3
  tile : Option Nat
  /-- the tile is one row of 128 bytes (R406) -/
  row : Bool
  reqs : List LaneReq
  /-- the entry takes a slot of the context's spill area (R377) -/
  spilled : Bool
  deriving DecidableEq, Repr, Inhabited

/-- What a clasp's strand runs for (R479): the packet, the context of its code, a fault that one of its separate accesses
met, and the instructions it has issued. -/
structure ClaspRun where
  pkt : Packet
  ictx : Nat
  bad : Option (BitVec 8 × Dword)
  count : Nat
  deriving DecidableEq, Repr, Inhabited

/-- The states of a strand (R60); Pending strands have no record yet. `prev` codes the state it left: 0 Resident,
1 Waiting, 2 Slotless, 3 Halted. -/
inductive Life where
  | resident
  | slotless
  | halted (prev : Nat)
  | out (prev : Nat)
  | retired
  deriving DecidableEq, Repr, Inhabited

/-- A strand. Every register lives in `img`, keyed by word offset from $imgbase (R65). -/
structure Strand where
  ctx : Nat
  gid : Nat
  blk : Nat
  num : Nat
  /-- partition and slot held, when one is held -/
  slot : Option (Nat × Nat)
  base : Dword
  /-- physical 64 KiB frames of the image's pages, in address order; empty when the image could not be established -/
  frames : List Nat
  vRegs : Nat
  sRegs : Nat
  tiles : Nat
  img : List (Nat × ImgWord)
  splits : List (Nat × Entry)
  life : Life
  cycles : Dword
  ring : Nat
  gen : Nat
  locket : List LkEntry
  /-- for each named barrier the phase in which the strand last arrived -/
  barSeen : List (Nat × Nat)
  /-- lines held ahead of issue: line address and its sixteen words -/
  lines : List (Nat × List Word)
  /-- the deadline passed while Slotless: the wait has ended -/
  due : Bool
  /-- the strand ended in containment -/
  contained : Bool
  /-- the packet that a clasp's strand executes -/
  clasp : Option ClaspRun
  /-- pc and lanes of the strand's last EXIT, which its barrier records name (R460) -/
  exited : Dword × Lanes
  /-- image words whose result is still due, with the number of the instruction that is to write them (R45, R71, R85) -/
  pend : List (Nat × Nat)
  /-- tokens that replies to an instruction have made, by its number: lanes with one cause share one, and its record names
  the lowest (R128) -/
  shared : List (Nat × (BitVec 8 × Word × Nat))
  /-- image words whose parity is wrong; `true` where a current duplicate or a clean copy repairs it (R87) -/
  flips : List (Nat × Bool)
  /-- image lines written back and not written since, by number (R87, R384) -/
  clean : List (Nat × Unit)
  /-- predicate words with the lanes whose bits are dead (R81) -/
  deadBits : List (Nat × Word)
  /-- errors of the datapaths in the next vector result: the lanes (R153 cause 0x2F), and whether a retry corrects it -/
  vecErr : List (Lanes × Bool)
  deriving DecidableEq, Repr, Inhabited

/-- The states of a tile table entry (R163). -/
inductive TileState where
  | empty | filling | ready | draining
  deriving DecidableEq, Repr, Inhabited

structure TileEntry where
  st : TileState
  desc : Dword
  bad : Bool
  deriving DecidableEq, Repr, Inhabited

/-- A named barrier (R344): `phase` counts completed phases; its parity is the phase bit. -/
structure Barrier where
  phase : Nat
  expect : Nat
  arrived : Nat
  who : List Nat
  deriving DecidableEq, Repr, Inhabited

/-- A block: its place, its scratchpad partition, tile table, barriers and strands (R49, R50). -/
structure Block where
  gid : Nat
  nbhd : Nat
  num : Nat
  core : Nat
  spadBase : Nat
  spadBytes : Nat
  tiles : List (Nat × TileEntry)
  bars : List (Nat × Barrier)
  strands : List Nat
  out : Bool
  /-- the first unit of its save record while Out (R431) -/
  save : Dword
  /-- GRID, block index and strand count as the last save record held them, once it has been restored (R431) -/
  saved : Option (Dword × Nat × Nat)
  retired : Bool
  deriving DecidableEq, Repr, Inhabited

/-- A placed or Out neighbourhood (R421). -/
structure Nbhd where
  gid : Nat
  num : Nat
  clu : Nat
  col : Nat
  row : Nat
  blocks : List Nat
  out : Bool
  eligible : Bool
  retired : Bool
  /-- the place of an Out neighbourhood in the order of switching out (R433) -/
  order : Nat
  deriving DecidableEq, Repr, Inhabited

/-- A grid: its record as accepted and its progress. `queue` is the journal's QUEUE code (R451). -/
structure Grid where
  ctx : Nat
  rcd : List Dword
  cls : Nat
  queue : Nat
  src : Nat
  seq : Nat
  lseq : Nat
  first : Nat
  count : Nat
  next : Nat
  /-- neighbourhoods offered and not placed in time: they wait in their place in the order (R421) -/
  back : List Nat
  inPool : Bool
  dispatched : Bool
  blocksPlaced : Nat
  blocksRetired : Nat
  nbhdsRetired : Nat
  events : Nat
  firstWord : Dword
  firstTime : Nat
  causes : List (Nat × Nat)
  cancelled : Bool
  /-- a member's part of a pod grid: the zenith's device -/
  zenith : Option Nat
  done : Bool
  deriving DecidableEq, Repr, Inhabited

/-- A context switched in: the copy of its descriptor (R376). -/
structure CtxIn where
  id : Nat
  desc : List Dword
  deriving DecidableEq, Repr, Inhabited

/-- A record of the time-triggered table (R436) and its journal entry. -/
structure TtRec where
  owner : Nat
  words : List Dword
  lseq : Nat
  /-- an agreement was requested for it (R442) -/
  asked : Bool
  checked : Bool
  /-- the pod time that its lateness counts from: TTIME, or the receipt of the leader's switch packet -/
  since : Nat
  deriving DecidableEq, Repr, Inhabited

/-- A switch-out under way (R432): the blocks still to be switched out, the strands that have gone Out, the reply that tells the
issuer, and the timed action to follow, which is the switch itself where `whole` holds (R438). `back`: the context has been
switched in again meanwhile (R434). -/
structure Switching where
  ctx : Nat
  blocks : List Nat
  count : Nat
  reply : Option Reply
  next : Option TtRec
  whole : Bool
  back : Bool
  deriving DecidableEq, Repr, Inhabited

/-- A launch packet in its queue (R406). -/
structure QPacket where
  words : List Dword
  host : Bool
  dev : Nat
  at_ : Nat
  deriving DecidableEq, Repr, Inhabited

/-- A record in a core's pending-launch queue (R361). -/
structure LqRec where
  core : Nat
  ctx : Nat
  va : Dword
  rcd : List Dword
  pod : Bool
  since : Nat
  /-- cancelled before it reached the pool -/
  dropped : Bool
  deriving DecidableEq, Repr, Inhabited

/-- A translation held by a buffer: of core `unit`, or of cluster `unit - 512` (R390). -/
structure TlbEnt where
  unit : Nat
  ctx : Nat
  base : Nat
  level : Nat
  leaf : Dword
  deriving DecidableEq, Repr, Inhabited

/-- A 256-byte line of a core's instruction cache (R369), with the physical line it was filled from. -/
structure ICLine where
  core : Nat
  ctx : Nat
  va : Nat
  loc : Loc
  words : List Word
  deriving DecidableEq, Repr, Inhabited

/-- A copy of a software-managed line held in a cluster (R166, R398); `dirty` are the byte offsets written. -/
structure SmCopy where
  clu : Nat
  loc : Loc
  bytes : List (Nat × Byte)
  marks : List (Nat × Unit)
  dirty : List (Nat × Unit)
  deriving DecidableEq, Repr, Inhabited

/-- A 128-byte line of hardware-coherent memory that core `core` has written and whose L2 or memory copy may still be the old
one: `old` is what that copy held (R227). -/
structure OldLine where
  core : Nat
  loc : Loc
  old : List MWord
  deriving DecidableEq, Repr, Inhabited

/-- A word that a lane has written and no other agent has seen as written: what it held before, the writer's strand and lane
(R168, R169), and whether one 8-byte access wrote it with the other word of its doubleword (R158). -/
structure Lag where
  loc : Loc
  old : MWord
  writer : Nat × Nat
  pair : Bool
  deriving DecidableEq, Repr, Inhabited

/-- A directory entry: a cache's state of a line (R395). Caches: core k, 512 + c for cluster c's L2, 516 the host. -/
structure DirEnt where
  line : Nat
  cache : Nat
  st : Moesi
  deriving DecidableEq, Repr, Inhabited

/-- A tensor shape record in an engine's cache (R176). Engines: 2k copy, 2k + 1 gather of core k, 1024 collective. `barred`: strands
whose FENCE.REC since keeps their commands from using it. -/
structure RecCopy where
  engine : Nat
  ctx : Nat
  va : Dword
  words : List MWord
  barred : List Nat
  deriving DecidableEq, Repr, Inhabited

/-- A gang switch performed here (R439, R441). -/
structure GangAct where
  gid : Nat
  ttime : Nat
  act : TtRec
  members : List Nat
  reported : List Nat
  deriving DecidableEq, Repr, Inhabited

/-- What a strand's logical bank holds (R299): the decoded columns of the MLATCH or re-latch with this generation, and what the
columns' sources have held since: column, and what it was (R312). -/
structure Latch where
  sid : Nat
  bank : Nat
  gen : Nat
  cols : List MatLine
  past : List (Nat × ColAt)
  deriving DecidableEq, Repr, Inhabited

/-- A store for another device's memory: of a lane, of a held line or a held tile, of an engine, or of no strand. `place` is that of
its lowest line, whose station serves it; words with their places and byte enables; `row`: a tile store of one row of 128 bytes,
which alone is a packet for a post window; the requests of lanes it performs (R189, R406, R465). -/
structure RemStore where
  sid : Option Nat
  lane : Nat
  pc : Dword
  va : Dword
  tag : Nat
  origin : BitVec 8
  place : Place
  words : List (Loc × Nat × MWord)
  row : Bool
  reqs : List LaneReq
  deriving DecidableEq, Repr, Inhabited

/-- What an engine asks of a home: to combine an element, or to complete or to poison an object (R354, R356). -/
inductive HomeOp where
  | combine (op size val : Nat) (tok : Option Word)
  | complete (bytes : Nat)
  | mark (tok : Word)
  deriving DecidableEq, Repr, Inhabited

/-- An engine's operation at a home of another device, of a command of a strand. -/
structure RemOp where
  sid : Nat
  pc : Dword
  tag : Nat
  origin : BitVec 8
  va : Dword
  place : Place
  op : HomeOp
  deriving DecidableEq, Repr, Inhabited

/-- What a request sent to another device was for. -/
inductive OutFor where
  | packet (p : Packet)
  | tile (t : TileOp)
  | store (w : RemStore)
  | arrival (a : Arrival)
  | home (o : RemOp)
  deriving DecidableEq, Repr, Inhabited

/-- An outstanding fabric request of this device (R189): its number holds the destination, the station and the sequence number;
`done`: its home has performed it, and the reply is on its way; `fresh`: nothing else has been performed or read on its line
since it was sent. -/
structure OutReq where
  id : Nat
  done : Bool
  fresh : Bool
  dst : Nat
  stn : Nat
  what : OutFor
  first : Nat
  last : Nat
  tries : Nat
  deriving DecidableEq, Repr, Inhabited

/-- A reply kept in its home's reply cache until acknowledged (R189). -/
structure CachedReply where
  home : Nat
  src : Nat
  stn : Nat
  seq : Nat
  val : ReplyVal
  deriving DecidableEq, Repr, Inhabited

/-- A Halo message sent and not acknowledged (R466). -/
structure HaloSent where
  dst : Nat
  v : Nat
  msg : HaloMsg
  last : Nat
  tries : Nat
  /-- still waiting for the sender's limit -/
  waiting : Bool
  deriving DecidableEq, Repr, Inhabited

/-- A pod grid at its zenith (R426, R427). Phase: 0 waiting for replies, 1 running. -/
structure Zenith where
  ctx : Nat
  rcd : List Dword
  members : List (Nat × Nat)
  accepted : List Nat
  reports : List (Nat × Report)
  phase : Nat
  since : Nat
  cancelled : Bool
  cancelAt : Nat
  core : Nat
  lseq : Nat
  deriving DecidableEq, Repr, Inhabited

/-- A pod record held by a member between the phases (R426). -/
structure PodHeld where
  src : Nat
  ctx : Nat
  rcd : List Dword
  lseq : Nat
  /-- "go" has come, and the range waits for room in the pool -/
  gone : Bool
  deriving DecidableEq, Repr, Inhabited

/-- A post that waits for room in its queue (R406). -/
structure Post where
  q : Nat
  host : Bool
  dev : Nat
  data : List Dword
  deriving DecidableEq, Repr, Inhabited

/-- What the device sends out. -/
inductive OutMsg where
  /-- a Halo message, on the station it takes (R466) -/
  | halo (dst stn v : Nat) (msg : HaloMsg)
  | request (dst stn id : Nat) (what : OutFor)
  | reply (dst stn seq : Nat) (val : ReplyVal)
  | data (dst stn seq : Nat) (words : List MWord)
  | unsupported (dst stn seq : Nat)
  | marker (stn gid ttime dev : Nat)
  | snoop (line : Nat) (held : Bool) (words : List MWord)
  | host (words : List MWord)
  deriving DecidableEq, Repr, Inhabited

/-- Something from outside: what takes place; for a message of another device its vendor header as received, and the beats of its
payload, of 64 bytes each, that failed their check (R464). -/
structure Input where
  what : Instr
  hdr : Option (BitVec 128)
  badBeats : List Nat
  deriving DecidableEq, Repr, Inhabited

/-- A memory stack's channels (R474): the channel that serves each replaced position, and the retired positions. -/
structure StackSt where
  moved : List (Nat × Nat)
  retired : List (Nat × Unit)
  deriving DecidableEq, Repr, Inhabited

/-- The state of one device. -/
structure State where
  /-- the model's own counter: the argument of the free values -/
  tick : Nat
  /-- pod time in ns (R78), and what remains to be lost by slewing (R470) -/
  ptime : Nat
  slew : Nat
  /-- device cycles, for the issue machine and the hand-off of R372 -/
  clock : Nat
  /-- the fragment that is issuing: strand and split table index -/
  cur : Option (Nat × Nat)
  /-- the instruction tried last was not ready, and nothing of it happened (R45) -/
  notReady : Bool
  /-- what the outside world does next, oldest first -/
  inputs : List Input
  /-- writes that other devices make to their own memory, oldest first: device, address, word (R191) -/
  abroad : List (Nat × Nat × MWord)
  /-- the errors of the hardware to come, in order -/
  strikes : List Strike
  outbox : List OutMsg
  mem : Mem
  host : Mem
  remote : List (Nat × Mem)
  /-- firmware mailbox and image staging in hub SRAM (R468) -/
  bar4 : Mem
  /-- scratchpads by core, and the words of their banks that are in error, by core, row and bank (R15, R160, R162) -/
  spads : List (Nat × Mem)
  spadErr : List (Nat × Unit)
  /-- device memory as it was at the last TBSYNC of scope 5: the descriptors' debug fields are read there (R376) -/
  dbgMem : Mem
  oldLines : List OldLine
  /-- lines of retired positions that caches hold, by number: their words (R474) -/
  retLines : List (Nat × List MWord)
  /-- lines of host memory whose next completion fails (R467) -/
  hostErr : List (Nat × Unit)
  lags : List Lag
  /-- 64 KiB units that are software-managed (R394), and the copies clusters hold of software-managed lines -/
  smUnits : List (Nat × Unit)
  smCopies : List SmCopy
  dir : List DirEnt
  /-- units that a split made, other than the 64 KiB regions: base, size and the cycle of the last request (R397) -/
  dirUnits : List (Nat × Nat × Nat)
  tlb : List TlbEnt
  /-- page walks of the present step: cluster, context and page; misses to one page share one (R390) -/
  walked : List (Nat × Nat × Nat)
  icache : List ICLine
  recCache : List RecCopy
  /-- register blocks by key (`RegId.key`), entries equal to the reset value unlisted -/
  regs : List (Nat × Dword)
  /-- divisions of the unified store written and not yet applied, by core (R386) -/
  pendStore : List (Nat × Dword)
  ctxs : List CtxIn
  switching : List Switching
  /-- contexts over which the debug right has ended, with Halted strands still to be released (R458) -/
  revoked : List Nat
  queues : List (Nat × List QPacket)
  posts : List Post
  lq : List LqRec
  /-- grids accepted and not complete, by number; pool order is `pool` -/
  grids : List (Nat × Grid)
  nextGrid : Nat
  pool : List Nat
  /-- the launch overflow area (R412): the next record's place in the ring, and whose records it holds, oldest first -/
  ovfHead : Nat
  ovf : List LqRec
  ovfTold : Bool
  nbhds : List (Nat × Nbhd)
  nextNbhd : Nat
  blocks : List (Nat × Block)
  nextBlock : Nat
  strands : List (Nat × Strand)
  nextStrand : Nat
  /-- the neighbourhood offered to each cluster: grid, index and the cycle of the offer -/
  offers : List (Nat × (Nat × Nat × Nat))
  lastClu : Nat
  packets : List Packet
  arrivals : List Arrival
  replies : List Reply
  tileOps : List TileOp
  copyQ : List Cmd
  gatherQ : List Cmd
  collQ : List Cmd
  matQ : List MatPass
  latches : List Latch
  monitors : List Monitor
  /-- the PH bit of the next fault queue entry, and entries waiting in the hub (R391) -/
  fqPh : Bool
  fqBuf : List (List Dword)
  dbgBuf : List (List Dword)
  ttab : List TtRec
  ttDelay : List (TtRec × Nat)
  /-- timed launches whose OCTX has gone out, and which wait for the pool (R409, R411) -/
  ttWait : List TtRec
  gangs : List GangAct
  markers : List (Nat × Nat × Nat)
  asks : List (Nat × Nat)
  outReqs : List OutReq
  /-- the next sequence number toward each destination, by station (R189) -/
  nextReq : List (Nat × Nat)
  replyCache : List CachedReply
  downStns : List (Nat × Unit)
  haloE : List (Nat × Nat)
  haloHeld : List (Nat × Nat × HaloMsg)
  /-- Halo messages received in order and not yet acted on, with their sources -/
  haloIn : List (Nat × HaloMsg)
  haloOut : List HaloSent
  haloSeq : List (Nat × Nat)
  zeniths : List Zenith
  podHeld : List PodHeld
  crCache : List (Nat × Dword × Dword)
  facCache : List (Nat × Dword × Dword)
  /-- devices this one reaches over the fabric (R465) -/
  reach : List Nat
  chans : List (Nat × StackSt)
  /-- dies that write back for a reset (R386, R399) -/
  resetting : List Nat
  fwUp : Bool
  hostUp : Bool
  memOffered : Bool
  mhz : Nat
  mv : Nat
  stretches : Nat
  /-- a sample that is due: address, writer, and SHCTL's context as it stood (R455) -/
  shPend : Option (Dword × Agent × Nat)
  prfCount : List (Nat × Nat)
  deriving DecidableEq, Repr

/-- The key of a register in `State.regs`: blocks apart, indices within. -/
def regKey : RegId → Nat
  | .core k i => k * 0x1000 + i
  | .cluster c i => 0x1000000 + c * 0x10000 + i
  | .device i => 0x2000000 + i

/-- The state right after power-on reset: every field as the spec gives it for reset; where the spec gives no value,
zero or empty (assumptions 1 and 2). -/
def State.reset : State where
  tick := 0
  ptime := 0
  slew := 0
  clock := 0
  cur := none
  notReady := false
  inputs := []
  abroad := []
  strikes := []
  outbox := []
  mem := ⟨[], []⟩
  host := ⟨[], []⟩
  remote := []
  bar4 := ⟨[], []⟩
  spads := []
  spadErr := []
  dbgMem := ⟨[], []⟩
  oldLines := []
  retLines := []
  hostErr := []
  lags := []
  smUnits := []
  smCopies := []
  dir := []
  dirUnits := []
  tlb := []
  walked := []
  icache := []
  recCache := []
  regs := []
  pendStore := []
  ctxs := []
  switching := []
  revoked := []
  queues := []
  posts := []
  lq := []
  grids := []
  nextGrid := 0
  pool := []
  ovfHead := 0
  ovf := []
  ovfTold := false
  nbhds := []
  nextNbhd := 0
  blocks := []
  nextBlock := 0
  strands := []
  nextStrand := 0
  offers := []
  lastClu := 3
  packets := []
  arrivals := []
  replies := []
  tileOps := []
  copyQ := []
  gatherQ := []
  collQ := []
  matQ := []
  latches := []
  monitors := []
  fqPh := false
  fqBuf := []
  dbgBuf := []
  ttab := []
  ttDelay := []
  ttWait := []
  gangs := []
  markers := []
  asks := []
  outReqs := []
  nextReq := []
  replyCache := []
  downStns := []
  haloE := []
  haloHeld := []
  haloIn := []
  haloOut := []
  haloSeq := []
  zeniths := []
  podHeld := []
  crCache := []
  facCache := []
  reach := []
  chans := []
  resetting := []
  fwUp := false
  hostUp := false
  memOffered := false
  mhz := 800
  mv := 675
  stretches := 0
  shPend := none
  prfCount := []

end Sys2Proof.Machine
end

