-- ==== Sys2Proof/Machine/Image.lean ====
section
/-! DEFINITION. The register image of a strand: where each register lies (R65 to R67), reading and writing its words,
liveness (R81, R82), the control area (R75, R141, R150) and fault records (R128, R129). -/
namespace Sys2Proof.Machine

/-- What an unlisted word of an image is: zero, unmarked, never written (R68). -/
def ImgWord.none : ImgWord := ⟨0, false, false, false⟩

/-- A word of the image. -/
def Strand.word (st : Strand) (i : Nat) : ImgWord := (aget st.img i).getD .none

/-- Put a word in an image. It is `aputD` (`putImg_eq`); a word that is live is seen to be listed without looking at its value,
which may be one that the spec leaves open. -/
def putImg (m : List (Nat × ImgWord)) (i : Nat) (w : ImgWord) : List (Nat × ImgWord) :=
  if w.live then aput m i w else aputD .none m i w

/-- Change what the image notes of a word, without writing it. -/
def Strand.noteWord (st : Strand) (i : Nat) (w : ImgWord) : Strand :=
  { st with img := putImg st.img i w }

/-- Write a word of the image: its parity is right again, its line is no longer clean, and no lane's bit of it is dead (R81,
R87). -/
def Strand.setWord (st : Strand) (i : Nat) (w : ImgWord) : Strand :=
  { st with
    img := putImg st.img i w
    flips := adel st.flips i
    clean := adel st.clean (i / 32)
    deadBits := adel st.deadBits i }

/-! ### Word offsets (R65 to R67) -/

/-- Words before the fixed areas. -/
def Strand.fixed (st : Strand) : Nat := st.vRegs * 128

def Strand.vecIx (_st : Strand) (k l : Nat) : Nat := k * 128 + l
def Strand.scIx (st : Strand) (n : Nat) : Nat := st.fixed + 2 * n
def Strand.predIx (st : Strand) (n q : Nat) : Nat := st.fixed + 128 + 4 * n + q
def Strand.ctlIx (st : Strand) (off : Nat) : Nat := st.fixed + 192 + off / 4
def Strand.latchIx (st : Strand) (b off : Nat) : Nat := st.fixed + 256 + 32 * b + off / 4
def Strand.splitIx (st : Strand) (i : Nat) : Nat := st.fixed + 512 + 8 * i
def Strand.recIx (st : Strand) (slot : Nat) : Nat := st.fixed + 2560 + 8 * slot
def Strand.accIx (st : Strand) (t off : Nat) : Nat := st.fixed + 4608 + t * 2560 + off / 4

/-- Word i lies in the reserved area at F + 0x500, which reads as zero and ignores writes (R5, R65). -/
def Strand.reservedIx (st : Strand) (i : Nat) : Bool := st.fixed + 320 ≤ i && i < st.splitIx 0

/-- Word i lies in the split table area (R65). -/
def Strand.inSplitArea (st : Strand) (i : Nat) : Bool := st.splitIx 0 ≤ i && i < st.recIx 0

/-- The bits of an image word that any agent's store sets: all but those that the map of R65 and R74 reserves (R5). -/
def Strand.storeMask (st : Strand) (i : Nat) : Word :=
  if st.reservedIx i then 0
  else if st.inSplitArea i then
    (match (i - st.splitIx 0) % 8 with
     | 6 => 0xFFFF000F
     | 7 => 0xFC000001
     | _ => 0xFFFFFFFF)
  else 0xFFFFFFFF

/-- The bits of word k of the control area that the strand's own instructions read, and those that they write: reserved bits
read as zero, and a store leaves them and the RO fields as they are (R5, R75, R141, R150). A word whose fields have no Kind is
plain (assumption 93). -/
def ctlKinds (k : Nat) : Word × Word :=
  match k with
  | 0 => (0x001F7F3F, 0)
  | 1 => (0, 0)
  | 11 => (0x0000FFFF, 0x0000FFFF)
  | 14 => (0x00F0FF07, 0)
  | 15 => (0xFFFF01FF, 0)
  | 26 => (0xFFFF7FFF, 0xFFFF7FFF)
  | 27 => (0, 0)
  | 34 => (0xFF000003, 3)
  | 35 => (0xFFFF00FF, 0)
  | _ => if k < 36 then (0xFFFFFFFF, 0xFFFFFFFF) else (0, 0)

/-- The bits of image word i that the strand's own instructions read and write (R75); of a latch record all of them (assumption 116). -/
def Strand.ownKinds (st : Strand) (i : Nat) : Word × Word :=
  if st.ctlIx 0 ≤ i && i < st.latchIx 0 0 then ctlKinds (i - st.ctlIx 0) else (0xFFFFFFFF, 0xFFFFFFFF)

/-- Bytes of the image (R65). -/
def imageBytes (v a : Nat) : Nat := v * 512 + 18432 + a * 10240

def Strand.bytes (st : Strand) : Nat := imageBytes st.vRegs st.tiles

/-- Virtual address of a word of the image. -/
def Strand.wordVa (st : Strand) (i : Nat) : Dword := st.base + BitVec.ofNat 64 (4 * i)

/-! ### Doublewords of the fixed areas -/

/-- The 64-bit value at a word offset, marks aside. -/
def Strand.dw (st : Strand) (i : Nat) : Dword := join32 (st.word i).data (st.word (i + 1)).data

/-- Put a 64-bit value at a word offset, unmarked and live. -/
def Strand.setDw (st : Strand) (i : Nat) (d : Dword) : Strand :=
  (st.setWord i ⟨loW d, false, true, false⟩).setWord (i + 1) ⟨hiW d, false, true, false⟩

/-- A doubleword of the control area (R75). -/
def Strand.ctl (st : Strand) (off : Nat) : Dword := st.dw (st.ctlIx off)
def Strand.setCtl (st : Strand) (off : Nat) (d : Dword) : Strand := st.setDw (st.ctlIx off) d

/-- Offsets of the control area. -/
def ctlBUDGET : Nat := 0x00
def ctlCYCSAVE : Nat := 0x08
def ctlDLINE : Nat := 0x10
def ctlEVENT : Nat := 0x18
def ctlHANDLER : Nat := 0x20
def ctlACCMODE : Nat := 0x28
def ctlRSTART : Nat := 0x30
def ctlRSTATE : Nat := 0x38
def ctlLIVEV : Nat := 0x40
def ctlLIVES : Nat := 0x60
def ctlLIVEX : Nat := 0x68
def ctlTMASK : Nat := 0x70
def ctlTPC : Nat := 0x80
def ctlTSTAT : Nat := 0x88

/-- A region is open (R141). -/
def Strand.regionOpen (st : Strand) : Bool := fld (st.ctl ctlRSTATE) 0 1 == 1

/-- Fields of RSTATE and TSTAT. -/
def Strand.rstate (st : Strand) (lo len : Nat) : Nat := fld (st.ctl ctlRSTATE) lo len
def Strand.setRstate (st : Strand) (lo len v : Nat) : Strand :=
  st.setCtl ctlRSTATE (setFld (st.ctl ctlRSTATE) lo len v)
def Strand.tstate (st : Strand) : Nat := fld (st.ctl ctlTSTAT) 0 2

/-- The held lanes (R150). -/
def Strand.tmask (st : Strand) : Lanes := st.ctl (ctlTMASK + 8) ++ st.ctl ctlTMASK
def Strand.setTmask (st : Strand) (m : Lanes) : Strand :=
  (st.setCtl ctlTMASK (m.extractLsb' 0 64)).setCtl (ctlTMASK + 8) (m.extractLsb' 64 64)

/-- Keep NENT in step with the locket (R141). -/
def Strand.setLocket (st : Strand) (l : List LkEntry) : Strand :=
  { st with locket := l }.setRstate 32 9 l.length

/-- The mode of accumulator tile t: 0 none, 1 AF80, 2 integer (R75). -/
def Strand.accMode (st : Strand) (t : Nat) : Nat := fld (st.ctl ctlACCMODE) (2 * t) 2
def Strand.setAccMode (st : Strand) (t m : Nat) : Strand :=
  st.setCtl ctlACCMODE (setFld (st.ctl ctlACCMODE) (2 * t) 2 m)
def Strand.accOvf (st : Strand) (t : Nat) : Bool := fld (st.ctl ctlACCMODE) (32 + t) 1 == 1
def Strand.setAccOvf (st : Strand) (t : Nat) (b : Bool) : Strand :=
  st.setCtl ctlACCMODE (setFld (st.ctl ctlACCMODE) (32 + t) 1 (b2n b))

/-! ### Live-in protection (R140, R141) -/

/-- Vector register k is live-in of the open region. -/
def Strand.liveInV (st : Strand) (k : Nat) : Bool :=
  st.regionOpen && fld (st.ctl (ctlLIVEV + 8 * (k / 64))) (k % 64) 1 == 1
def Strand.liveInS (st : Strand) (n : Nat) : Bool := st.regionOpen && fld (st.ctl ctlLIVES) n 1 == 1
def Strand.liveInP (st : Strand) (n : Nat) : Bool := st.regionOpen && n < 15 && fld (st.ctl ctlLIVEX) n 1 == 1
def Strand.liveInA (st : Strand) (t : Nat) : Bool := st.regionOpen && fld (st.ctl ctlLIVEX) (16 + t) 1 == 1

/-- The word at an offset belongs to a live-in register: vector, scalar, predicate or tile (R140). -/
def Strand.liveInWord (st : Strand) (i : Nat) : Bool :=
  if i < st.fixed then st.liveInV (i / 128)
  else
    let j := i - st.fixed
    if j < 128 then st.liveInS (j / 2)
    else if j < 192 then st.liveInP ((j - 128) / 4)
    else if 4608 ≤ j then st.liveInA ((j - 4608) / 2560)
    else false

/-! ### Reading registers -/

/-- A read of a register word: its value, and for a dead word the held value or zero, as a free choice (R82). -/
def Strand.readWord (st : Strand) (tick i : Nat) : MWord :=
  let w := st.word i
  if w.live || (w.data == 0 && !w.mark) then ⟨w.data, w.mark⟩
  else if Config.choice tick i % 2 = 0 then ⟨w.data, w.mark⟩ else ⟨0, false⟩

/-- The token of the lower half of a pair of words when marked, else of the upper (R89, R131). -/
def pairTok (lo hi : MWord) : Option Word :=
  if lo.mark then some lo.data else if hi.mark then some hi.data else none

/-- The unconsumed-poison counter of a cause (R446). -/
def upCounter (cause : Nat) : Option Nat :=
  if 1 ≤ cause && cause ≤ 0x1F then some 0
  else if 0x20 ≤ cause && cause ≤ 0x2F then some 1
  else if 0x30 ≤ cause && cause ≤ 0x3F then some 2
  else if cause = 0x60 then some 3 else none

/-- CAUSE, ORIGIN and RECORD of a token (R126). -/
def tokCause (t : Word) : BitVec 8 := t.extractLsb' 24 8
def tokOrigin (t : Word) : BitVec 8 := t.extractLsb' 16 8
def tokRecord (t : Word) : Nat := (t.extractLsb' 0 16).toNat
def mkTok (cause origin : BitVec 8) (record : Nat) : Word := cause ++ (origin ++ BitVec.ofNat 16 record)

/-- The causes of poison that dies with these words unconsumed: live, marked, not consumed (R136, R447). -/
def dying (ws : List ImgWord) : List (BitVec 8) :=
  (ws.filter fun w => w.mark && w.live && !w.used).map fun w => tokCause w.data

/-! ### Fault records (R128, R129) -/

/-- What a fault record says beyond its identity. -/
structure RecInfo where
  cause : BitVec 8
  origin : BitVec 8
  pc : Dword
  addr : Dword
  lane : Option Nat
  elem : Option (Nat × Nat × Nat)
  inh : Bool
  ctl : Bool
  deriving DecidableEq, Repr

/-- STATE of the record in a slot. -/
def Strand.recState (st : Strand) (slot : Nat) : Nat := fld (st.dw (st.recIx slot)) 0 2

/-- The next slot in ring order that is not pinned, as an offset from the ring position. -/
def Strand.freeSlot (st : Strand) : Option Nat :=
  (List.range 256).find? fun i => st.recState ((st.ring + i) % 256) != 2

/-- The WHERE doubleword (R129). -/
def recWhere (ptime : Nat) (r : RecInfo) : Dword :=
  let e := r.elem.getD (0, 0, 0)
  mk64 [(32, ptime % 2 ^ 32), (31, b2n r.lane.isSome), (30, b2n r.elem.isSome), (26, e.1), (21, e.2.1),
    (16, e.2.2), (0, r.lane.getD 0)]

/-- Make a fault record and give its token; with every slot pinned, RECORD is 0xFFFF and none is written (R128). -/
def Strand.mkRecord (st : Strand) (ptime : Nat) (r : RecInfo) : Strand × Word :=
  match st.freeSlot with
  | none => (st, mkTok r.cause r.origin 0xFFFF)
  | some i =>
    let p := st.ring + i
    let slot := p % 256
    let gen := (st.gen + p / 256) % 255
    let id := gen * 256 + slot
    let rgn := if st.regionOpen then st.rstate 48 16 else 0xFFFF
    let head := mk64 [(48, id), (32, rgn), (24, r.cause.toNat), (16, r.origin.toNat), (7, b2n r.inh),
      (6, b2n r.ctl), (0, 1)]
    let ix := st.recIx slot
    let st := (((st.setDw ix head).setDw (ix + 2) r.pc).setDw (ix + 4) r.addr).setDw (ix + 6) (recWhere ptime r)
    ({ st with ring := (p + 1) % 256, gen := (st.gen + (p + 1) / 256) % 255 }, mkTok r.cause r.origin id)

/-! ### Masks of the strand -/

/-- Lanes of all fragments. -/
def Strand.fragLanes (st : Strand) : Lanes :=
  st.splits.foldl (fun m e => match e.2 with | .frag f => m ||| f.mask | .group _ => m) 0

/-- Lanes that arrived at groups by a member's early leaving or waiting stay in their waiting fragment's mask, so the
lanes that have not exited are those of fragments and those held (R37, R148). -/
def Strand.liveLanes (st : Strand) : Lanes := st.fragLanes ||| (if st.tstate == 1 then st.tmask else 0)

def Strand.frag? (st : Strand) (i : Nat) : Option Frag :=
  match aget st.splits i with
  | some (.frag f) => some f
  | _ => none

def Strand.group? (st : Strand) (i : Nat) : Option Group :=
  match aget st.splits i with
  | some (.group g) => some g
  | _ => none

def Strand.setFrag (st : Strand) (i : Nat) (f : Frag) : Strand := { st with splits := aput st.splits i (.frag f) }
def Strand.setGroup (st : Strand) (i : Nat) (g : Group) : Strand := { st with splits := aput st.splits i (.group g) }
def Strand.delEntry (st : Strand) (i : Nat) : Strand := { st with splits := adel st.splits i }

/-- Fragments with their indices, in index order. -/
def Strand.frags (st : Strand) : List (Nat × Frag) :=
  st.splits.filterMap fun e => match e.2 with | .frag f => some (e.1, f) | .group _ => none

/-- The lowest free index of the split table. -/
def Strand.freeEntry (st : Strand) : Nat :=
  ((List.range 256).find? fun i => (aget st.splits i).isNone).getD 255

end Sys2Proof.Machine
end

