-- ==== Sys2Proof/Machine/Phys.lean ====
section
/-! DEFINITION. Physical storage word by word: device memory with the register images that lie in it, host memory, memory of
other devices, scratchpads, and core windows (R64, R69, R134, R378, R379). -/
namespace Sys2Proof.Machine

/-! ### Byte memories -/

/-- What a byte that nothing has written reads as: zero (assumption 2). -/
def unlisted : Byte := 0

/-- Read one byte. -/
def Mem.byte (m : Mem) (a : Nat) : Byte := (aget m.cells a).getD unlisted

/-- Write one byte, keeping the canonical form. -/
def Mem.setByte (m : Mem) (a : Nat) (b : Byte) : Mem := { m with cells := aputD unlisted m.cells a b }

/-- The mark of the word at an aligned address. -/
def Mem.marked (m : Mem) (a : Nat) : Bool := (aget m.marks a).isSome

/-- Set or clear the mark of the word at an aligned address. -/
def Mem.setMark (m : Mem) (a : Nat) (b : Bool) : Mem :=
  { m with marks := if b then aput m.marks a () else adel m.marks a }

/-- The canonical form: rising addresses, and no byte that equals what an unlisted address reads as. -/
def Mem.wf (m : Mem) : Bool :=
  asorted m.cells && m.cells.all (fun c => c.2 != unlisted) && asorted m.marks

/-- The aligned word at an address, little-endian (R4). -/
def Mem.word (m : Mem) (a : Nat) : MWord :=
  ⟨m.byte (a + 3) ++ (m.byte (a + 2) ++ (m.byte (a + 1) ++ m.byte a)), m.marked a⟩

/-- Byte i of a word. -/
def byteOf (w : Word) (i : Nat) : Byte := w.extractLsb' (8 * i) 8

/-- Write the bytes of a word that `be` selects, and its mark (R125). -/
def Mem.setWord (m : Mem) (a be : Nat) (w : MWord) : Mem :=
  let put := fun (m : Mem) i => if be.testBit i then m.setByte (a + i) (byteOf w.data i) else m
  let m := put (put (put (put m 0) 1) 2) 3
  if be % 16 = 0 then m else m.setMark a w.mark

/-- The bytes of `w` that `be` selects over the others of `old`. -/
def mergeBytes (old new : Word) (be : Nat) : Word :=
  let pick := fun i => if be.testBit i then byteOf new i else byteOf old i
  pick 3 ++ (pick 2 ++ (pick 1 ++ pick 0))

/-! ### Locations -/

end Sys2Proof.Machine

namespace Sys2Proof

/-- A location some bytes further on. -/
def Loc.add : Loc → Nat → Loc
  | .mem a, n => .mem (a + n)
  | .host a, n => .host (a + n)
  | .rem d a, n => .rem d (a + n)
  | .spad b o, n => .spad b (o + n)
  | .core k o, n => .core k (o + n)
  | .creg c o, n => .creg c (o + n)
  | .dreg o, n => .dreg (o + n)

/-- The byte number of a location within its space. -/
def Loc.off : Loc → Nat
  | .mem a => a
  | .host a => a
  | .rem _ a => a
  | .spad _ o => o
  | .core _ o => o
  | .creg _ o => o
  | .dreg o => o

/-- The location rounded down to a multiple of n bytes. -/
def Loc.align (l : Loc) (n : Nat) : Loc :=
  match l with
  | .mem a => .mem (a / n * n)
  | .host a => .host (a / n * n)
  | .rem d a => .rem d (a / n * n)
  | .spad b o => .spad b (o / n * n)
  | .core k o => .core k (o / n * n)
  | .creg c o => .creg c (o / n * n)
  | .dreg o => .dreg (o / n * n)

/-- The location lies in another device's memory. -/
def Loc.remote : Loc → Bool
  | .rem _ _ => true
  | _ => false

end Sys2Proof

namespace Sys2Proof.Machine

def State.strand (s : State) (sid : Nat) : Strand := (aget s.strands sid).getD default
def State.setStrand (s : State) (sid : Nat) (st : Strand) : State := { s with strands := aput s.strands sid st }
def State.modStrand (s : State) (sid : Nat) (f : Strand → Strand) : State :=
  { s with strands := amod s.strands sid f }
def State.block (s : State) (b : Nat) : Block := (aget s.blocks b).getD default
def State.modBlock (s : State) (b : Nat) (f : Block → Block) : State := { s with blocks := amod s.blocks b f }
def State.grid (s : State) (g : Nat) : Grid := (aget s.grids g).getD default
def State.modGrid (s : State) (g : Nat) (f : Grid → Grid) : State := { s with grids := amod s.grids g f }
def State.nbhd (s : State) (n : Nat) : Nbhd := (aget s.nbhds n).getD default
def State.modNbhd (s : State) (n : Nat) (f : Nbhd → Nbhd) : State := { s with nbhds := amod s.nbhds n f }

/-- The word of the image that the physical byte `pa` belongs to, if it lies in this strand's image. -/
def Strand.imageAt (st : Strand) (pa : Nat) : Option Nat :=
  match st.frames.findIdx? (· == pa / 65536) with
  | none => none
  | some j =>
    let va := (st.base.toNat / 65536 + j) * 65536 + pa % 65536
    if st.base.toNat ≤ va && va < st.base.toNat + st.bytes && st.life != .retired then
      some ((va - st.base.toNat) / 4)
    else none

/-- The strand and image word at a physical byte of device memory. -/
def imageOwner : List (Nat × Strand) → Nat → Option (Nat × Nat)
  | [], _ => none
  | (sid, st) :: l, pa =>
    match st.imageAt pa with
    | some i => some (sid, i)
    | none => imageOwner l pa

def State.imageAt (s : State) (pa : Nat) : Option (Nat × Nat) := imageOwner s.strands pa

/-- Bytes of one memory stack (R478). -/
def stackBytes : Nat := 0xC00000000

/-- Bytes of device memory (R378). -/
def deviceBytes : Nat := 8 * stackBytes

/-- The service position of a line of a stack (R478). -/
def servicePos (pa : Nat) : Nat := pa % stackBytes / 128 % 128

/-- The line lies in a retired position of its stack (R474). -/
def State.retiredLine (s : State) (pa : Nat) : Bool :=
  match aget s.chans (pa / stackBytes) with
  | some st => (aget st.retired (servicePos pa)).isSome
  | none => false

/-- The token of a word read from a retired position (R474). -/
def retiredTok : Word := 0x1F0BFFFF#32

/-- A line that has been read from a retired position: every word poisoned (R474). -/
def retiredWords : List MWord := List.replicate 32 ⟨retiredTok, true⟩

/-- The words of a line of a retired position: as a cache holds it, else as its stack gives it (R474). -/
def State.retiredLineWords (s : State) (pa : Nat) : List MWord := (aget s.retLines (pa / 128)).getD retiredWords

/-- The token of host poison (R134). -/
def hostTok : Word := 0x600DFFFF#32

/-- The core of a resident strand (R12, R378): cluster × 128 + core number; none, coded 512, for a clasp's strand. -/
def State.coreOf (s : State) (sid : Nat) : Nat :=
  if (s.strand sid).clasp.isSome then 512 else (s.block (s.strand sid).blk).core

/-- The image word that a word of core k's register region is a word of: of a line of a resident strand of the core, as the
region happens to hold it, or of none (R379). -/
def State.regionWord (s : State) (k o : Nat) : Option (Nat × Nat) :=
  let held := (s.strands.filter fun e => e.2.life == .resident && s.coreOf e.1 == k).flatMap
    fun e => (List.range (e.2.bytes / 128)).map fun i => (e.1, i)
  match Config.choice s.tick (o / 128) % (held.length + 1) with
  | 0 => none
  | n + 1 => (held[n]?).map fun l => (l.1, 32 * l.2 + o % 128 / 4)

/-! ### Scratchpads (R15, R50, R160) -/

/-- The scratchpad of a core. -/
def State.spad (s : State) (k : Nat) : Mem := (aget s.spads k).getD ⟨[], []⟩
def State.setSpad (s : State) (k : Nat) (m : Mem) : State := { s with spads := aputD ⟨[], []⟩ s.spads k m }

/-- The core and the byte of its scratchpad where byte `o` of a block's partition lies. -/
def State.spadAt (s : State) (b o : Nat) : Nat × Nat := ((s.block b).core, (s.block b).spadBase + o)

/-- The bank and the row of byte `o` of a scratchpad (R160). -/
def spadBank (o : Nat) : Nat := o / 8 % 32
def spadRow (o : Nat) : Nat := o / 256

/-- The bank word of a data bank in a row: eight bytes. -/
def Mem.bankWord (m : Mem) (row bank : Nat) : Dword :=
  join32 (m.word (256 * row + 8 * bank)).data (m.word (256 * row + 8 * bank + 4)).data

/-- Row n of parity bank g: the XOR of row n of data banks 4g to 4g + 3 (R15, R160). -/
def Mem.parityWord (m : Mem) (row g : Nat) : Dword :=
  ((m.bankWord row (4 * g) ^^^ m.bankWord row (4 * g + 1)) ^^^ m.bankWord row (4 * g + 2)) ^^^ m.bankWord row (4 * g + 3)

/-- A bank word rebuilt from its group's parity bank and the other three banks (R162). -/
def Mem.rebuilt (m : Mem) (row bank : Nat) : Dword :=
  ((List.range 4).filter fun i => 4 * (bank / 4) + i != bank).foldl (fun d i => d ^^^ m.bankWord row (4 * (bank / 4) + i))
    (m.parityWord row (bank / 4))

/-- The key of a word of a bank among those in error: data banks 0 to 31, parity banks 32 to 39. -/
def spadKey (k row bank : Nat) : Nat := (k * 4096 + row) * 64 + bank

/-- A word of a bank is in error. -/
def State.spadBad (s : State) (k row bank : Nat) : Bool := (aget s.spadErr (spadKey k row bank)).isSome

/-- A bank word cannot be rebuilt: a second word of its group and row is in error, or the parity bank's is (R162). -/
def State.spadLost (s : State) (k row bank : Nat) : Bool :=
  s.spadBad k row (32 + bank / 4)
    || (List.range 4).any fun i => 4 * (bank / 4) + i != bank && s.spadBad k row (4 * (bank / 4) + i)

/-! ### Homes (R185) -/

/-- The slice of a line within its die. -/
def sliceOf (pa : Nat) : Nat := Nat.xor (Nat.xor (pa / 2 ^ 7 % 32) (pa / 2 ^ 12 % 32)) (Nat.xor (pa / 2 ^ 17 % 32) (pa / 2 ^ 22 % 32))

/-- The home of a location, as a number: slices below 128, then cores, the host agent, and those of each other device. -/
def State.homeOf (s : State) (l : Loc) : Nat :=
  match l with
  | .mem pa => pa / stackBytes / 2 * 32 + sliceOf pa
  | .spad b _ => 0x1000 + (s.block b).core
  | .core k _ => 0x1000 + k
  | .creg c _ => 0x2000 + c
  | .dreg _ => 0x2010
  | .host _ => 0x2020
  | .rem d pa => 0x3000 + d * 256 + pa / stackBytes / 2 % 8 * 32 + sliceOf pa

/-! ### Words at a location -/

/-- Read a word of an image as memory: the reserved area is zero, and while the strand is Resident or Waiting the split table
area is unpredictable (R65, R74). -/
def State.imageWord (s : State) (sid i : Nat) : MWord :=
  let st := s.strand sid
  if st.reservedIx i then ⟨0, false⟩
  else if st.inSplitArea i && st.life == .resident then ⟨BitVec.ofNat 32 (Config.choice s.tick i), false⟩
  else st.readWord s.tick i

/-- Read the aligned word at a location (R134, R379). DESIGN CHOICE: a read of a core's accumulator staging window, of which R157 says
nothing more, gives a free value (assumption 111). -/
def State.getW (s : State) (l : Loc) : MWord :=
  match l with
  | .mem pa =>
    match s.imageAt pa with
    | some (sid, i) => s.imageWord sid i
    | none => if s.retiredLine pa then (s.retiredLineWords pa).getD (pa % 128 / 4) ⟨retiredTok, true⟩ else s.mem.word pa
  | .host pa =>
    let w := s.host.word pa
    if w.mark then ⟨hostTok, true⟩ else w
  | .rem d pa => ((aget s.remote d).getD ⟨[], []⟩).word pa
  | .spad b o => (s.spad (s.spadAt b o).1).word (s.spadAt b o).2
  | .core k o =>
    if o < 0x180000 then
      match s.regionWord k o with
      | some (sid, i) => s.imageWord sid i
      | none => ⟨0, false⟩
    else if o < 0x240000 then (s.spad k).word (o - 0x180000)
    else if o < 0x280000 then ⟨BitVec.ofNat 32 (Config.choice s.tick o), false⟩
    else ⟨0, false⟩
  | .creg _ _ => ⟨0, false⟩
  | .dreg _ => ⟨0, false⟩

/-- Count a poison that died unconsumed, on core k (R447). -/
def State.countUp (s : State) (k : Nat) (cause : BitVec 8) : State :=
  match upCounter cause.toNat with
  | none => s
  | some n =>
    let key := regKey (.core k (0x22 + n))
    let v := ((aget s.regs key).getD 0).toNat
    { s with regs := aputD 0 s.regs key (BitVec.ofNat 64 (satAdd 0xFFFFFFFF v 1)) }

/-- Count the poison that dies when words of an image are replaced or made dead. -/
def State.countDying (s : State) (k : Nat) (ws : List ImgWord) : State :=
  (dying ws).foldl (fun s c => s.countUp k c) s

/-- Write bytes of a word of a strand's image (R69, R70). -/
def State.putImage (s : State) (sid i be : Nat) (w : MWord) : State :=
  let st := s.strand sid
  if st.reservedIx i then s
  else
    let old := st.word i
    let m := st.storeMask i
    let d := (mergeBytes old.data w.data be &&& m) ||| (old.data &&& ~~~m)
    (s.countDying (s.coreOf sid) [old]).modStrand sid fun st =>
      { st.setWord i ⟨d, w.mark, true, false⟩ with pend := adel st.pend i }

/-- A marked scratchpad word of core k dies: its poison is counted (R447). -/
def State.dyingSpad (s : State) (k o : Nat) : State :=
  let w := (s.spad k).word o
  if w.mark then s.countUp k (tokCause w.data) else s

/-- Write bytes of a word of a core's scratchpad. -/
def State.putSpad (s : State) (k o be : Nat) (w : MWord) : State :=
  if be % 16 = 0 then s
  else
    let t := s.dyingSpad k o
    t.setSpad k ((t.spad k).setWord o be w)

/-- The poison in bytes of a scratchpad dies. -/
def State.drySpad (s : State) (k base n : Nat) : State :=
  ((s.spad k).marks.filter fun c => base ≤ c.1 && c.1 < base + n).foldl (fun s c => s.dyingSpad k c.1) s

/-- Bytes of a scratchpad read as zero, and no bank word that holds them is in error; poison among them dies. -/
def State.zeroSpad (s : State) (k base n : Nat) : State :=
  let inside (a : Nat) : Bool := base ≤ a && a < base + n
  let s := s.drySpad k base n
  let m := s.spad k
  { s.setSpad k ⟨m.cells.filter fun c => !inside c.1, m.marks.filter fun c => !inside c.1⟩ with
    spadErr := s.spadErr.filter fun e => !(e.1 / 64 / 4096 == k && inside (256 * (e.1 / 64 % 4096))) }

/-- The marks of a part of a scratchpad go elsewhere with its words: a block that is switched out takes them along (R431). -/
def State.liftMarks (s : State) (k base n : Nat) : State :=
  let m := s.spad k
  s.setSpad k { m with marks := m.marks.filter fun c => !(base ≤ c.1 && c.1 < base + n) }

/-- A scratchpad partition is freed: poison in it dies, and what it held is nobody's poison any more (R63, R447). -/
def State.freeSpad (s : State) (k base n : Nat) : State := (s.drySpad k base n).liftMarks k base n

/-- Write bytes of a word of a line of a retired position, in a cache (R474). -/
def State.putRetired (s : State) (pa be : Nat) (w : MWord) : State :=
  let l := s.retiredLineWords pa
  let i := pa % 128 / 4
  let old := l.getD i default
  if be % 16 = 0 then s else { s with retLines := aput s.retLines (pa / 128) (l.set i ⟨mergeBytes old.data w.data be, w.mark⟩) }

/-- Write the bytes of the aligned word at a location that `be` selects (R69, R125). -/
def State.putW (s : State) (l : Loc) (be : Nat) (w : MWord) : State :=
  match l with
  | .mem pa =>
    match s.imageAt pa with
    | some (sid, i) => s.putImage sid i be w
    | none => if s.retiredLine pa then s.putRetired pa be w else { s with mem := s.mem.setWord pa be w }
  | .host pa => { s with host := s.host.setWord pa be w }
  | .rem d pa =>
    { s with remote := aput s.remote d (((aget s.remote d).getD ⟨[], []⟩).setWord pa be w) }
  | .spad b o => s.putSpad (s.spadAt b o).1 (s.spadAt b o).2 be w
  | .core k o =>
    if o < 0x180000 then
      match s.regionWord k o with
      | some (sid, i) => s.putImage sid i be w
      | none => s
    else if o < 0x240000 then s.putSpad k (o - 0x180000) be w
    else s
  | .creg _ _ => s
  | .dreg _ => s

/-! ### Doublewords and strings of words at a location -/

/-- The aligned doubleword at a location: value and token when a half is marked (R89). -/
def State.getD64 (s : State) (l : Loc) : Dword × Option Word :=
  let lo := s.getW l
  let hi := s.getW (l.add 4)
  (join32 lo.data hi.data, pairTok lo hi)

/-- Write an unmarked doubleword. -/
def State.putD64 (s : State) (l : Loc) (d : Dword) : State :=
  (s.putW l 15 ⟨loW d, false⟩).putW (l.add 4) 15 ⟨hiW d, false⟩

/-- Mark both words of a doubleword with a token (R131). -/
def State.markD64 (s : State) (l : Loc) (t : Word) : State :=
  (s.putW l 15 ⟨t, true⟩).putW (l.add 4) 15 ⟨t, true⟩

/-- Consecutive words from a location. -/
def State.getWords (s : State) (l : Loc) (n : Nat) : List MWord :=
  (List.range n).map fun i => s.getW (l.add (4 * i))

/-- Write consecutive whole words. -/
def State.putWords (s : State) (l : Loc) (ws : List MWord) : State :=
  (ws.zipIdx).foldl (fun s w => s.putW (l.add (4 * w.2)) 15 w.1) s

end Sys2Proof.Machine
end

