-- ==== Sys2Proof/Machine/Logs.lean ====
section
/-! DEFINITION. The system register file as storage (R385), and the rings the device writes in memory: error log (R448), fault
queue (R391), journal (R450, R451), debug events (R456) and profile records (R459, R460). -/
namespace Sys2Proof.Machine

/-! ### Register storage -/

/-- Reset values of registers, zero where no other is stated (R385 and the maps it names). -/
def resetReg : RegId → Dword
  | .device i =>
    if i = 3 then 6
    else if i = 8 then 0x80FE80FE80FE80FE
    else if i = 9 then 0x1800000
    else if i = 10 then 0xFFFFFFFFFFFFFFFF
    else if i = 11 then 1
    else if i = 0x41 then 0xFFFFFFFF
    else if 0x68 ≤ i && i ≤ 0x6F then 0xFF00FF000000FFFF
    else 0
  | _ => 0

/-- The stored value of a register. -/
def State.reg (s : State) (r : RegId) : Dword := (aget s.regs (regKey r)).getD (resetReg r)

/-- Store a register, without any check of who writes. -/
def State.setReg (s : State) (r : RegId) (v : Dword) : State :=
  { s with regs := aputD (resetReg r) s.regs (regKey r) v }

/-- A field of a register. -/
def State.regF (s : State) (r : RegId) (lo len : Nat) : Nat := fld (s.reg r) lo len
def State.setRegF (s : State) (r : RegId) (lo len v : Nat) : State := s.setReg r (setFld (s.reg r) lo len v)

/-- Add to a saturating counter in the low bits of a register. -/
def State.bump (s : State) (r : RegId) (lo len : Nat) : State :=
  s.setRegF r lo len (satAdd (2 ^ len - 1) (s.regF r lo len) 1)

/-- Device registers by index from 0x300. -/
def rDID : RegId := .device 0x00
def rDCTXB : RegId := .device 0x01
def rFQBASE : RegId := .device 0x02
def rFQSIZE : RegId := .device 0x03
def rFQHEAD : RegId := .device 0x04
def rFQTAIL : RegId := .device 0x05
def rFQLOST : RegId := .device 0x06
def rDPCORE (p : Nat) : RegId := .device (0x08 + 4 * p)
def rDPMEM (p : Nat) : RegId := .device (0x09 + 4 * p)
def rDPQUE (p : Nat) : RegId := .device (0x0A + 4 * p)
def rDPSTAT (p : Nat) : RegId := .device (0x0B + 4 * p)
def rDHCA : RegId := .device 0x30
def rFACTB : RegId := .device 0x31
def rLOVB : RegId := .device 0x32
def rLOVCFG : RegId := .device 0x33
def rLOVSTAT : RegId := .device 0x34
def rPOOLST : RegId := .device 0x35
def rCRTAB : RegId := .device 0x36
def rPTNOW : RegId := .device 0x40
def rPTERR : RegId := .device 0x41
def rTTSTAT : RegId := .device 0x42
def rTSRC : RegId := .device 0x43
def rJBASE : RegId := .device 0x50
def rJTAIL : RegId := .device 0x51
def rJACK : RegId := .device 0x52
def rJSTAT : RegId := .device 0x53
def rELBASE : RegId := .device 0x54
def rELTAIL : RegId := .device 0x55
def rELHEAD : RegId := .device 0x56
def rELLOST : RegId := .device 0x57
def rSHCTL : RegId := .device 0x58
def rSHADDR : RegId := .device 0x59
def rSHSTAT : RegId := .device 0x5A
def rSHDATA : RegId := .device 0x5B
def rDEVB : RegId := .device 0x5C
def rDEVTAIL : RegId := .device 0x5D
def rDEVHEAD : RegId := .device 0x5E
def rBRSTAT : RegId := .device 0x60
def rCHSPR (st : Nat) : RegId := .device (0x68 + st)
def rLQCFG (q : Nat) : RegId := .device (0x1400 + q)

/-- Core registers by index from 0x100, cluster registers by index from 0x200. -/
def rCSTORE (k : Nat) : RegId := .core k 0x00
def rCPLACE (k : Nat) : RegId := .core k 0x01
def rCRESV (k : Nat) : RegId := .core k 0x10
def rCSCHED (k : Nat) : RegId := .core k 0x11
def rCECNT (k : Nat) : RegId := .core k 0x20
def rUECNT (k : Nat) : RegId := .core k 0x21
def rUPCNT (k n : Nat) : RegId := .core k (0x22 + n)
def rCTRAPS (k : Nat) : RegId := .core k 0x26
def rPRFCFG (k : Nat) : RegId := .core k 0x28
def rPRFBASE (k : Nat) : RegId := .core k 0x29
def rPRFTAIL (k : Nat) : RegId := .core k 0x2A
def rPRFHEAD (k : Nat) : RegId := .core k 0x2B
def rPRFLOST (k : Nat) : RegId := .core k 0x2C
def rWALKS (c : Nat) : RegId := .cluster c 0x00
def rSPLITS (c : Nat) : RegId := .cluster c 0x01
def rL2CE (c : Nat) : RegId := .cluster c 0x02
def rL2UE (c : Nat) : RegId := .cluster c 0x03

/-- An access to a line of a retired position: one that no cache holds is read from the stack, poisoned, and counts (R446, R474). -/
def State.touchRetired (s : State) (l : Loc) : State :=
  match l with
  | .mem pa =>
    if s.retiredLine pa && (s.imageAt pa).isNone && (aget s.retLines (pa / 128)).isNone then
      { s with retLines := aput s.retLines (pa / 128) retiredWords }.bump (rL2UE (pa / stackBytes / 2)) 0 32
    else s
  | _ => s

/-! ### The physical map (R378) -/

/-- Bytes of a core's register region and scratchpad (R386). -/
def State.regionBytes (s : State) (k : Nat) : Nat := (1024 + 128 * s.regF (rCSTORE k) 0 3) * 1024
def State.spadBytes (s : State) (k : Nat) : Nat := 64 * 1024 * s.regF (rCSTORE k) 8 4

/-- The location of a physical byte, when it is backed. -/
def State.physLoc (s : State) (pa : Nat) : Option Loc :=
  if pa < deviceBytes then some (.mem pa)
  else if 0x10000000000 ≤ pa && pa < 0x10080000000 then
    let o := pa - 0x10000000000
    let k := o / 0x400000
    let f := o % 0x400000
    if f < s.regionBytes k || (0x180000 ≤ f && f < 0x180000 + s.spadBytes k)
        || (0x240000 ≤ f && f < 0x281000) then some (.core k f) else none
  else if 0x10080000000 ≤ pa && pa < 0x10080040000 then
    some (.creg ((pa - 0x10080000000) / 0x10000) ((pa - 0x10080000000) % 0x10000))
  else if 0x10080040000 ≤ pa && pa < 0x10080050000 then some (.dreg (pa - 0x10080040000))
  else if 0x8000000000000 ≤ pa && pa < 0x10000000000000 then some (.host (pa - 0x8000000000000))
  else none

/-- Write consecutive doublewords at a physical address; what is not backed is not written. -/
def State.putDwords (s : State) (pa : Nat) (ds : List Dword) : State :=
  (ds.zipIdx).foldl (fun s d =>
    match s.physLoc (pa + 8 * d.2) with
    | some l => s.putD64 l d.1
    | none => s) s

/-! ### Descriptors (R375) -/

/-- The descriptor copy of a context that is switched in (R376). -/
def State.ctxIn (s : State) (c : Nat) : Option CtxIn := s.ctxs.find? fun x => x.id == c

/-- A doubleword of a context's descriptor: of the copy while the context is in, else as memory holds it (R375, R376). -/
def State.desc (s : State) (c i : Nat) : Dword :=
  match s.ctxIn c with
  | some x => x.desc.getD i 0
  | none => (s.getD64 (.mem ((s.reg rDCTXB).toNat + 128 * c + 8 * i))).1

/-- CFLAGS of a context as they stood at the last TBSYNC of scope 5: DBGV, DBGCTX and BKPE take effect there (R376). -/
def State.dbgWord (s : State) (c : Nat) : Dword :=
  let a := (s.reg rDCTXB).toNat + 128 * c
  join32 (s.dbgMem.word a).data (s.dbgMem.word (a + 4)).data

/-- Fields of CFLAGS (R375). -/
def State.ctxValid (s : State) (c : Nat) : Bool := fld (s.desc c 0) 63 1 == 1
def State.ctxSys (s : State) (c : Nat) : Bool := fld (s.desc c 0) 62 1 == 1
def State.ctxMgr (s : State) (c : Nat) : Bool := fld (s.desc c 0) 61 1 == 1
def State.ctxPart (s : State) (c : Nat) : Nat := fld (s.desc c 0) 56 3

/-! ### Error log (R448) -/

/-- The device identifier, and whether the device belongs to a pod (R386). -/
def State.did (s : State) : Nat := s.regF rDID 0 10
def State.inPod (s : State) : Bool := s.regF rDID 16 1 == 1

/-- The bring-up stage (R472). -/
def State.stage (s : State) : Nat := s.regF rBRSTAT 60 4

/-- Write one entry to the error log, or count it as lost. -/
def State.logErr (s : State) (kind ctx part dev cause : Nat) (addr d0 d1 : Dword) : State :=
  let lg := s.regF rELBASE 0 5
  if lg = 0 then s
  else
    let n := 2 ^ lg
    let t := s.regF rELTAIL 0 32 % n
    if (t + 1) % n = s.regF rELHEAD 0 32 % n then s.bump rELLOST 0 32
    else
      let base := s.regF rELBASE 12 40 * 4096
      let head := mk64 [(60, kind), (48, ctx), (45, part), (32, dev), (0, cause)]
      let s := s.putDwords (base + 64 * t) [head, addr, d0, d1, BitVec.ofNat 64 s.ptime, 0, 0, 0]
      s.setRegF rELTAIL 0 32 ((t + 1) % n)

/-- A cause report: LKIND 1. -/
def State.report (s : State) (ctx dev cause : Nat) (addr : Dword) : State :=
  s.logErr 1 ctx (if ctx = 0xFFF then 0 else s.ctxPart ctx) dev cause addr 0 0

/-! ### Fault queue (R391) -/

def State.fqSize (s : State) : Nat := 2 ^ s.regF rFQSIZE 0 5

def State.fqFull (s : State) : Bool :=
  (s.regF rFQTAIL 0 32 + 1) % s.fqSize == s.regF rFQHEAD 0 32 % s.fqSize

/-- Write an entry at FQTAIL and advance it. -/
def State.fqWrite (s : State) (e : List Dword) : State :=
  let t := s.regF rFQTAIL 0 32 % s.fqSize
  let base := (s.reg rFQBASE).toNat
  let e := match e with
    | h :: r => setFld h 63 1 (b2n s.fqPh) :: r
    | [] => []
  let s := s.putDwords (base + 64 * t) e
  let t' := (t + 1) % s.fqSize
  let s := if t' = 0 then { s with fqPh := !s.fqPh } else s
  s.setRegF rFQTAIL 0 32 t'

/-- Count a containment copy as dropped: FQLOST counts modulo the ring size (R391). -/
def State.fqLose (s : State) : State := s.setReg rFQLOST (BitVec.ofNat 64 (((s.reg rFQLOST).toNat + 1) % s.fqSize))

/-- Post an entry: to the queue, to the hub buffer while the queue is full, and a containment copy that finds that buffer
full too is dropped and counted. -/
def State.fqPost (s : State) (kind : Nat) (e : List Dword) : State :=
  if s.fqBuf.isEmpty && !s.fqFull then s.fqWrite e
  else if 256 ≤ s.fqBuf.length && kind = 3 then s.fqLose
  else { s with fqBuf := s.fqBuf ++ [e] }

/-- An entry's doublewords (R391). -/
def fqEntry (kind ctx : Nat) (origin cause : BitVec 8) (pc addr saddr : Dword) (rcd : List Dword) : List Dword :=
  [mk64 [(60, kind), (48, ctx), (16, origin.toNat), (0, cause.toNat)], pc, addr, saddr] ++ rcd

/-! ### Journal (R450, R451) -/

/-- What a journal entry says. -/
structure JEntry where
  kind : Nat
  state : Nat
  ctx : Nat
  src : Nat
  queue : Nat
  note : Nat
  cause : Nat
  lseq : Option Nat
  grid : Dword
  lowCount : Nat
  highCount : Nat
  aux : Dword

/-- Write one entry at JTAIL. -/
def State.jWrite (s : State) (e : JEntry) : State :=
  let seq := (s.reg rJTAIL).toNat
  let base := s.regF rJBASE 26 26 * 2 ^ 26
  let head := mk64 [(60, e.kind), (56, e.state), (44, e.ctx), (32, e.src), (24, e.queue), (16, e.note), (0, e.cause)]
  let lseq := if e.kind = 3 then 0 else e.lseq.getD seq
  let s := s.putDwords (base + seq % 2 ^ 20 * 64)
    [BitVec.ofNat 64 seq, head, BitVec.ofNat 64 lseq, e.grid, mk64 [(0, e.lowCount % 2 ^ 32), (32, e.highCount % 2 ^ 32)],
      BitVec.ofNat 64 s.ptime, e.aux, 0]
  s.setReg rJTAIL (BitVec.ofNat 64 (seq + 1))

/-- Journal an entry while JEN is 1; an overrun sets OVR and is logged once for each setting, with note 4 (R450). -/
def State.journal (s : State) (e : JEntry) : State :=
  if s.regF rJSTAT 0 1 = 0 then s
  else
    let seq := (s.reg rJTAIL).toNat
    let overrun := decide (2 ^ 20 ≤ seq - (s.reg rJACK).toNat)
    let s := s.jWrite e
    if overrun && s.regF rJSTAT 1 1 == 0 then
      let s := (s.setRegF rJSTAT 1 1 1).report 0xFFF s.did 0x5D 0
      s.jWrite { e with kind := 3, state := 0, note := 4, cause := 0, queue := 0, grid := 0, lowCount := 0, highCount := 0, aux := BitVec.ofNat 64 (seq - 2 ^ 20) }
    else s

/-- A journal note (R451). -/
def State.note (s : State) (ctx note : Nat) (aux : Dword) : State :=
  s.journal { kind := 3, state := 0, ctx := ctx, src := s.did, queue := 0, note := note, cause := 0, lseq := none, grid := 0, lowCount := 0, highCount := 0, aux := aux }

/-! ### Debug events (R456) -/

def State.dbgFull (s : State) : Bool :=
  (s.regF rDEVTAIL 0 7 + 1) % 128 == s.regF rDEVHEAD 0 7

def State.dbgWrite (s : State) (e : List Dword) : State :=
  let t := s.regF rDEVTAIL 0 7
  let base := s.regF rDEVB 12 40 * 4096
  (s.putDwords (base + 32 * t) e).setRegF rDEVTAIL 0 7 ((t + 1) % 128)

/-- Post a debug event; while the ring is full, events wait in order. -/
def State.dbgPost (s : State) (reason ctx code : Nat) (pc base : Dword) : State :=
  let e := [mk64 [(60, reason), (48, ctx), (0, code % 65536)], pc, base, BitVec.ofNat 64 s.ptime]
  if s.dbgBuf.isEmpty && !s.dbgFull then s.dbgWrite e else { s with dbgBuf := s.dbgBuf ++ [e] }

/-- Move waiting debug events into the ring, in order, while it has room. -/
def State.dbgDrain (s : State) : State :=
  s.dbgBuf.foldl (fun s e => if s.dbgFull then s else { s.dbgWrite e with dbgBuf := s.dbgBuf.drop 1 }) s

/-! ### Profile records (R459, R460) -/

/-- $place of a strand (R76). -/
def State.place (s : State) (sid : Nat) : Nat :=
  let k := s.coreOf sid
  let p := ((s.strand sid).slot.getD (0, 0)).1
  p * 2 ^ 20 + k / 128 * 2 ^ 16 + k % 128 / 16 * 2 ^ 8 + k % 16

/-- Write a profile record of core k, or count it as lost. -/
def State.profile (s : State) (k sid kind subkind : Nat) (pc : Dword) (mask : Lanes) (payload : List Dword) : State :=
  let st := s.strand sid
  let n := 2 ^ s.regF (rPRFBASE k) 0 5
  let t := s.regF (rPRFTAIL k) 0 32 % n
  if (t + 1) % n = s.regF (rPRFHEAD k) 0 32 % n then s.bump (rPRFLOST k) 0 32
  else
    let base := s.regF (rPRFBASE k) 12 40 * 4096
    let head := mk64 [(60, kind), (48, st.ctx), (40, subkind), (0, s.place sid)]
    let s := s.putDwords (base + 64 * t)
      ([head, pc, st.base, mask.extractLsb' 0 64, mask.extractLsb' 64 64] ++ payload)
    s.setRegF (rPRFTAIL k) 0 32 ((t + 1) % n)

/-- The stages that a request of a strand of core k to a location may pass, in the order of the payload: L1 and unified store, crossbar,
L2 slice, die-to-die link, memory controller, fabric, home clasp queue, return path (R461; assumption 85). -/
def State.mayPass (s : State) (k : Nat) (l : Loc) (packet : Bool) (stage : Nat) : Bool :=
  let far := match l with
    | .spad b _ => (s.block b).core != k
    | .core j _ => j != k
    | _ => true
  let die := match l with
    | .mem pa => pa / stackBytes / 2 != k / 128
    | .spad b _ => (s.block b).core / 128 != k / 128
    | .core j _ => j / 128 != k / 128
    | .creg c _ => c != k / 128
    | _ => true
  let mem := match l with | .mem _ => true | _ => false
  match stage with
  | 0 => true
  | 1 => far
  | 2 => mem
  | 3 => far && die
  | 4 => mem
  | 5 => l.remote
  | 6 => packet
  | _ => far

/-- The latency payload's counts of four stages from one on: open where the stage may have been passed, 0 where not (R461). -/
def State.stageCounts (s : State) (k : Nat) (l : Loc) (packet : Bool) (first : Nat) : Dword :=
  mk64 ((List.range 4).map fun i =>
    (16 * i, if s.mayPass k l packet (first + i) then Config.choice s.tick (461 * 8 + first + i) % 65536 else 0))

/-- The lanes of a fragment. -/
def State.fragMask (s : State) (sid i : Nat) : Lanes := (((s.strand sid).frag? i).map Frag.mask).getD 0

/-- Count a lane's request to a location as it is performed or answered, and record every 2^PSHIFT-th of the context PCTX; the cycles
spent at each stage passed are open (R461). -/
def State.sample (s : State) (sid : Nat) (q : LaneReq) (l : Loc) (packet : Bool) : State :=
  let st := s.strand sid
  let k := s.coreOf sid
  if 512 ≤ k || s.regF (rPRFCFG k) 63 1 = 0 || s.regF (rPRFCFG k) 48 12 != st.ctx then s
  else
    let n := (aget s.prfCount k).getD 0 + 1
    let s := { s with prfCount := aput s.prfCount k n }
    if n % 2 ^ s.regF (rPRFCFG k) 32 5 != 0 then s
    else
      s.profile k sid 1 q.lane q.pc q.act
        [s.stageCounts k l packet 0, s.stageCounts k l packet 4, q.va &&& 0x00FFFFFFFFFFFFFF]

/-- A strand of the block waits on a named barrier. -/
def State.barWatched (s : State) (blk n : Nat) : Bool :=
  s.strands.any fun e =>
    e.2.blk == blk && e.2.splits.any fun x => match x.2 with | .frag f => f.wait == .barrier n | .group _ => false

/-- A barrier checker record (R462), when the checker is on for the strand's context and a strand waited on the barrier as the event
occurred: the counts after it. -/
def State.barrierCheck (s : State) (sid subkind n : Nat) (pc : Dword) (mask : Lanes) (waits : Bool) : State :=
  let st := s.strand sid
  let k := s.coreOf sid
  if s.regF (rPRFCFG k) 62 1 == 1 && s.regF (rPRFCFG k) 48 12 == st.ctx && waits then
    let b := (aget (s.block st.blk).bars n).getD default
    s.profile k sid 2 subkind pc mask
      [mk64 [(0, n), (8, b.expect), (16, b.arrived), (24, b.phase % 2)], 0, 0]
  else s

end Sys2Proof.Machine
end

