-- ==== Sys2Proof/Machine/Translate.lean ====
section
/-! DEFINITION. From a generic address to a place: tags (R154), windows (R55), the physical map (R378), page tables (R387 to
R389) and translation buffers (R390). -/
namespace Sys2Proof.Machine

/-- The kinds of access a translation serves. -/
inductive AccessKind where
  | read | write | fetch
  deriving DecidableEq, Repr

/-- On whose behalf an access is translated: its context and level, for a strand its core and block, the cluster whose
walkers serve it, and for a strand's own access its strand and lane (128 where no one lane makes it). -/
structure Who where
  ctx : Nat
  sys : Bool
  core : Option Nat
  blk : Option Nat
  clu : Nat
  agent : Option (Nat × Nat)
  deriving DecidableEq, Repr

/-- The cluster that owns a location's slice of device memory: walks on behalf of its clasps are counted there; walks of the hub
and of other places count in cluster 0 (assumption 94). -/
def locCluster : Loc → Nat
  | .mem pa => pa / stackBytes / 2
  | _ => 0

/-- On behalf of the sender of a packet (R186). -/
def State.whoSender (s : State) (p : Packet) : Who :=
  match p.src with
  | .strand sid _ _ _ _ _ =>
    let st := s.strand sid
    ⟨st.ctx, s.ctxSys st.ctx, none, some st.blk, (locCluster p.place.loc), none⟩
  | .fabric _ _ _ c => ⟨c, s.ctxSys c, none, none, (locCluster p.place.loc), none⟩
  | .device c => ⟨c, s.ctxSys c, none, none, (locCluster p.place.loc), none⟩

/-- On behalf of a strand: its data accesses, and for a clasp's strand those of its requester, at system level (R479). -/
def State.whoOf (s : State) (sid : Nat) : Who :=
  let st := s.strand sid
  match st.clasp with
  | some r => { s.whoSender r.pkt with sys := true }
  | none => ⟨st.ctx, s.ctxSys st.ctx, some (s.coreOf sid), some st.blk, s.coreOf sid / 128, some (sid, 128)⟩

/-- On behalf of a lane of a strand. -/
def State.whoLane (s : State) (sid lane : Nat) : Who :=
  let w := s.whoOf sid
  { w with agent := w.agent.map fun a => (a.1, lane) }

/-- On behalf of a strand's fetches: a clasp's strand runs the code of ICTX (R479). -/
def State.whoFetch (s : State) (sid : Nat) : Who :=
  match (s.strand sid).clasp with
  | some r => ⟨r.ictx, true, none, none, (locCluster r.pkt.place.loc), none⟩
  | none => s.whoOf sid

/-- On behalf of a context alone (R358). -/
def State.whoCtx (s : State) (c : Nat) : Who := ⟨c, s.ctxSys c, none, none, 0, none⟩

/-- The coherence kind of a 64 KiB unit of device memory: true when software-managed (R394). -/
def State.unitSm (s : State) (pa : Nat) : Bool := (aget s.smUnits (pa / 65536)).isSome

/-! ### Page tables (R387 to R389) -/

/-- Fields of an entry (R388). -/
def pteV (e : Dword) : Bool := fld e 0 1 == 1
def pteLeaf (e : Dword) : Bool := fld e 1 1 == 1
def pteR (e : Dword) : Bool := fld e 2 1 == 1
def pteW (e : Dword) : Bool := fld e 3 1 == 1
def pteX (e : Dword) : Bool := fld e 4 1 == 1
def ptePT (e : Dword) : Bool := fld e 5 1 == 1
def pteOrd (e : Dword) : Nat := fld e 6 2
def pteSM (e : Dword) : Bool := fld e 8 1 == 1
def pteFrame (e : Dword) : Nat := fld e 16 36 * 65536
def pteRdev (e : Dword) : Nat := fld e 52 10
def pteRem (e : Dword) : Bool := fld e 62 1 == 1

/-- Bytes a leaf of a level maps. -/
def pageBytes (level : Nat) : Nat := if level = 0 then 0x10000 else if level = 1 then 0x200000 else 0x40000000

/-- An entry with V = 1 that is reserved at its level (R388). -/
def pteReserved (level : Nat) (e : Dword) : Bool :=
  if pteLeaf e then
    3 ≤ level || fld e 63 1 == 1 || fld e 9 7 != 0 || pteOrd e == 3 || pteFrame e % pageBytes level != 0
      || (!pteRem e && pteRdev e != 0)
      || (pteX e && pteW e && !ptePT e) || (ptePT e && !(pteX e && pteW e))
  else level == 0 || fld e 52 12 != 0 || fld e 2 6 != 0

/-- The index of a virtual address at a level (R387). -/
def vaIndex (level : Nat) (va : Nat) : Nat :=
  match level with
  | 4 => va / 2 ^ 48 % 256
  | 3 => va / 2 ^ 39 % 512
  | 2 => va / 2 ^ 30 % 512
  | 1 => va / 2 ^ 21 % 512
  | _ => va / 2 ^ 16 % 32

/-- What a walk finds: a leaf at a level, or the data-access cause (R389). -/
inductive Walk where
  | leaf (level : Nat) (e : Dword)
  | bad (cause : BitVec 8)
  deriving DecidableEq, Repr

/-- Walk from a table at `level`; `fuel` counts the levels left. -/
def State.walk (s : State) (va : Nat) : (fuel level : Nat) → (table : Nat) → Walk
  | 0, _, _ => .bad 0x05
  | fuel + 1, level, table =>
    let a := table + 8 * vaIndex level va
    if deviceBytes ≤ a then .bad 0x05
    else
      let e := s.getD64 (.mem a)
      if e.2.isSome then .bad 0x07
      else if !pteV e.1 then .bad 0x01
      else if pteReserved level e.1 then .bad 0x05
      else if pteLeaf e.1 then .leaf level e.1
      else s.walk va fuel (level - 1) (fld e.1 8 44 * 256)

/-- The table entries that a walk reads. -/
def State.walkReads (s : State) (va : Nat) : (fuel level : Nat) → (table : Nat) → List Nat
  | 0, _, _ => []
  | fuel + 1, level, table =>
    let a := table + 8 * vaIndex level va
    if deviceBytes ≤ a then []
    else
      let e := s.getD64 (.mem a)
      a :: if e.2.isSome || !pteV e.1 || pteReserved level e.1 || pteLeaf e.1 then []
        else s.walkReads va fuel (level - 1) (fld e.1 8 44 * 256)

/-- The walk of a context's virtual address. -/
def State.walkCtx (s : State) (ctx : Nat) (va : Nat) : Walk :=
  s.walk va 5 4 (fld (s.desc ctx 1) 12 40 * 4096)

/-- A device-memory frame lies in the partition's memory share (R402, R404). -/
def State.inShare (s : State) (part pa : Nat) : Bool :=
  let b := s.regF (rDPMEM part) 0 9 * 2 ^ 30
  let n := s.regF (rDPMEM part) 16 9 * 2 ^ 30
  b ≤ pa && pa < b + n

/-- Device d's access-control table refuses this device's memory requests, or its posts to queue q: the table is that device's,
so either answer may come at any time (R389, R410; assumption 95). -/
def State.refusedBy (s : State) (d : Nat) : Bool := Config.choice s.tick (0x60000 + d) % 2 == 1
def State.postRefusedBy (s : State) (d q : Nat) : Bool := Config.choice s.tick (0x3C0000 + 64 * d + q) % 2 == 1

/-- The station of a request: of its line, or its twin while that is down; none when both are down (R465). -/
def State.stationFor (s : State) (dev pa : Nat) : Option Nat :=
  let k := Nat.xor (dev % 16) (pa / 2 ^ 7 % 16)
  let up (n : Nat) : Bool := (aget s.downStns n).isNone
  if up k then some k else if up (Nat.xor k 8) then some (Nat.xor k 8) else none

/-- The checks of a leaf, in the order of R389, and the place it gives. -/
def State.leafPlace (s : State) (who : Who) (kind : AccessKind) (va level : Nat) (e : Dword) :
    Except (BitVec 8) Place :=
  let pa := pteFrame e + va % pageBytes level
  let ord := BitVec.ofNat 2 (pteOrd e)
  if !pteRem e && pa < deviceBytes && !s.inShare (s.ctxPart who.ctx) (pteFrame e) then .error 0x1D
  else if !pteRem e && (s.physLoc pa).isNone then .error 0x16
  else if kind == .read && !pteR e then .error 0x02
  else if kind == .write && pteX e && !pteR e && !pteW e then .error 0x1E
  else if kind == .write && !pteW e then .error 0x03
  else if kind == .fetch && !pteX e then .error 0x49
  else if pteRem e then
    if s.refusedBy (pteRdev e) then .error 0x06
    else if s.reach.contains (pteRdev e) && (s.stationFor (pteRdev e) pa).isSome then .ok ⟨.rem (pteRdev e) pa, ord, pteSM e⟩
    else .error 0x17
  else
    match s.physLoc pa with
    | some l => .ok ⟨l, ord, if pa < deviceBytes then s.unitSm pa else pteSM e⟩
    | none => .error 0x16

/-! ### Translation buffers (R390) -/

/-- The entry that a core's buffer, or its cluster's, holds for an address. -/
def State.tlbHit (s : State) (k ctx va : Nat) : Option TlbEnt :=
  s.tlb.find? fun t =>
    (t.unit == k || t.unit == 512 + k / 128) && t.ctx == ctx && va / pageBytes t.level * pageBytes t.level == t.base

/-- Fill the buffers of a core and its cluster with a leaf. -/
def State.tlbFill (s : State) (k ctx va level : Nat) (e : Dword) : State :=
  let base := va / pageBytes level * pageBytes level
  let keep := s.tlb.filter fun t =>
    !((t.unit == k || t.unit == 512 + k / 128) && t.ctx == ctx && t.base == base && t.level == level)
  { s with tlb := ⟨k, ctx, base, level, e⟩ :: ⟨512 + k / 128, ctx, base, level, e⟩ :: keep }

/-- A walk for a page of a context is started, in a cluster; misses to one page in one step share it (R390, R446). Entries on lines of
retired positions are read poisoned (R474). -/
def State.countWalk (s : State) (clu ctx va : Nat) (w : Walk) : State :=
  let size := match w with | .leaf level _ => pageBytes level | .bad _ => pageBytes 0
  let key := (clu, ctx, va / size * size)
  if s.walked.contains key then s
  else
    let t := (s.walkReads va 5 4 (fld (s.desc ctx 1) 12 40 * 4096)).foldl (fun (t : State) a => t.touchRetired (.mem a)) s
    { t.setReg (rWALKS clu) (t.reg (rWALKS clu) + 1) with walked := key :: s.walked }

/-- The leaf an access uses: a buffered one, which may be stale by free choice, or a walked one, which fills the
buffers unless the access faults (R390). -/
def State.leafFor (s : State) (who : Who) (kind : AccessKind) (va : Nat) : State × Walk :=
  let fresh := s.walkCtx who.ctx va
  match who.core with
  | none => (s.countWalk who.clu who.ctx va fresh, fresh)
  | some k =>
    let held := s.tlbHit k who.ctx va
    let stale : Option Walk := held.map fun t => .leaf t.level t.leaf
    let useHeld := match stale with
      | none => false
      | some w => w == fresh || Config.choice s.tick va % 2 == 0
    match useHeld, stale with
    | true, some w => (s, w)
    | _, _ =>
      let s := s.countWalk (k / 128) who.ctx va fresh
      match fresh with
      | .leaf level e =>
        (match s.leafPlace who kind va level e with
         | .error _ => (s, fresh)
         | .ok _ => (s.tlbFill k who.ctx va level e, fresh))
      | .bad _ => (s, fresh)

/-- Translate a virtual address. The page at address 0 is left unmapped by system software (R366): no special case. -/
def State.transVa (s : State) (who : Who) (kind : AccessKind) (va : Nat) : State × Except (BitVec 8) Place :=
  match s.leafFor who kind va with
  | (s, .leaf level e) => (s, s.leafPlace who kind va level e)
  | (s, .bad c) => (s, .error c)

/-- Windows are hardware-coherent and release-consistent (R156, R165). -/
def windowPlace (b o : Nat) : Place := ⟨.spad b o, 1, false⟩

/-- The block of a neighbourhood whose $block is b (R55). -/
def State.slotBlock (s : State) (blk n : Nat) : Option Nat :=
  let me := s.block blk
  (s.blocks.find? fun e => e.2.gid == me.gid && e.2.nbhd == me.nbhd && e.2.num == n && !e.2.retired).map (·.1)

/-- Translate a generic address (R154, R155). -/
def State.translate (s : State) (who : Who) (kind : AccessKind) (a : Dword) : State × Except (BitVec 8) Place :=
  let tag := fld a 56 8
  let o := fld a 0 56
  if tag = 0 then s.transVa who kind o
  else if tag = 0xFE then
    match who.blk with
    | some b => (s, if o < (s.block b).spadBytes then .ok (windowPlace b o) else .error 0x0A)
    | none => (s, .error 0x0A)
  else if tag = 0xFD then
    match who.blk with
    | some b =>
      (s, if o < 0x1800000 then
          match s.slotBlock b (o / 0x100000) with
          | some b' => if o % 0x100000 < (s.block b').spadBytes then .ok (windowPlace b' (o % 0x100000)) else .error 0x09
          | none => .error 0x09
        else .error 0x09)
    | none => (s, .error 0x09)
  else if tag = 0xFF then
    if !who.sys then (s, .error 0x19)
    else
      match s.physLoc o with
      | some l => (s, .ok ⟨l, 1, if o < deviceBytes then s.unitSm o else false⟩)
      | none => (s, .error 0x16)
  else (s, .error 0x04)

/-- Drop translations (R390): of one page, of a context, or all, in a cluster or in the device. -/
def State.tlbDrop (s : State) (clu : Option Nat) (p : TlbEnt → Bool) : State :=
  { s with tlb := s.tlb.filter fun t =>
      let c := if t.unit < 512 then t.unit / 128 else t.unit - 512
      !(p t && (match clu with | some k => c == k | none => true)) }

end Sys2Proof.Machine
end

