-- ==== Sys2Proof/Machine/Regs.lean ====
section
/-! DEFINITION. System registers (R382, R385): what a read returns and clears, what a write sets and what each register refuses
(R386, R391, R403, R408, R413, R415, R448, R450, R455, R459, R471). -/
namespace Sys2Proof.Machine

/-- The agent may configure every partition: the host, the policy core, an MGR context (R403). -/
def State.isMgr (s : State) : Agent → Bool
  | .host => true
  | .policy => true
  | .ctx c => s.ctxMgr c

/-- The partition an agent acts in. -/
def State.agentPart (s : State) : Agent → Nat
  | .ctx c => s.ctxPart c
  | _ => 0

/-- The rectangle of partition p on cluster c, as column, row, width, height (R402). -/
def State.rect (s : State) (p c : Nat) : Option (Nat × Nat × Nat × Nat) :=
  let f := s.regF (rDPCORE p) (16 * c) 16
  if f / 32768 % 2 = 1 then some (f / 2048 % 16, f / 256 % 8, f / 16 % 16 + 1, f / 2 % 8 + 1) else none

/-- Core k (cluster × 128 + row × 16 + column) lies in the rectangle of partition p. -/
def State.coreInPart (s : State) (k p : Nat) : Bool :=
  match s.rect p (k / 128) with
  | some (c, r, w, h) => c ≤ k % 16 && k % 16 < c + w && r ≤ k % 128 / 16 && k % 128 / 16 < r + h
  | none => false

def State.partValid (s : State) (p : Nat) : Bool := s.regF (rDPSTAT p) 0 1 == 1

/-- The valid partition that owns a core. -/
def State.corePart (s : State) (k : Nat) : Option Nat :=
  (List.range 8).find? fun p => s.partValid p && s.coreInPart k p

/-- Two rectangles share a core. -/
def rectsMeet (a b : Nat × Nat × Nat × Nat) : Bool :=
  a.1 < b.1 + b.2.2.1 && b.1 < a.1 + a.2.2.1 && a.2.1 < b.2.1 + b.2.2.2 && b.2.1 < a.2.1 + a.2.2.2

/-- A rectangle leaves its cluster's grid of 16 by 8. -/
def rectOut (a : Nat × Nat × Nat × Nat) : Bool := 16 < a.1 + a.2.2.1 || 8 < a.2.1 + a.2.2.2

/-- VALID := 1 is refused for partition p (R403). -/
def State.partBad (s : State) (p : Nat) : Bool :=
  (List.range 4).any (fun c =>
    match s.rect p c with
    | some a => rectOut a || (List.range 8).any (fun q =>
        q != p && s.partValid q && (match s.rect q c with | some b => rectsMeet a b | none => false))
    | none => false)
  || 384 < s.regF (rDPMEM p) 0 9 + s.regF (rDPMEM p) 16 9
  || (List.range 8).any fun q => q != p && s.partValid q && (s.reg (rDPQUE p) &&& s.reg (rDPQUE q)) != 0

/-! ### Reading (R382) -/

/-- The register exists (R385). -/
def regExists : RegId → Bool
  | .core k i => k < 512 && [0x00, 0x01, 0x10, 0x11, 0x20, 0x21, 0x22, 0x23, 0x24, 0x25, 0x26, 0x28, 0x29, 0x2A, 0x2B, 0x2C].contains i
  | .cluster c i => c < 4 && i < 4
  | .device i =>
    i ≤ 0x06 || (0x08 ≤ i && i ≤ 0x27) || (0x30 ≤ i && i ≤ 0x36) || (0x40 ≤ i && i ≤ 0x43)
      || (0x50 ≤ i && i ≤ 0x5E) || i == 0x60 || (0x68 ≤ i && i ≤ 0x6F) || (0x1000 ≤ i && i < 0x1440)

/-- Registers whose fields are all RO (R382). -/
def regReadOnly : RegId → Bool
  | .core _ i => [0x01, 0x11, 0x2A].contains i
  | .cluster _ i => i ≤ 1
  | .device i => [0x00, 0x05, 0x30, 0x35, 0x40, 0x41, 0x51, 0x55, 0x5A, 0x5B, 0x5D, 0x60].contains i

/-- The bits of kind RC, which a read clears (R5). -/
def regRC : RegId → Dword
  | .core _ i => if [0x20, 0x21, 0x22, 0x23, 0x24, 0x25, 0x26, 0x2C].contains i then 0xFFFFFFFF else 0
  | .cluster _ i => if i == 2 || i == 3 then 0xFFFFFFFF else 0
  | .device i =>
    if i = 0x06 then 0xFFFFFFFFFFFFFFFF
    else if i = 0x34 then 0x10000
    else if i = 0x42 then 0xFFFF00000000
    else if i = 0x53 then 2
    else if i = 0x57 then 0xFFFFFFFF
    else if 0x68 ≤ i && i ≤ 0x6F then 0xFF000000
    else if 0x1400 ≤ i && i < 0x1440 then 0xFF000000
    else 0

/-- The bits of kind RW. -/
def regRW : RegId → Dword
  | .core _ i =>
    if i = 0x10 then 0x8FFFFFFF1F1F1F1F
    else if i = 0x28 then 0xCFFF001F00000000
    else if i = 0x29 then 0x000FFFFFFFFFF01F
    else if i = 0x2B then 0xFFFFFFFF
    else 0
  | .cluster _ _ => 0
  | .device i =>
    if i = 0x01 then 0x000FFFFFFFF80000
    else if i = 0x02 then 0x000FFFFFFFFFF000
    else if i = 0x03 then 0x1F
    else if i = 0x04 then 0xFFFFFFFF
    else if 0x08 ≤ i && i ≤ 0x27 then
      (match i % 4 with
       | 0 => 0xFFFEFFFEFFFEFFFE
       | 1 => 0x1FF01FF
       | 2 => 0xFFFFFFFFFFFFFFFF
       | _ => 3)
    else if i = 0x31 then 0x000FFFFFFFFFC000
    else if i = 0x32 then 0x000FFFFFFFFFF000
    else if i = 0x33 then 0xFFFF
    else if i = 0x36 then 0x000FFFFFFFFFF001
    else if i = 0x43 then 0xE0FF000000000000
    else if i = 0x50 then 0x000FFFFFFC000000
    else if i = 0x52 then 0xFFFFFFFFFFFFFFFF
    else if i = 0x53 then 1
    else if i = 0x54 then 0x000FFFFFFFFFF01F
    else if i = 0x56 then 0xFFFFFFFF
    else if i = 0x58 then 0xFFF
    else if i = 0x5C then 0x000FFFFFFFFFF000
    else if i = 0x5E then 0x7F
    else if 0x1400 ≤ i && i < 0x1440 then 0x8FFFC00000000000
    else 0

/-- Class-0 launches outstanding in a partition (R413). -/
def State.class0Out (s : State) (p : Nat) : Nat :=
  (s.grids.filter fun e => e.2.cls == 0 && !e.2.done && s.ctxPart e.2.ctx == p).length

/-- Strand slots taken in partition q of core k. -/
def State.slotsUsed (s : State) (k q : Nat) : List Nat :=
  s.strands.filterMap fun e =>
    match e.2.slot with
    | some (p, n) => if p == q && s.coreOf e.1 == k && e.2.life != .retired then some n else none
    | none => none

/-- Blocks resident on core k. -/
def State.coreBlocks (s : State) (k : Nat) : List (Nat × Block) :=
  s.blocks.filter fun e => e.2.core == k && !e.2.out && !e.2.retired

/-- Lines of physical addresses from here on are host memory (R378). -/
def hostLine : Nat := 0x8000000000000 / 128

/-- Host lines that the device holds modified: in M or O, or with dirty bytes in a cluster's software-managed copy (R166, R386, R401). -/
def State.hostDirty (s : State) : Nat :=
  let hc := (s.dir.filter fun d => hostLine ≤ d.line && d.cache != 516 && (d.st == .m || d.st == .o)).map fun d => d.line
  let sm := (s.smCopies.filter fun c => (match c.loc with | .host _ => true | _ => false) && !c.dirty.isEmpty).map
    fun c => hostLine + c.loc.off / 128
  (hc ++ sm).eraseDups.length

/-- The value of a register, computed where the device computes it. -/
def State.regValue (s : State) (who : Agent) (r : RegId) : Dword :=
  match r with
  | .core k i =>
    if i = 0x01 then
      mk64 [(27, b2n (s.corePart k).isSome), (24, (s.corePart k).getD 0), (16, k / 128), (8, k % 128 / 16), (0, k % 16)]
    else if i = 0x11 then
      mk64 [(32, (s.coreBlocks k).length), (0, 16 - (s.slotsUsed k 0).length), (8, 16 - (s.slotsUsed k 1).length),
        (16, 16 - (s.slotsUsed k 2).length), (24, 16 - (s.slotsUsed k 3).length)]
    else s.reg r
  | .cluster _ _ => s.reg r
  | .device i =>
    if i = 0x30 then mk64 [(0, min 0xFFFF s.hostDirty), (31, b2n (!s.resetting.isEmpty))]
    else if i = 0x34 then
      let cap := s.regF rLOVCFG 0 16
      mk64 [(0, s.ovf.length), (16, max (s.regF r 16 1) (b2n (cap != 0 && cap ≤ s.ovf.length)))]
    else if i = 0x35 then mk64 [(16, min 255 (s.class0Out (s.agentPart who))), (0, s.pool.length)]
    else if i = 0x40 then BitVec.ofNat 64 s.ptime
    else if i = 0x42 then setFld (s.reg r) 0 9 s.ttab.length
    else if i = 0x59 then 0
    else if 0x1000 ≤ i && i < 0x1400 then 0
    else if 0x1400 ≤ i && i < 0x1440 then setFld (s.reg r) 32 8 ((aget s.queues (i - 0x1400)).getD []).length
    else s.reg r

/-- Read a register: its value, and its RC fields cleared in the same step (R5). -/
def State.regRead (s : State) (who : Agent) (r : RegId) : State × Dword :=
  let v := s.regValue who r
  (if regRC r = 0 then s else s.setReg r (s.reg r &&& ~~~(regRC r)), v)

/-! ### Writing (R382) -/

/-- Set the RW fields of a register; every other field ignores what is written (R5). -/
def State.regPut (s : State) (r : RegId) (v : Dword) : State :=
  s.setReg r ((s.reg r &&& ~~~(regRW r)) ||| (v &&& regRW r))

/-- CSTORE: a division within R14's limits, by a writer of the core's partition or MGR, sets PEND (R386). -/
def State.writeCStore (s : State) (who : Agent) (k : Nat) (v : Dword) : State :=
  let spad := fld v 8 4
  let regx := fld v 0 3
  if 12 < spad || 4 < regx || 1920 < 1024 + 128 * regx + 64 * spad
      || (!s.isMgr who && !s.coreInPart k (s.agentPart who)) then s
  else
    { s.setRegF (rCSTORE k) 31 1 1 with pendStore := aput s.pendStore k (v &&& 0xF07) }

/-- CRESV (R415). -/
def State.writeCResv (s : State) (who : Agent) (k : Nat) (v : Dword) : State :=
  if !s.isMgr who || s.spadBytes k < 4096 * fld v 40 8 || s.regionBytes k < 16384 * fld v 32 8
      || !s.coreInPart k (s.ctxPart (fld v 48 12)) then s
  else s.regPut (rCRESV k) v

/-- DPCORE, DPMEM, DPQUE and DPSTAT (R403). -/
def State.writePart (s : State) (who : Agent) (i : Nat) (v : Dword) : State :=
  let p := (i - 8) / 4
  let r : RegId := .device i
  if !s.isMgr who then s
  else if i % 4 != 3 then (if s.partValid p then s else s.regPut r v)
  else if fld v 0 1 = 0 then
    (if s.partValid p && s.ctxs.any (fun c => s.ctxPart c.id == p) then s else s.regPut r v)
  else if !s.partValid p && s.partBad p then s
  else s.regPut r v

/-- LQCFG (R408). -/
def State.writeLqcfg (s : State) (who : Agent) (q : Nat) (v : Dword) : State :=
  let p := s.ctxPart (fld v 48 12)
  if !s.isMgr who || (fld v 63 1 == 1 && fld (s.reg (rDPQUE p)) q 1 == 0) then s
  else s.regPut (rLQCFG q) v

/-- JBASE, JACK and JSTAT: JBASE is refused while JEN is 1 (R450), and JEN until stage 5 (R472). -/
def State.writeJournal (s : State) (i : Nat) (v : Dword) : State :=
  if i = 0x50 && s.regF rJSTAT 0 1 == 1 then s
  else if i = 0x53 && fld v 0 1 == 1 && s.stage != 5 then s
  else s.regPut (.device i) v

/-- ELBASE and ELHEAD: ELBASE is refused while the ring is not empty, and both places go on modulo a new size (R448; assumption
118). -/
def State.writeErrLog (s : State) (i : Nat) (v : Dword) : State :=
  if i = 0x54 && s.regF rELTAIL 0 32 != s.regF rELHEAD 0 32 then s
  else
    let s := s.regPut (.device i) v
    let n := 2 ^ s.regF rELBASE 0 5
    if i = 0x54 then (s.setRegF rELTAIL 0 32 (s.regF rELTAIL 0 32 % n)).setRegF rELHEAD 0 32 (s.regF rELHEAD 0 32 % n) else s

/-- LOVB and LOVCFG: refused while the overflow area holds a record; the ring begins again (R413). -/
def State.writeOverflow (s : State) (i : Nat) (v : Dword) : State :=
  if !s.ovf.isEmpty then s else { s.regPut (.device i) v with ovfHead := 0 }

/-- TSRC (R471). -/
def State.writeTsrc (s : State) (v : Dword) : State :=
  if 127 < fld v 48 8 || (fld v 63 1 == 1 && fld v 62 1 == 0) then s else s.regPut rTSRC v

/-- PRFCFG: PSHIFT outside 4 to 20 is refused; PRFBASE: PLOG outside 6 to 16 is no ring size, and PRFTAIL goes on modulo a new one
(R459; assumption 118). -/
def State.writeProfile (s : State) (k i : Nat) (v : Dword) : State :=
  if i = 0x28 && (fld v 32 5 < 4 || 20 < fld v 32 5) then s
  else if i = 0x29 && (fld v 0 5 < 6 || 16 < fld v 0 5) then s
  else
    let s := s.regPut (.core k i) v
    if i = 0x29 then s.setRegF (rPRFTAIL k) 0 32 (s.regF (rPRFTAIL k) 0 32 % 2 ^ s.regF (rPRFBASE k) 0 5) else s

/-- FQHEAD is kept modulo the ring size (R391). -/
def State.writeFqHead (s : State) (v : Dword) : State := s.regPut rFQHEAD (BitVec.ofNat 64 (fld v 0 32 % s.fqSize))

/-- FQSIZE refuses values outside 6 to 16; FQHEAD, FQTAIL and FQLOST go on modulo the new size (R391; assumption
118). -/
def State.writeFqSize (s : State) (v : Dword) : State :=
  if fld v 0 5 < 6 || 16 < fld v 0 5 then s
  else
    let s := (s.regPut rFQSIZE v).writeFqHead (s.reg rFQHEAD)
    (s.setRegF rFQTAIL 0 32 (s.regF rFQTAIL 0 32 % s.fqSize)).setReg rFQLOST (BitVec.ofNat 64 ((s.reg rFQLOST).toNat % s.fqSize))

/-- The access-control table as memory holds it: the entries that are not zero; none while FACTB is 0 (R410). -/
def State.factable (s : State) : List (Nat × Dword × Dword) :=
  let base := (s.reg rFACTB).toNat
  if base = 0 then []
  else
    (List.range 1024).filterMap fun d =>
      let q := (s.getD64 (.mem (base + 16 * d))).1
      let w := (s.getD64 (.mem (base + 16 * d + 8))).1
      if q = 0 && w = 0 then none else some (d, q, w)

/-- FACTB: the table's changes take effect (R410). -/
def State.writeFactb (s : State) (v : Dword) : State :=
  let s := s.regPut rFACTB v
  { s with facCache := s.factable }

/-- The entry that governs requests from a device (R410). -/
def State.facEntry (s : State) (d : Nat) : Dword × Dword :=
  match s.facCache.find? fun e => e.1 == d with
  | some e => e.2
  | none => (0, 0)
def State.mayPost (s : State) (d q : Nat) : Bool := fld (s.facEntry d).1 q 1 == 1
def State.mayMem (s : State) (d : Nat) : Bool := fld (s.facEntry d).2 0 1 == 1
def State.mayHalo (s : State) (d : Nat) : Bool := fld (s.facEntry d).2 1 1 == 1

/-- A write to a post window that is not a whole packet: discarded and counted (R406). -/
def State.dropPost (s : State) (q : Nat) : State := s.bump (rLQCFG q) 24 8

/-- A whole packet for a queue: it waits for room, and is never discarded; a queue that does not accept posts counts it as
dropped (R406, R408). -/
def State.post (s : State) (x : Post) : State :=
  if s.regF (rLQCFG x.q) 63 1 = 0 || x.data.length != 16 then s.dropPost x.q else { s with posts := s.posts ++ [x] }

/-- The post window at a location (R406). -/
def postWindow : Loc → Option Nat
  | .dreg o => if 0x8000 ≤ o && o < 0xA000 then some ((o - 0x8000) / 128) else none
  | _ => none

/-- CRTAB: MGR contexts, the policy core and the host; every cached routine entry is discarded (R479). -/
def State.writeCrtab (s : State) (who : Agent) (v : Dword) : State :=
  if s.isMgr who then { s.regPut rCRTAB v with crCache := [] } else s

/-- SHADDR: clears DONE, abandons a sample in progress and starts one, in the context that SHCTL names then (R455). -/
def State.writeShaddr (s : State) (who : Agent) (v : Dword) : State :=
  { s.setReg rSHSTAT 0 with shPend := some (v &&& 0x00FFFFFFFFFFFFF8, who, s.regF rSHCTL 0 12) }

/-- DEVHEAD: waiting debug events move in as room frees (R456). -/
def State.writeDevhead (s : State) (v : Dword) : State := (s.regPut rDEVHEAD v).dbgDrain

/-- Write a register that exists, under its own rules. -/
def State.regWrite (s : State) (who : Agent) (r : RegId) (v : Dword) : State :=
  match r with
  | .core k i =>
    if i = 0x00 then s.writeCStore who k v
    else if i = 0x10 then s.writeCResv who k v
    else if i = 0x28 || i = 0x29 then s.writeProfile k i v
    else s.regPut r v
  | .cluster _ _ => s.regPut r v
  | .device i =>
    if i = 0x03 then s.writeFqSize v
    else if i = 0x04 then s.writeFqHead v
    else if 0x08 ≤ i && i ≤ 0x27 then s.writePart who i v
    else if i = 0x31 then s.writeFactb v
    else if i = 0x32 || i = 0x33 then s.writeOverflow i v
    else if i = 0x36 then s.writeCrtab who v
    else if i = 0x43 then s.writeTsrc v
    else if 0x50 ≤ i && i ≤ 0x53 then s.writeJournal i v
    else if i = 0x54 || i = 0x56 then s.writeErrLog i v
    else if i = 0x59 then s.writeShaddr who v
    else if i = 0x5E then s.writeDevhead v
    else if 0x1400 ≤ i && i < 0x1440 then s.writeLqcfg who (i - 0x1400) v
    else if 0x1000 ≤ i && i < 0x1400 then s.dropPost ((i - 0x1000) / 16)
    else s.regPut r v

/-- The register at a place of a register block (R383, R385). -/
def regAt : Loc → Option RegId
  | .core k o => if 0x280000 ≤ o && o < 0x281000 then some (.core k ((o - 0x280000) / 8)) else none
  | .creg c o => some (.cluster c (o / 8))
  | .dreg o => some (.device (o / 8))
  | _ => none

/-- One word of a register block, read without its side effect. -/
def State.regWord (s : State) (who : Agent) (l : Loc) : MWord :=
  match regAt l with
  | some r =>
    let v := if regExists r then s.regValue who r else 0
    ⟨if l.off % 8 < 4 then loW v else hiW v, false⟩
  | none => ⟨0, false⟩

end Sys2Proof.Machine
end

