-- ==== Sys2Proof/Machine/Accum.lean ====
section
/-! DEFINITION. Writing register words and fault records; accumulator elements (R67, R118), matrix steps (R120 to R122) and the passes
of the matrix queue (R316, R318). -/
namespace Sys2Proof.Machine

/-- Write a word of a strand's image; poison that it replaces unconsumed is counted, and a result of an earlier instruction that is
still due there will be discarded (R85, R125, R136, R447). -/
def State.wrImg (s : State) (sid i : Nat) (w : MWord) : State :=
  (s.countDying (s.coreOf sid) [(s.strand sid).word i]).modStrand sid fun st =>
    { st.setWord i ⟨w.data, w.mark, true, false⟩ with pend := adel st.pend i }

/-- Origins of faults of accesses: strand, tile, home (R127). -/
def accessOrigin (o : BitVec 8) : Bool := o == 0x02 || o == 0x03 || o == 0x06

/-- The cause that a separate access of a clasp's body gives its requester: for a request of another device, an invalid descriptor or a
page no longer mapped in a context that is switched out gives 0x3E (R186, R440). -/
def State.sepCause (s : State) (p : Packet) (cause : BitVec 8) : BitVec 8 :=
  match p.src with
  | .fabric _ _ _ c => if !s.ctxValid c || (cause == 0x01 && (s.ctxIn c).isNone) then 0x3E else cause
  | _ => cause

/-- Write one fault record of a strand and give its token. For a clasp's strand the fault of a separate access is noted: it
stops the body (R479). -/
def State.record (s : State) (sid : Nat) (r : RecInfo) : State × Word :=
  let (st, t) := (s.strand sid).mkRecord s.ptime r
  let st := match st.clasp with
    | some c => if accessOrigin r.origin && c.bad.isNone then { st with clasp := some { c with bad := some (s.sepCause c.pkt r.cause, r.addr) } } else st
    | none => st
  (s.setStrand sid st, t)

/-- The record of a fault in a matrix unit, with its tile, row and column (R129). -/
def matRec (cause : BitVec 8) (pc addr : Dword) (lane : Option Nat) (elem : Nat × Nat × Nat) : RecInfo :=
  ⟨cause, 0x04, pc, addr, lane, some elem, false, false⟩

/-- The record of a fault in data: poison of an instruction (R128). -/
def dataRec (cause origin : BitVec 8) (pc addr : Dword) (lane : Option Nat) : RecInfo :=
  ⟨cause, origin, pc, addr, lane, none, false, false⟩

/-! ### One record for each cause of an instruction (R128) -/

/-- The slot of the record that a token's RECORD names: `some none` where it names none, `none` where the record in the slot has
another identity, and the one named is lost (R128). -/
def Strand.ownSlot (st : Strand) (record : Nat) : Option (Option Nat) :=
  if record = 0xFFFF then some none
  else if fld (st.dw (st.recIx (record % 256))) 48 16 = record then some (some (record % 256))
  else none

/-- A fault of an instruction becomes a token: lanes with one cause share it, and its record names the lowest of them (R128). -/
def State.sharedToken (s : State) (sid tag : Nat) (r : RecInfo) : State × Word :=
  let lane := r.lane.getD 128
  match (s.strand sid).shared.find? fun x => x.1 == tag && x.2.1 == r.cause with
  | some (_, _, t, low) =>
    (if low ≤ lane then s
      else s.modStrand sid fun st =>
        let st := { st with shared := st.shared.map fun (x : Nat × BitVec 8 × Word × Nat) => if x.1 == tag && x.2.1 == r.cause then (tag, r.cause, t, lane) else x }
        match st.ownSlot (tokRecord t) with
        | some (some slot) =>
          let at_ := st.recIx slot + 6
          (st.setDw (st.recIx slot + 4) r.addr).setDw at_ (setFld (recWhere 0 r) 32 32 (fld (st.dw at_) 32 32))
        | _ => st, t)
  | none =>
    let (s, t) := s.record sid r
    (s.modStrand sid fun st => { st with shared := st.shared ++ [(tag, r.cause, t, lane)] }, t)

/-- The tokens that an instruction has made at issue are shared by what of it fails later: faults and what became of them. -/
def State.shareTokens (s : State) (sid tag : Nat) (rs vs : List (Option Nat × ReplyVal)) : State :=
  (rs.zip vs).foldl (fun s x =>
    match x.1.1, x.1.2, x.2.2 with
    | some l, .bad c _ _, .tok t =>
      if (s.strand sid).shared.any fun y => y.1 == tag && y.2.1 == c then s
      else s.modStrand sid fun st => { st with shared := st.shared ++ [(tag, c, t, l)] }
    | _, _, _ => s) s

/-- Something of an instruction is still under way: a result, a reply, or a request. -/
def State.tagLive (s : State) (sid tag : Nat) : Bool :=
  let mine (p : Packet) : Bool := match p.src with | .strand i _ _ _ _ t => i == sid && t == tag | _ => false
  (s.strand sid).pend.any (fun x => x.2 == tag) || s.packets.any mine || s.replies.any (fun r => r.sid == sid && r.tag == tag)
    || (s.strand sid).locket.any (fun e => e.tag == tag) || s.matQ.any (fun m => m.sid == sid && m.tag == tag)
    || s.outReqs.any fun q =>
      match q.what with
      | .packet p => mine p
      | .store w => w.sid == some sid && w.tag == tag
      | .home o => o.sid == sid && o.tag == tag
      | _ => false

/-- Where nothing of an instruction is under way any more, the tokens of its late faults need not be shared further. -/
def State.endTag (s : State) (sid tag : Nat) : State :=
  if (s.strand sid).shared.isEmpty || s.tagLive sid tag then s
  else s.modStrand sid fun st => { st with shared := st.shared.filter fun x => x.1 != tag }

/-! ### Parity of image words (R87) -/

/-- The instruction that is issuing, as a record names it. -/
def State.readerPc (s : State) : Dword :=
  match s.cur with
  | some (sid, idx) => (((s.strand sid).frag? idx).map Frag.pc).getD 0
  | none => 0

/-- The lane that an image word belongs to, or the first of its lanes. -/
def Strand.laneOfWord (st : Strand) (i : Nat) : Nat :=
  if i < st.fixed then i % 128 else if i < st.predIx 0 0 then 0 else (i - st.predIx 0 0) % 4 * 32

/-- Parity of an image word that is read: a wrong one is repaired from a duplicate or from the image, where its line is clean; else the
word becomes poison with 0x13, whose record names the reading instruction, the word and the lane (R87, R88). -/
def State.parityAt (s : State) (sid : Nat) (pc : Dword) (i : Nat) : State :=
  let st := s.strand sid
  match aget st.flips i with
  | none => s
  | some spare =>
    let s := s.modStrand sid fun st => { st with flips := adel st.flips i }
    if spare || (aget st.clean (i / 32)).isSome then s.bump (rCECNT (s.coreOf sid)) 0 32
    else
      let (s, t) := s.record sid ⟨0x13, 0x09, pc, st.wordVa i, some (st.laneOfWord i), none, false, false⟩
      (s.modStrand sid fun st => st.setWord i ⟨t, true, true, false⟩).bump (rUECNT (s.coreOf sid)) 0 32

/-- Parity of words that are read. -/
def State.checkParity (s : State) (sid : Nat) (pc : Dword) (ws : List Nat) : State :=
  if (s.strand sid).flips.isEmpty then s else ws.foldl (fun s i => s.parityAt sid pc i) s

/-! ### Elements (R67) -/

/-- Word offsets of element (i, j) of a tile: its low word, and the word that holds its high half. -/
def accLo (st : Strand) (t i j : Nat) : Nat := st.accIx t (i * 256 + j * 8)
def accHi (st : Strand) (t i j : Nat) : Nat := st.accIx t (8192 + i * 64 + 4 * (j / 2))

/-- The bits of an element, or the token that poisons it: the low words before the shared high word. -/
def Strand.getAcc (st : Strand) (tick t i j : Nat) : Except Word Nat :=
  let lo := st.readWord tick (accLo st t i j)
  let hi := st.readWord tick (accLo st t i j + 1)
  let top := st.readWord tick (accHi st t i j)
  match pairTok lo hi with
  | some k => .error k
  | none =>
    if top.mark then .error top.data
    else .ok (lo.data.toNat + 2 ^ 32 * hi.data.toNat + 2 ^ 64 * fld top.data (16 * (j % 2)) 16)

/-- Write elements of a row: a token marks both low words; a value writes them, and its half of the shared word unless
that word stays marked for want of the other value (R67). -/
def State.putAccRow (s : State) (sid t i : Nat) (es : List (Nat × Except Word Nat)) : State :=
  let s := es.foldl (fun s e =>
    let ix := accLo (s.strand sid) t i e.1
    match e.2 with
    | .error k => (s.wrImg sid ix ⟨k, true⟩).wrImg sid (ix + 1) ⟨k, true⟩
    | .ok n => (s.wrImg sid ix ⟨BitVec.ofNat 32 n, false⟩).wrImg sid (ix + 1) ⟨BitVec.ofNat 32 (n / 2 ^ 32), false⟩) s
  (List.range 16).foldl (fun s p =>
    let half (j : Nat) : Option Nat :=
      match es.find? fun e => e.1 == j with
      | some (_, .ok n) => some (n / 2 ^ 64 % 65536)
      | _ => none
    let ix := accHi (s.strand sid) t i (2 * p)
    let old := (s.strand sid).readWord s.tick ix
    match half (2 * p), half (2 * p + 1) with
    | some a, some b => s.wrImg sid ix ⟨BitVec.ofNat 32 (a + 65536 * b), false⟩
    | some a, none => if old.mark then s else s.wrImg sid ix ⟨BitVec.ofNat 32 (a + 65536 * fld old.data 16 16), false⟩
    | none, some b => if old.mark then s else s.wrImg sid ix ⟨BitVec.ofNat 32 (fld old.data 0 16 + 65536 * b), false⟩
    | none, none => s) s

/-! ### Steps (R120 to R122) -/

/-- What a step gives: the new bits, the new bits with saturation noted, or an invalid operation. -/
inductive StepRes where
  | bits (n : Nat) (ovf : Bool)
  | invalid
  deriving DecidableEq, Repr

/-- The integer of an exact value that is one. -/
def valToInt : Val → Int
  | .fin n m e => let x : Int := (m * 2 ^ e.toNat : Nat); if n then -x else x
  | _ => 0

/-- An exact integer under R120. -/
def satAcc (x : Int) : StepRes :=
  let y := max (-accMax) (min accMax x)
  .bits (BitVec.ofInt 80 y).toNat (x != y)

/-- A float result rounded into AF80 (R121, R122). -/
def floatAcc (v : Val) : StepRes :=
  match af80Encode v with
  | some n => .bits n false
  | none => .invalid

/-- One matrix step: D plus the products of the pairs (R121). -/
def matStep (integer : Bool) (d : Nat) (ps : List (Val × Val)) : StepRes :=
  if ps.isEmpty then .bits d false
  else if integer then satAcc (ps.foldl (fun a p => a + valToInt p.1 * valToInt p.2) (accInt d))
  else floatAcc (sumVals false (af80Decode d :: ps.map fun p => mulVal p.1 p.2))

/-- Write the results of a row, turning invalid operations into poison: one record for the instruction, which `tok` keeps
once made. -/
def State.putSteps (s : State) (sid t i : Nat) (pc : Dword) (lane : Option Nat) (tok : Option Word)
    (rs : List (Nat × Except Word StepRes)) : State × Option Word :=
  let bad := rs.find? fun r => match r.2 with | .ok .invalid => true | _ => false
  let (s, tok) := match tok, bad with
    | none, some b =>
      let (s, k) := s.record sid (matRec 0x20 pc 0 lane (t, i, b.1))
      (s, some k)
    | k, _ => (s, k)
  let ovf := rs.any fun r => match r.2 with | .ok (.bits _ o) => o | _ => false
  let s := s.putAccRow sid t i (rs.map fun r => (r.1, match r.2 with
    | .error k => .error k
    | .ok (.bits n _) => .ok n
    | .ok .invalid => .error (tok.getD 0)))
  (if ovf then s.modStrand sid fun st => st.setAccOvf t true else s, tok)

/-! ### Passes -/

/-- Rows of a tile in mode none start from +0, whatever their words hold (R119, R315). -/
def State.zeroRows (s : State) (sid t : Nat) (rows : List Nat) : State :=
  rows.foldl (fun s i =>
    let es := (List.range 32).filterMap fun j =>
      match (s.strand sid).getAcc s.tick t i j with
      | .ok n => if n = 0 then none else some (j, Except.ok 0)
      | .error _ => none
    if es.isEmpty then s else s.putAccRow sid t i es) s

/-- The image words of a row of a tile. -/
def Strand.rowWords (st : Strand) (t i : Nat) : List Nat :=
  ((List.range 32).flatMap fun j => [accLo st t i j, accLo st t i j + 1]) ++ (List.range 16).map fun p => accHi st t i (2 * p)

/-- Elements of rows of a tile are read: the parity of their words is checked (R87). -/
def State.checkRows (s : State) (sid : Nat) (pc : Dword) (t : Nat) (rows : List Nat) : State :=
  s.checkParity sid pc (rows.flatMap fun i => (s.strand sid).rowWords t i)

/-- Poison in every element of rows of a tile. -/
def State.markRows (s : State) (sid t : Nat) (rows : List Nat) (k : Word) : State :=
  rows.foldl (fun s i => s.putAccRow sid t i ((List.range 32).map fun j => (j, .error k))) s

/-- Rows of A or columns of B as a step uses them: their poison as tokens that the instruction's other poison shares (R128, R129). -/
def State.settleLines (s : State) (sid : Nat) (pc : Dword) (tag : Nat) (ls : List ((Nat × Nat × Nat) × Option Nat × ColAt)) :
    State × List MatLine :=
  let r := ls.foldl (fun (acc : State × List MatLine) x =>
    match x.2.2 with
    | .vals v => (acc.1, .vals v :: acc.2)
    | .tok t => (acc.1, .tok t :: acc.2)
    | .bad c a =>
      let (s, t) := acc.1.sharedToken sid tag (matRec c pc a x.2.1 x.1)
      (s, .tok t :: acc.2)) (s, [])
  (r.1, r.2.reverse)

/-- The mode that a pass needs its tile in (R119). -/
def passMode (m : MatPass) : Nat := if m.integer then 2 else 1

/-- A pass lands (R315): the whole MMQ at once, the tile's mode with it, in the order in which passes land (R119, R316). A tile of
another mode is marked with 0x24; else the rows' elements follow, poison overriding values, a poisoned element keeping its token. -/
def State.applyPass (s : State) (m : MatPass) : State :=
  let s := { s with matQ := s.matQ.erase m }
  let old := (s.strand m.sid).accMode m.tile
  match m.mark with
  | some k => s.markRows m.sid m.tile m.rows k
  | none =>
    if old != 0 && old != passMode m then
      let (s, k) := s.record m.sid (matRec 0x24 m.pc 0 none (m.tile, m.rows.headD 0, 0))
      s.markRows m.sid m.tile m.rows k
    else
    let s := s.checkRows m.sid m.pc m.tile m.rows
    let s := if old = 0 then (s.zeroRows m.sid m.tile (List.range 32)).modStrand m.sid fun st => st.setAccMode m.tile (passMode m) else s
    let (s, al) := s.settleLines m.sid m.pc m.tag ((m.rows.zip m.a).map fun x => ((m.tile, x.1, 0), x.2))
    (((m.rows.zip al).foldl (fun (acc : State × Option Word) r =>
      let st := acc.1.strand m.sid
      let row : List (Nat × Except Word StepRes) := (m.b.zipIdx).filterMap fun c =>
        match r.2, c.1 with
        | .tok k, _ => some (c.2, .error k)
        | .vals _, .tok k => some (c.2, .error k)
        | .vals x, .vals y =>
          match st.getAcc s.tick m.tile r.1 c.2 with
          | .error _ => none
          | .ok d => some (c.2, .ok (matStep m.integer d (x.zip y)))
      acc.1.putSteps m.sid m.tile r.1 m.pc none acc.2 row) (s, none)).1).endTag m.sid m.tag

/-- The passes of a strand that must land before an access by lanes of a tile: those whose lanes meet, and those that
stand before them in the same way (R316). -/
def neededPasses (sid : Nat) (t : Option Nat) : List MatPass → Lanes → List MatPass
  | [], _ => []
  | q, lanes =>
    (q.foldr (fun m (acc : List MatPass × Lanes) =>
      if m.sid == sid && (t.isNone || t == some m.tile) && m.lanes &&& acc.2 != 0 then (m :: acc.1, acc.2 ||| m.lanes)
      else acc) ([], lanes)).1

/-- Let passes land before an access of tile t by lanes. -/
def State.drainTile (s : State) (sid t : Nat) (lanes : Lanes) : State :=
  (neededPasses sid (some t) s.matQ lanes).foldl State.applyPass s

/-- Let every pass of a strand land (R324). -/
def State.drainStrand (s : State) (sid : Nat) : State :=
  (s.matQ.filter fun m => m.sid == sid).foldl State.applyPass s

/-- Let the passes land that write the tile whose image a location lies in, or whose modes and flags lie there: an access of a strand
to its own image (R69, R316). -/
def State.drainAt (s : State) (sid : Nat) (l : Loc) : State :=
  if s.matQ.isEmpty then s
  else
    match l with
    | .mem pa =>
      match s.imageAt pa with
      | some (o, i) =>
        let st := s.strand sid
        if o != sid then s
        else if st.fixed + 4608 ≤ i then s.drainTile sid ((i - st.fixed - 4608) / 2560) (BitVec.allOnes 128)
        else if i / 2 * 2 == st.ctlIx ctlACCMODE then s.drainStrand sid
        else s
      | none => s
    | _ => s

end Sys2Proof.Machine
end

