-- ==== Sys2Proof/Machine/Directory.lean ====
section
/-! DEFINITION. The home slices' directory: which caches hold a line and in what state, and its units of tracking (R395 to R397).
Words are kept in one place in the model; the directory says which caches hold copies of them. -/
namespace Sys2Proof.Machine

/-- Bytes of a cache line. -/
def lineBytes : Nat := 128

/-- The cache number of the host. -/
def hostCache : Nat := 516

/-- The entries of a line. -/
def State.holders (s : State) (line : Nat) : List DirEnt := s.dir.filter fun d => d.line == line

/-- The line is on a software-managed unit of device memory, and is not tracked (R398). -/
def State.untracked (s : State) (line : Nat) : Bool := line * lineBytes < deviceBytes && s.unitSm (line * lineBytes)

/-! ### Units of tracking (R397) -/

/-- Bytes of a region. -/
def regionSize : Nat := 65536

/-- The unit that a byte address lies in. -/
def State.dirUnit (s : State) (a : Nat) : Nat × Nat :=
  match s.dirUnits.find? fun u => u.1 ≤ a && a < u.1 + u.2.1 with
  | some u => (u.1, u.2.1)
  | none => (a / regionSize * regionSize, regionSize)

/-- The entries of lines of a unit. -/
def State.unitEnts (s : State) (base size : Nat) : List DirEnt :=
  s.dir.filter fun d => base ≤ d.line * lineBytes && d.line * lineBytes < base + size

/-- What a summary entry says of a unit (R397): nothing is held, one cache holds it, or a set of caches shares it. -/
inductive Summary where
  | empty
  | one (cache : Nat)
  | shared (caches : List Nat)
  deriving DecidableEq, Repr

/-- The set of caches that hold a line. -/
def holderSet (es : List DirEnt) (line : Nat) : List Nat := (es.filter fun d => d.line == line).map DirEnt.cache

/-- Two sets of caches are the same. -/
def sameSet (a b : List Nat) : Bool := a.all b.contains && b.all a.contains

/-- A summary describes a unit: one cache at most holds its lines, or they are held only in S by one set of caches. -/
def describable (es : List DirEnt) : Bool :=
  match es with
  | [] => true
  | d :: _ =>
    (es.all fun e => e.cache == d.cache)
      || ((es.all fun e => e.st == .s) && es.all fun e => sameSet (holderSet es e.line) (holderSet es d.line))

/-- The summary of a unit that one entry describes. -/
def summaryOf (es : List DirEnt) : Option Summary :=
  match es with
  | [] => some .empty
  | d :: _ =>
    if es.all fun e => e.cache == d.cache then some (.one d.cache)
    else if describable es then some (.shared (holderSet es d.line))
    else none

/-- Two units carry equal summaries (R397). -/
def sameSummary (a b : List DirEnt) : Bool :=
  match summaryOf a, summaryOf b with
  | some (.shared x), some (.shared y) => sameSet x y
  | some x, some y => x == y
  | _, _ => false

/-- Split units in halves until the one that holds the line can be described, down to single lines; each split counts at the
home's cluster. -/
def State.splitFor (s : State) (a : Nat) : Nat → State
  | 0 => s
  | n + 1 =>
    let (b, k) := s.dirUnit a
    if k ≤ lineBytes || describable (s.unitEnts b k) then s
    else
      let r := rSPLITS (b / stackBytes / 2)
      ({ s.setReg r (s.reg r + 1) with
        dirUnits := s.dirUnits.filter (fun (u : Nat × Nat × Nat) => u.1 != b) ++ [(b, k / 2, s.clock), (b + k / 2, k / 2, s.clock)] }).splitFor a n

/-- A unit has seen a request. -/
def State.touchUnit (s : State) (a : Nat) : State :=
  { s with dirUnits := s.dirUnits.map fun u => if u.1 ≤ a && a < u.1 + u.2.1 then (u.1, u.2.1, s.clock) else u }

/-! ### Requests, notices and probes (R395, R396) -/

/-- What another cache keeps when a cache asks for a shared copy. -/
def sharedState : Moesi → Moesi
  | .m => .o
  | .o => .o
  | .e => .s
  | .s => .s

/-- Grant a shared copy: alone it is E. -/
def State.grantShared (s : State) (cache line : Nat) : State :=
  let others := (s.holders line).filter fun d => d.cache != cache
  if (s.holders line).any fun d => d.cache == cache then s
  else
    { s with dir := (s.dir.map fun d => if d.line == line then { d with st := sharedState d.st } else d)
        ++ [⟨line, cache, if others.isEmpty then .e else .s⟩] }

/-- Grant M: every other copy is invalidated first. -/
def State.grantModified (s : State) (cache line : Nat) : State :=
  { s with dir := s.dir.filter (fun (d : DirEnt) => d.line != line) ++ [⟨line, cache, .m⟩] }

/-- A cache that the directory of a line may name: a core's L1, the host, or the L2 slices of a cluster other than the home's
(R395). -/
def mayHold (cache line : Nat) : Bool :=
  cache ≤ 516 && !(512 ≤ cache && cache < 516 && line < hostLine && line * lineBytes / stackBytes / 2 == cache - 512)

/-- A cache's copy already has the state that a request asks for. -/
def State.granted (s : State) (cache line : Nat) (req : CohReq) : Bool :=
  s.dir.any fun d => d.line == line && d.cache == cache && (req == .shared || d.st == .m)

/-- A request of a cache for a line of hardware-coherent memory. -/
def State.cohRequest (s : State) (cache line : Nat) (req : CohReq) : State :=
  if s.untracked line || !mayHold cache line || s.granted cache line req then s
  else
    let s := match req with
      | .shared => s.grantShared cache line
      | .modified => s.grantModified cache line
    if line < hostLine then (s.touchUnit (line * lineBytes)).splitFor (line * lineBytes) 9 else s

/-- The line of hardware-coherent memory that a location lies on; register images are not lines of an L1 (R159). -/
def State.cohLine (s : State) (l : Loc) : Option Nat :=
  match l with
  | .mem pa => if (s.imageAt pa).isSome then none else some (pa / lineBytes)
  | .host pa => some (hostLine + pa / lineBytes)
  | _ => none

/-- An agent without a cache of its own reads or writes a line at its home: a write is performed once every copy has been invalidated,
and a read leaves the only copy shared (R395). -/
def State.homeAccess (s : State) (line : Nat) (req : CohReq) : State :=
  if s.dir.all fun d => d.line != line then s
  else
    match req with
    | .modified => { s with dir := s.dir.filter fun d => d.line != line }
    | .shared => { s with dir := s.dir.map fun d => if d.line == line then { d with st := sharedState d.st } else d }

/-- An access to a location of hardware-coherent memory: a core's brings the line into its L1, in the state that the access needs;
another agent's is made at the home (R395). -/
def State.cacheAccess (s : State) (core : Option Nat) (l : Loc) (req : CohReq) : State :=
  match s.cohLine l with
  | none => s
  | some line =>
    match core with
    | some k => s.cohRequest k line req
    | none => s.homeAccess line req

end Sys2Proof.Machine
end

