-- ==== Sys2Proof/Machine/Access.lean ====
section
/-! DEFINITION. Accesses through translated places: copies of software-managed lines (R166), register blocks reached by physical
address (R383), the strand's held bytes (R137), and the loads and stores of a strand (R154, R155, R158, R330). -/
namespace Sys2Proof.Machine

/-! ### Requests to another device (R189, R465) -/

/-- Sequence numbers (R464). -/
def seqCount : Nat := 2 ^ 24

/-- Send a request to the home of a location of another device: it is outstanding until answered, and is retransmitted; its number is
none that is still outstanding toward that home from that station (R189). -/
def State.sendRemote (s : State) (l : Loc) (stn : Nat) (what : OutFor) : State :=
  let dev := match l with | .rem d _ => d | _ => 0
  let key := s.homeOf l * 16 + stn
  let n := (aget s.nextReq key).getD 0
  let free (i : Nat) : Bool := !(s.outReqs.any fun q => q.id == key * seqCount + i)
  let seq := (((List.range (s.outReqs.length + 1)).map fun i => (n + i) % seqCount).find? free).getD n
  { s with
    outReqs := s.outReqs ++ [⟨key * seqCount + seq, false, true, dev, stn, what, s.ptime, s.ptime, 0⟩]
    nextReq := aput s.nextReq key ((seq + 1) % seqCount)
    outbox := s.outbox ++ [.request dev stn seq what] }

/-- The station that serves a location of another device; none where no path does (R465). -/
def State.stationOf (s : State) (l : Loc) : Option Nat :=
  match l with
  | .rem d pa => s.stationFor d pa
  | _ => none

/-- Send what is for another device to the home of a location there; none where no path serves it (R465). -/
def State.sendTo (s : State) (l : Loc) (what : OutFor) : Option State := (s.stationOf l).map fun k => s.sendRemote l k what

/-- Send a store to another device's memory; false where no path serves it. -/
def State.sendStore (s : State) (w : RemStore) : State × Bool :=
  match s.sendTo w.place.loc (.store w) with
  | some s => (s, true)
  | none => (s, false)

/-- The location that a request acts on. -/
def OutFor.target : OutFor → Loc
  | .packet p => p.place.loc
  | .tile t => (t.places.headD default).loc
  | .store w => w.place.loc
  | .arrival a => a.place.loc
  | .home o => o.place.loc

/-- Something is performed or read on a line of another device: what a reply still due says of the line is old (R190). -/
def State.staleReqs (s : State) (l : Loc) : State :=
  if s.outReqs.isEmpty then s
  else { s with outReqs := s.outReqs.map fun q => if q.what.target.align 128 == l.align 128 then { q with fresh := false } else q }

/-! ### Software-managed copies (R166) -/

/-- The copy a cluster holds of the line at a location. -/
def State.smCopy (s : State) (clu : Nat) (l : Loc) : Option SmCopy :=
  s.smCopies.find? fun c => c.clu == clu && c.loc == l.align lineBytes

/-- Replace or add a copy. -/
def State.putCopy (s : State) (c : SmCopy) : State :=
  { s with smCopies := c :: s.smCopies.filter fun d => !(d.clu == c.clu && d.loc == c.loc) }

/-- A fresh copy of the line at a location. -/
def State.fillCopy (s : State) (clu : Nat) (l : Loc) : SmCopy :=
  let base := l.align lineBytes
  let m := ((List.range 32).zip (s.getWords base 32)).foldl
    (fun (m : Mem) w => m.setWord (4 * w.1) 15 w.2) ⟨[], []⟩
  ⟨clu, base, m.cells, m.marks, []⟩

/-- The dirty words of a copy: place, byte enables, word. -/
def SmCopy.words (c : SmCopy) : List (Loc × Nat × MWord) :=
  ((List.range 32).map fun i =>
    (c.loc.add (4 * i), ((List.range 4).filter fun j => (aget c.dirty (4 * i + j)).isSome).foldl (fun a j => a + 2 ^ j) 0,
      Mem.word ⟨c.bytes, c.marks⟩ (4 * i))).filter fun w => w.2.1 != 0

/-- Write a copy's dirty bytes back to the line; to another device's memory they leave as a request, and stay dirty where no path leads
there. -/
def State.writeBack (s : State) (c : SmCopy) : State :=
  if c.words.isEmpty then s
  else if c.loc.remote then
    match s.sendStore ⟨none, 0, 0, 0, s.tick, 0x0C, ⟨c.loc, 1, true⟩, c.words, false, []⟩ with
    | (s, true) => s.putCopy { c with dirty := [] }
    | (s, false) => s
  else (c.words.foldl (fun s w => s.putW w.1 w.2.1 w.2.2) s).putCopy { c with dirty := [] }

/-- Drop a copy. -/
def State.dropCopy (s : State) (clu : Nat) (l : Loc) : State :=
  { s with smCopies := s.smCopies.filter fun d => !(d.clu == clu && d.loc == l.align lineBytes) }

/-! ### Words through a place -/

/-- Read a word of a register block: RC fields in the half read are cleared in the same step (R5, R383). -/
def State.readRegWord (s : State) (a : Agent) (l : Loc) : State × MWord :=
  let w := s.regWord a l
  match regAt l with
  | some r =>
    let half : Dword := if l.off % 8 < 4 then 0xFFFFFFFF else 0xFFFFFFFF00000000
    if regExists r && regRC r &&& half != 0 then (s.setReg r (s.reg r &&& ~~~(regRC r &&& half)), w) else (s, w)
  | none => (s, w)

/-- Write a word of a register block: the other half keeps its value. -/
def State.writeRegWord (s : State) (a : Agent) (l : Loc) (w : Word) : State :=
  match regAt l with
  | some r =>
    if !regExists r || regReadOnly r then s
    else
      let v := s.reg r
      s.regWrite a r (if l.off % 8 < 4 then join32 w (hiW v) else join32 (loW v) w)
  | none => s

/-- A read of host memory whose completion fails: it is over with that (R467). -/
def State.hostFails (s : State) (l : Loc) : State × Bool :=
  match l with
  | .host pa =>
    if (aget s.hostErr (pa / 128)).isSome then ({ s with hostErr := adel s.hostErr (pa / 128) }, true) else (s, false)
  | _ => (s, false)

/-! ### Scratchpad parity (R162) -/

/-- The core and the scratchpad byte of a location. -/
def State.spadByte (s : State) (l : Loc) : Option (Nat × Nat) :=
  match l with
  | .spad b o => some (s.spadAt b o)
  | .core k o => if 0x180000 ≤ o && o < 0x240000 then some (k, o - 0x180000) else none
  | _ => none

/-- The token of a bank word that cannot be rebuilt (R162). -/
def spadTok : Word := 0x120AFFFF#32

/-- An access to a scratchpad word: where its bank word is in error it is rebuilt from the group, or it becomes poison; both are
counted (R88, R162, R446). -/
def State.checkSpad (s : State) (l : Loc) : State :=
  if s.spadErr.isEmpty then s
  else
    match s.spadByte l with
    | none => s
    | some (k, o) =>
      let row := spadRow o
      let bank := spadBank o
      let a := o / 8 * 8
      if !s.spadBad k row bank then s
      else
        let lost := s.spadLost k row bank
        let d := (s.spad k).rebuilt row bank
        let s := { s with spadErr := adel s.spadErr (spadKey k row bank) }
        if lost then ((s.putSpad k a 15 ⟨spadTok, true⟩).putSpad k (a + 4) 15 ⟨spadTok, true⟩).bump (rUECNT k) 0 32
        else
          let m := s.spad k
          (s.setSpad k ((m.setWord a 15 ⟨loW d, m.marked a⟩).setWord (a + 4) 15 ⟨hiW d, m.marked (a + 4)⟩)).bump (rCECNT k) 0 32

/-! ### A strand's own image (R69, R75) -/

/-- The word of the strand's own image that a location holds, for an access of one of its lanes. -/
def State.ownImage (s : State) (who : Who) (l : Loc) : Option (Nat × Nat) :=
  match who.agent, l with
  | some (sid, _), .mem pa =>
    (match s.imageAt pa with
     | some (o, i) => if o == sid then some (o, i) else none
     | none => none)
  | _, _ => none

/-- A read of a location that is a word of some strand's image checks its parity (R69, R87). -/
def State.checkImage (s : State) (l : Loc) : State :=
  let word := match l with
    | .mem pa => s.imageAt pa
    | .core k o => if o < 0x180000 then s.regionWord k o else none
    | _ => none
  match word with
  | some (sid, i) => s.checkParity sid s.readerPc [i]
  | none => s

/-! ### Writes that other lanes may not have seen (R168, R169) -/

/-- A location under its one name: scratchpad partitions lie in their core's window. -/
def State.plainLoc (s : State) (l : Loc) : Loc :=
  match l with
  | .spad b o => .core (s.spadAt b o).1 (0x180000 + (s.spadAt b o).2)
  | l => l

/-- The word at a location lies where plain writes of one lane may stay unseen by the others for a time: memory and
scratchpads. Image words are left out: what another agent writes to a register word is seen at once, where R70 allows the old value
too (assumption 3). -/
def State.mayLag (s : State) (l : Loc) : Bool :=
  match l with
  | .mem pa => (s.imageAt pa).isNone
  | .host _ => true
  | .core _ o => 0x180000 ≤ o && o < 0x240000
  | _ => false

/-- The entry of a word that some agent may not have seen as written. -/
def State.lagAt (s : State) (l : Loc) : Option Lag := s.lags.find? fun g => g.loc == l

/-- An entry is of a location, or one 8-byte access wrote it with the word there (R158). -/
def Lag.with (g : Lag) (l : Loc) : Bool := g.loc == l || (g.pair && g.loc.align 8 == l.align 8)

/-- Every agent sees what a location holds, and what was written with it by one access. -/
def State.showLoc (s : State) (l : Loc) : State :=
  if s.lags.isEmpty then s
  else
    let l := s.plainLoc l
    match s.lagAt l with
    | none => s
    | some g => { s with lags := s.lags.filter fun x => x.loc != l && !(g.pair && x.with l) }

/-- A read of a word that another lane has written without order: the old value, or the new one, which every agent sees from
then on; the words of one 8-byte write alike (R158, R168, R169, R174). -/
def State.lagRead (s : State) (who : Who) (p : Place) (w : MWord) : State × MWord :=
  match s.lagAt (s.plainLoc p.loc) with
  | none => (s, w)
  | some g =>
    match who.agent with
    | none => (s.showLoc p.loc, w)
    | some a =>
      let key := if g.pair then p.loc.off / 8 * 8 else p.loc.off
      if a = g.writer then (s, w)
      else if a.2 < 128 && Config.choice s.tick key % 2 == 1 then (s, g.old)
      else (s.showLoc p.loc, w)

/-- A plain write of a lane, noted until another agent sees it or a fence orders it; writes to strongly ordered pages and writes of
other agents are seen at once (R168, R170). -/
def State.lagWrite (s : State) (who : Who) (p : Place) : State :=
  match who.agent with
  | none => s.showLoc p.loc
  | some a =>
    let l := s.plainLoc p.loc
    if a.2 < 128 && p.ord != 0 && s.mayLag l then
      match s.lagAt l with
      | some g => if g.writer = a then s else { s.showLoc l with lags := ⟨l, s.getW p.loc, a, false⟩ :: (s.showLoc l).lags }
      | none => { s with lags := ⟨l, s.getW p.loc, a, false⟩ :: s.lags }
    else s.showLoc p.loc

/-- The two words of a doubleword were written by one access: another agent sees both or neither (R158). -/
def State.pairLags (s : State) (l : Loc) : State :=
  if s.lags.isEmpty then s
  else
    let l := (s.plainLoc l).align 8
    { s with lags := s.lags.map fun g => if g.loc.align 8 == l then { g with pair := true } else g }

/-- The writes of lanes of a strand are seen by every agent: a fence, a release or a strand's move (R62, R172). -/
def State.showLanes (s : State) (sid : Nat) (m : Lanes) : State :=
  if s.lags.isEmpty then s else { s with lags := s.lags.filter fun g => !(g.writer.1 == sid && m.getLsbD g.writer.2) }

/-! ### Lines that L2 does not hold as written (R227) -/

/-- A core writes a line of hardware-coherent memory in its L1: what L2 and memory hold of it may stay behind until the line is
written back. -/
def State.noteOld (s : State) (core : Option Nat) (l : Loc) : State :=
  match core, l with
  | some k, .mem pa =>
    if (s.imageAt pa).isSome then s
    else
      let b := l.align lineBytes
      (match s.oldLines.find? fun o => o.loc == b with
       | some o => { s with oldLines := ⟨k, b, o.old⟩ :: s.oldLines.filter fun o => o.loc != b }
       | none => { s with oldLines := ⟨k, b, s.getWords b 32⟩ :: s.oldLines })
  | _, _ => s

/-- A line is written back: L2 and memory hold it as written. -/
def State.lineClean (s : State) (l : Loc) : State := { s with oldLines := s.oldLines.filter fun o => o.loc != l.align lineBytes }

/-- A word as a fetch finds it in L2 or memory: of a line that a core has not written back, by a free choice what it was before
(R227). -/
def State.fetchW (s : State) (l : Loc) : Word :=
  match s.oldLines.find? fun o => o.loc == l.align lineBytes with
  | none => (s.getW l).data
  | some o =>
    if Config.choice s.tick (l.off / lineBytes) % 2 = 0 then (o.old.getD (l.off % lineBytes / 4) ⟨0, false⟩).data
    else (s.getW l).data

/-! ### Words through a place -/

/-- What an access finds at a place: a line of a retired position, a scratchpad word in error, copies of the line in caches, and
requests whose replies are due. -/
def State.touch (s : State) (who : Who) (l : Loc) (req : CohReq) : State :=
  ((((s.touchRetired l).checkSpad l).checkImage l).cacheAccess who.core l req).staleReqs l

/-- Read a word of hardware-coherent memory, or one that no cache of the agent serves. -/
def State.readHC (s : State) (who : Who) (p : Place) : State × MWord :=
  let (s, failed) := (s.touch who p.loc .shared).hostFails p.loc
  let w := if failed then ⟨hostTok, true⟩ else s.getW p.loc
  match s.ownImage who p.loc with
  | some (sid, i) => (s, if w.mark then w else ⟨w.data &&& ((s.strand sid).ownKinds i).1, false⟩)
  | none => s.lagRead who p w

/-- Write bytes of a word of hardware-coherent memory, or of one that no cache of the agent serves. -/
def State.writeHC (s : State) (who : Who) (p : Place) (be : Nat) (w : MWord) : State :=
  match s.ownImage who p.loc with
  | some (sid, i) =>
    let m := ((s.strand sid).ownKinds i).2
    if m = 0 then s
    else s.putW p.loc be { w with data := (w.data &&& m) ||| (((s.strand sid).word i).data &&& ~~~m) }
  | none =>
    let s := s.touch who p.loc .modified
    let s := if who.core.isNone then s.lineClean p.loc else s.noteOld who.core p.loc
    (s.lagWrite who p).putW p.loc be w

/-- Read the aligned word at a place, as an agent does. -/
def State.readW (s : State) (who : Who) (p : Place) : State × MWord :=
  if (regAt p.loc).isSome then s.readRegWord (.ctx who.ctx) p.loc
  else
    match p.sm, who.core with
    | true, some k =>
      (match s.smCopy (k / 128) p.loc with
       | some c => (s, Mem.word ⟨c.bytes, c.marks⟩ (p.loc.off % lineBytes))
       | none =>
         let (s, failed) := (s.touchRetired p.loc).hostFails p.loc
         let w := if failed then ⟨hostTok, true⟩ else s.getW p.loc
         if failed || Config.choice s.tick p.loc.off % 2 = 0 then (s, w) else (s.putCopy (s.fillCopy (k / 128) p.loc), w))
    | _, _ => s.readHC who p

/-- Write bytes of the aligned word at a place, as an agent does. -/
def State.writeW (s : State) (who : Who) (p : Place) (be : Nat) (w : MWord) : State :=
  if (regAt p.loc).isSome then s.writeRegWord (.ctx who.ctx) p.loc w.data
  else
    match p.sm, who.core with
    | true, some k =>
      let c := (s.smCopy (k / 128) p.loc).getD (s.fillCopy (k / 128) p.loc)
      let o := p.loc.off % lineBytes
      let m := Mem.setWord ⟨c.bytes, c.marks⟩ o be w
      let dirty := ((List.range 4).filter fun j => be.testBit j).foldl (fun d j => aput d (o + j) ()) c.dirty
      s.putCopy { c with bytes := m.cells, marks := m.marks, dirty := dirty }
    | _, _ => s.writeHC who p be w

/-- The place some bytes further on. -/
def placeAdd (p : Place) (n : Nat) : Place := { p with loc := p.loc.add n }

/-! ### The locket as memory (R137) -/

/-- The held bytes of a strand over a word, later entries on top: the data, a mask of the bytes held, and whether a held
word is marked. -/
def Strand.heldOver (st : Strand) (l : Loc) (w : Word) : Word × Nat × Bool :=
  st.locket.foldl (fun acc e =>
    if e.poison || e.place.loc != l.align lineBytes then acc
    else
      let o := l.off % lineBytes
      let be := (List.range 4).foldl (fun b j => if (aget e.bytes (o + j)).isSome then b + 2 ^ j else b) 0
      if be = 0 then acc
      else
        let held : Word := (Mem.word ⟨e.bytes, []⟩ o).data
        (mergeBytes acc.1 held be, acc.2.1 ||| be, (aget e.marks o).isSome)) (w, 0, false)

/-- The entry that holds the line at a location: later stores of the region merge into it (R137). -/
def lineEntry (l : List LkEntry) (base : Loc) : Option Nat := l.findIdx? fun e => !e.poison && e.place.loc == base

/-- Entries that a partition's locket holds (R137). -/
def lockedEntries : Nat := 64

/-- Where a new entry of a strand goes: into its partition's locket (`false`), into a free slot of 192 bytes of the context's spill
area (`true`), or nowhere, for want of a slot or at 256 entries (R137, R377). -/
def State.lkRoom (s : State) (sid : Nat) : Option Bool :=
  let st := s.strand sid
  let entries (p : Nat × Strand → Bool) : List LkEntry := (s.strands.filter p).flatMap fun e => e.2.locket
  let near (e : Nat × Strand) : Bool := e.2.slot.map (·.1) == st.slot.map (·.1) && s.coreOf e.1 == s.coreOf sid
  if 256 ≤ st.locket.length then none
  else if ((entries near).filter fun e => !e.spilled).length < lockedEntries then some false
  else if ((entries fun e => e.2.ctx == st.ctx).filter LkEntry.spilled).length < (s.desc st.ctx 3).toNat / 192 then some true
  else none

/-- Put bytes of a word into the strand's locket: into the entry of the line, or a new one where there is room; none where
there is not (R137). `e` says who stores: pc, lane, instruction, address, release, scope, tile and the request. -/
def Strand.holdWord (st : Strand) (room : Option Bool) (e : LkEntry) (p : Place) (be : Nat) (w : MWord) : Option Strand :=
  let base := p.loc.align lineBytes
  let o := p.loc.off % lineBytes
  let put (x : LkEntry) : LkEntry :=
    { x with
      bytes := ((List.range 4).filter fun j => be.testBit j).foldl (fun b j => aput b (o + j) (byteOf w.data j)) x.bytes
      marks := if w.mark then aput x.marks o () else adel x.marks o
      rel := x.rel || e.rel
      tile := e.tile.or x.tile
      row := x.row || e.row
      reqs := x.reqs ++ e.reqs
      scope := if x.scope.toNat < e.scope.toNat then e.scope else x.scope }
  match lineEntry st.locket base, room with
  | some i, _ => some (st.setLocket (st.locket.modify i put))
  | none, none => none
  | none, some sp =>
    some (st.setLocket (st.locket ++ [put { e with
      poison := false, tok := 0, line := e.line &&& 0xFFFFFFFFFFFFFF80, place := { p with loc := base }, bytes := [], marks := [],
      reqs := [], spilled := sp }]))

/-- Put a poison entry into the locket (R135); none where there is no room. -/
def Strand.holdPoison (st : Strand) (room : Option Bool) (tok : Word) (pc : Dword) (lane : Nat) : Option Strand :=
  room.map fun sp =>
    st.setLocket (st.locket ++ [{ (default : LkEntry) with poison := true, tok := tok, pc := pc, lane := lane, spilled := sp }])

/-! ### Loads (R330) -/

/-- What a marked word gives a reader: its token, or under RECORD 0xFFFF the same cause and origin under a new record
(R130). -/
def markedVal (t : Word) (addr : Dword) : ReplyVal :=
  if tokRecord t = 0xFFFF then .bad (tokCause t) (tokOrigin t) addr else .tok t

/-- Bytes of an access of `size` bytes that lie in its word i: the byte enables. -/
def enables (addr : Dword) (size i : Nat) : Nat :=
  if size = 8 then 15 else if i = 0 then (2 ^ size - 1) * 2 ^ (addr.toNat % 4) else 0

/-- Read the words of an aligned access at a place; the first poisoned word decides (R130). -/
def State.readPart (s : State) (who : Who) (held : Strand) (addr : Dword) (size : Nat) (p : Place) : State × ReplyVal :=
  let p0 : Place := { p with loc := p.loc.align 4 }
  let one (s : State) (q : Place) (be : Nat) : State × MWord :=
    let (s, w) := s.readW who q
    let (h, m, hm) := held.heldOver q.loc w.data
    (s, if w.mark && be &&& m != be then w else ⟨h, hm⟩)
  if size = 8 then
    let (s, lo) := one s p0 15
    let (s, hi) := one s (placeAdd p0 4) 15
    match pairTok lo hi with
    | some t => (s, markedVal t addr)
    | none => (s, .words [lo.data, hi.data])
  else
    let (s, w) := one s p0 (enables addr size 0)
    if w.mark then (s, markedVal w.data addr)
    else (s, .words [BitVec.ofNat 32 (w.data.toNat / 2 ^ (8 * (addr.toNat % 4)) % 2 ^ (8 * size))])

/-- A read of another device's memory, which no copy here serves, may go unanswered, or its answer may arrive in a beat that fails its
check, by a free choice (R153 causes 0x18 and 0x3F, R464; assumption 61). -/
def State.readFails (s : State) (p : Place) : Option (BitVec 8) :=
  if !p.loc.remote || p.sm then none
  else
    match Config.choice s.tick 0x180000 % 3 with
    | 1 => some 0x18
    | 2 => some 0x3F
    | _ => none

/-- A load of 1, 2, 4 or 8 bytes by a lane of a strand: alignment, translation, then its own held bytes over memory; `q` is the request
that latency samples count (R461). -/
def State.load (s : State) (sid lane : Nat) (addr : Dword) (size : Nat) (q : Option LaneReq) : State × ReplyVal :=
  if addr.toNat % size != 0 then (s, .bad 0x08 0x02 addr)
  else
    match s.translate (s.whoOf sid) .read addr with
    | (s, .error c) => (s, .bad c 0x02 addr)
    | (s, .ok p) =>
      let s := s.drainAt sid p.loc
      match s.readFails p with
      | some c => (s, .bad c 0x0C addr)
      | none =>
        let (s, v) := s.readPart (s.whoLane sid lane) (s.strand sid) addr size p
        (match q with | some q => s.sample sid q p.loc false | none => s, v)

/-- Consecutive 8-byte loads of a lane; the doublewords, or what stopped the first that failed. -/
def State.loadDwords (s : State) (sid lane : Nat) (addr : Dword) : Nat → State × Except ReplyVal (List Dword)
  | 0 => (s, .ok [])
  | n + 1 =>
    match s.load sid lane addr 8 none with
    | (s, .words [lo, hi]) =>
      (match s.loadDwords sid lane (addr + 8) n with
       | (s, .ok ds) => (s, .ok (join32 lo hi :: ds))
       | r => r)
    | (s, v) => (s, .error v)

/-! ### Stores (R330) -/

/-- Write the words of an aligned access at a place. -/
def State.writeBytes (s : State) (who : Who) (addr : Dword) (size : Nat) (p : Place) (v : Dword) : State :=
  let p0 : Place := { p with loc := p.loc.align 4 }
  if size = 8 then
    match regAt p.loc with
    | some r => if regExists r && !regReadOnly r then s.regWrite (.ctx who.ctx) r v else s
    | none => ((s.writeW who p0 15 ⟨loW v, false⟩).writeW who (placeAdd p0 4) 15 ⟨hiW v, false⟩).pairLags p0.loc
  else s.writeW who p0 (enables addr size 0) ⟨loW v <<< (8 * (addr.toNat % 4)), false⟩

/-- The words of an access of `size` bytes at an aligned place, with their byte enables. -/
def partWords (l : Loc) (addr : Dword) (size : Nat) (v : Dword) : List (Loc × Nat × MWord) :=
  if size = 8 then [(l, 15, ⟨loW v, false⟩), (l.add 4, 15, ⟨hiW v, false⟩)]
  else [(l, enables addr size 0, ⟨loW v <<< (8 * (addr.toNat % 4)), false⟩)]

/-- A place of another device's memory that no copy in a cluster serves: an access there is a request (R166, R394). -/
def goesOut (who : Who) (p : Place) : Bool := p.loc.remote && !(p.sm && who.core.isSome)

/-- Write the words of an aligned access at a place: here at once, and to another device's memory as a request; false where no path
leads there (R189, R465). `sid` is the strand whose lane it is, which fails with the request. -/
def State.writeOut (s : State) (who : Who) (sid : Option Nat) (q : LaneReq) (addr : Dword) (size : Nat) (p : Place) (v : Dword)
    (count : Bool) : State × Bool :=
  if goesOut who p then
    let l := p.loc.align 4
    s.sendStore ⟨sid, q.lane, q.pc, addr, s.tick, 0x0C, { p with loc := l }, partWords l addr size v, false, if count then [q] else []⟩
  else
    let s := s.writeBytes who addr size p v
    (match sid with | some i => if count then s.sample i q p.loc false else s | none => s, true)

/-- The outcome of one lane's effect beyond the strand: performed, a poison entry with a token or a fresh fault, or a
deferred trap. -/
inductive Eff where
  | done
  | tok (t : Word)
  | bad (cause origin : BitVec 8) (addr : Dword)
  | trap (cause : BitVec 8) (addr : Dword)
  deriving DecidableEq, Repr

/-- A write of `size` bytes by a strand to a live-in register's image address is refused (R140). -/
def State.hitsLiveIn (s : State) (sid : Nat) (l : Loc) (size : Nat) : Bool :=
  match l with
  | .mem pa =>
    match s.imageAt pa with
    | some (o, i) => o == sid && (List.range ((size + 3) / 4)).any fun j => (s.strand sid).liveInWord (i + j)
    | none => false
  | _ => false

/-! ### Accesses that have not been performed (R168 to R172) -/

/-- Origins of the engines' faults: a core's, and the collective one (R127, R354). -/
def engineOrigin (o : BitVec 8) : Bool := o == 0x07 || o == 0x08

/-- An access that a strand has issued and that has not been performed: its lane, or 128 for its fragment, its place, and whether
it acquires. -/
structure Waiting where
  lane : Nat
  place : Place
  acq : Bool
  deriving DecidableEq, Repr

/-- The accesses of a strand that are still to be performed: packets and arrivals on their way or at a clasp, requests to other devices,
and tile stores that drain. -/
def State.unperformed (s : State) (sid : Nat) : List Waiting :=
  let packet (p : Packet) : List Waiting :=
    match p.src with
    | .strand i _ lane _ _ _ => if i = sid then [⟨lane, p.place, p.acq⟩] else []
    | _ => []
  let tile (t : TileOp) : List Waiting := if t.sid = sid && !t.load then t.places.map fun p => ⟨128, p, false⟩ else []
  s.packets.flatMap packet
    ++ s.strands.flatMap (fun e => match e.2.clasp with | some r => packet r.pkt | none => [])
    ++ (s.arrivals.filter fun a => a.sid == sid).map (fun a => ⟨128, a.place, false⟩)
    ++ s.tileOps.flatMap tile
    ++ (s.outReqs.filter fun q => !q.done).flatMap fun q =>
      match q.what with
      | .packet p => packet p
      | .tile t => tile t
      | .store w =>
        if engineOrigin w.origin then [] else
        (match w.sid with
         | some i => if i = sid then w.words.map fun x => ⟨w.lane, { w.place with loc := x.1 }, false⟩ else []
         | none => w.words.map fun x => ⟨128, { w.place with loc := x.1 }, false⟩)
      | .arrival a => if a.sid = sid then [⟨128, a.place, false⟩] else []
      | .home _ => []

/-- Every access of lanes that a strand has issued has been performed, and every agent sees what they wrote: what a release, a
barrier's arrival or a fence waits for (R172, R344). -/
def State.allDone (s : State) (sid : Nat) (m : Lanes) : Bool :=
  (s.unperformed sid).all fun x => x.lane < 128 && !m.getLsbD x.lane

/-- An access of a lane must follow one that is still to be performed (R169, R170): that one acquires, this one releases, both lie
on strongly ordered pages, or they share a line. -/
def mustFollow (lane : Nat) (p : Place) (rel : Bool) (x : Waiting) : Bool :=
  (x.lane == lane || x.lane == 128 || lane == 128) &&
    ((x.acq && x.place.ord != 2) || (rel && p.ord != 2) || (x.place.ord == 0 && p.ord == 0)
      || x.place.loc.align lineBytes == p.loc.align lineBytes)

/-- Every agent sees what the words of a line hold. -/
def State.showLine (s : State) (l : Loc) : State :=
  if s.lags.isEmpty then s
  else { s with lags := s.lags.filter fun g => g.loc.align lineBytes != (s.plainLoc l).align lineBytes }

/-- An agent of no core, at a home. -/
def homeWho : Who := ⟨0, false, none, none, 0, none⟩

/-- The cluster of a strand's core. -/
def State.clusterOf (s : State) (sid : Nat) : Option Nat := if (s.strand sid).clasp.isSome then none else some (s.coreOf sid / 128)

/-- A cluster gives up its copy of a software-managed line. -/
def State.giveUp (s : State) (clu : Option Nat) (p : Place) : State :=
  match p.sm, clu with
  | true, some c => (match s.smCopy c p.loc with | some x => (s.writeBack x).dropCopy c p.loc | none => s)
  | _, _ => s

/-- An operation is performed at the home of a place, on behalf of an agent of a cluster: the cluster gives up its copy of a
software-managed line, what lanes have written on the line is seen by every agent, and every other copy is gone where the operation
writes (R30, R169, R395). -/
def State.homeTouch (s : State) (clu : Option Nat) (p : Place) (req : CohReq) : State :=
  let s := ((s.showLine p.loc).giveUp clu p).touch homeWho p.loc req
  if req == .modified then s.lineClean p.loc else s

/-- The line that a clasp's strand holds a copy of: its writes there take effect at EXIT (R479). -/
def Strand.onClaspLine (st : Strand) (l : Loc) : Bool :=
  match st.clasp with
  | some r => l.align lineBytes == r.pkt.place.loc.align lineBytes
  | none => false

/-- A store of `size` bytes by a lane of a strand: held while a region is open, else performed (R138). `count`: it is a request that
latency samples count (R461). DESIGN CHOICE: of a store instruction whose lines do not all find an entry, the lanes whose line finds
one are held, and the others take the trap (assumption 96). -/
def State.store (s : State) (sid : Nat) (q : LaneReq) (addr : Dword) (size : Nat) (v : Dword) (rel : Bool) (scope : BitVec 3)
    (count : Bool) : State × Eff :=
  if addr.toNat % size != 0 then (s, .bad 0x08 0x02 addr)
  else
    match s.translate (s.whoOf sid) .write addr with
    | (s, .error c) => (s, .bad c 0x02 addr)
    | (s, .ok p) =>
      let s := s.drainAt sid p.loc
      let st := s.strand sid
      if !st.regionOpen && !st.onClaspLine p.loc then
        match s.writeOut (s.whoLane sid q.lane) (some sid) q addr size p v count with
        | (s, true) => (s, .done)
        | (s, false) => (s, .bad 0x17 0x0C addr)
      else if st.regionOpen && s.hitsLiveIn sid p.loc size then (s, .trap 0x4D addr)
      else
        let e : LkEntry := { (default : LkEntry) with
          pc := q.pc, lane := q.lane, tag := s.tick, line := addr, rel := rel, scope := scope }
        let r := ((partWords (p.loc.align 4) addr size v).zipIdx).foldl (fun (st : Option Strand) w =>
          st.bind fun st => st.holdWord (s.lkRoom sid) { e with reqs := if count && w.2 == 0 then [q] else [] }
            { p with loc := w.1.1 } w.1.2.1 w.1.2.2) (some st)
        match r with
        | some st => (s.setStrand sid st, .done)
        | none => (s, .trap 0x4C addr)

/-! ### Accesses of a context, with no strand's locket (R358, R359) -/

/-- Write a doubleword through a context's translation; false when it was skipped. -/
def State.ctxWrite (s : State) (ctx : Nat) (addr v : Dword) : State × Bool :=
  if addr.toNat % 8 != 0 then (s, false)
  else
    match s.translate (s.whoCtx ctx) .write addr with
    | (s, .ok p) => s.writeOut (s.whoCtx ctx) none default addr 8 p v false
    | (s, .error _) => (s, false)

/-- Add to a doubleword at its home through a context's translation: the old value, or none when it was skipped or the
word is poisoned. -/
def State.ctxAdd (s : State) (ctx : Nat) (addr v : Dword) : State × Option Dword :=
  if addr.toNat % 8 != 0 then (s, none)
  else
    match s.translate (s.whoCtx ctx) .read addr with
    | (s, .error _) => (s, none)
    | (s, .ok _) =>
      match s.translate (s.whoCtx ctx) .write addr with
      | (s, .error _) => (s, none)
      | (s, .ok p) =>
        if (regAt p.loc).isSome then (s, none) else
        let s := (s.touch (s.whoCtx ctx) p.loc .modified).lineClean p.loc
        match s.getD64 p.loc with
        | (old, none) => (s.putD64 p.loc (old + v), some old)
        | (_, some _) => (s, none)

end Sys2Proof.Machine
end

