-- ==== Sys2Proof/Machine/Split.lean ====
section
/-! DEFINITION. Program counters and instruction units (R197, R198); the split table: fragments, groups, reconvergence
and fusion (R38 to R43); its image form (R74). -/
namespace Sys2Proof.Machine

/-! ### Program counters (R197, R198) -/

/-- The PC is invalid (R197). -/
def pcInvalid (pc : Dword) : Bool := 5 ≤ fld pc 0 3 || fld pc 3 3 != 0 || fld pc 56 8 != 0

/-- The number of the slot (R198). -/
def unitOf (pc : Dword) : Int := fld pc 6 50 * 5 + fld pc 0 3

/-- The PC of a slot; outside the slots of R198 the value has bits 63..56 set and is invalid. -/
def pcOf (u : Int) : Dword := dword (u / 5 * 64 + u % 5)

/-- The PC some units further on. -/
def pcPlus (pc : Dword) (d : Int) : Dword := pcOf (unitOf pc + d)

/-! ### The split table -/

/-- A fragment as it becomes ready at a PC. -/
def Frag.fresh (now : Nat) (mask : Lanes) (pc : Dword) (grp : Option Nat) : Frag :=
  { mask := mask, pc := pc, grp := grp, wait := .ready, readyAt := now, count := 0, hit64 := 0, yieldEnd := 0,
    due := none }

/-- A fragment that no wait holds: ready, or found not ready when it was last looked at (R45). -/
def Frag.mayIssue (f : Frag) : Bool := f.wait == .ready || f.wait == .scoreboard

/-- Steps that bound every walk of the table: one per entry and one more. -/
def splitFuel : Nat := 257

/-- The innermost group, from `g` outwards, whose reconvergence address is `pc` (R40, R41). -/
def Strand.groupAt (st : Strand) (pc : Dword) : (fuel : Nat) → Option Nat → Option Nat
  | 0, _ => none
  | _, none => none
  | fuel + 1, some g =>
    match st.group? g with
    | none => none
    | some gr => if gr.addr = pc then some g else st.groupAt pc fuel gr.encl

/-- Add lanes to a group's arrived mask. -/
def Strand.addArrived (st : Strand) (g : Nat) (m : Lanes) : Strand :=
  match st.group? g with
  | some gr => st.setGroup g { gr with arrived := gr.arrived ||| m }
  | none => st

/-- Remove the fragments that wait at a group, and the group. -/
def Strand.dropGroup (st : Strand) (g : Nat) : Strand :=
  { st with splits := (adel st.splits g).filter fun e =>
      match e.2 with | .frag f => f.wait != .reconv g | .group _ => true }

/-- One member of group `g` counts as arrived; a group with no member out fuses into one fragment, which takes the
group's entry, becomes a member of the enclosing group, and may wait there at once (R41 to R43). -/
def Strand.fall (now : Nat) : (fuel : Nat) → Strand → Nat → Strand
  | 0, st, _ => st
  | fuel + 1, st, g =>
    match st.group? g with
    | none => st
    | some gr =>
      if 1 < gr.out then st.setGroup g { gr with out := gr.out - 1 }
      else
        let st := st.dropGroup g
        if gr.arrived = 0 then
          match gr.encl with
          | some e => Strand.fall now fuel st e
          | none => st
        else
          let f := Frag.fresh now gr.arrived gr.addr gr.encl
          match st.groupAt gr.addr splitFuel gr.encl, gr.encl with
          | some big, some e =>
            let st := (st.setFrag g { f with wait := .reconv big }).addArrived big gr.arrived
            Strand.fall now fuel st e
          | _, _ => st.setFrag g f

/-- A member of the group `g`, when there is one, counts as arrived. -/
def Strand.fallOpt (st : Strand) (now : Nat) (g : Option Nat) : Strand :=
  match g with
  | some g => Strand.fall now splitFuel st g
  | none => st

/-- Put a fragment at index `i` with its next PC: it runs, or it waits at the group whose address that is (R40, R41). A fragment
whose target is still to be checked waits only after the check (R231 step 4). DESIGN CHOICE: a fragment that waits at an enclosing
group keeps its former innermost group as its own in the table (assumption 97). -/
def Strand.place (st : Strand) (now i : Nat) (f : Frag) : Strand :=
  if f.due.isSome then st.setFrag i f
  else
    match st.groupAt f.pc splitFuel f.grp with
    | some g => ((st.setFrag i { f with wait := .reconv g }).addArrived g f.mask).fallOpt now f.grp
    | none => st.setFrag i f

/-- Remove a fragment that has no lanes left: it counts as arrived in its innermost group (R43). -/
def Strand.leave (st : Strand) (now i : Nat) : Strand :=
  match st.frag? i with
  | some f => (st.delEntry i).fallOpt now f.grp
  | none => st

/-- Take lanes out of a fragment: lanes that exit, or are held (R37, R43, R148). -/
def Strand.takeLanes (st : Strand) (now i : Nat) (m : Lanes) : Strand :=
  match st.frag? i with
  | some f => if f.mask &&& ~~~m = 0 then st.leave now i else st.setFrag i { f with mask := f.mask &&& ~~~m }
  | none => st

/-- Take lanes out of the table wherever they are: of a group's arrived lanes, of fragments that wait there, and of any other fragment. -/
def Strand.dropLanes (st : Strand) (now : Nat) (m : Lanes) : Strand :=
  let st : Strand := { st with splits := st.splits.map fun e =>
    match e.2 with | .group g => (e.1, .group { g with arrived := g.arrived &&& ~~~m }) | .frag _ => e }
  st.frags.foldl (fun st x =>
    match st.frag? x.1 with
    | none => st
    | some f =>
      match f.wait with
      | .reconv _ => if f.mask &&& ~~~m = 0 then st.delEntry x.1 else st.setFrag x.1 { f with mask := f.mask &&& ~~~m }
      | _ => if f.mask &&& m = 0 then st else st.takeLanes now x.1 m) st

/-- A set of lanes with its next PC, and the checks still due there (R231 step 4). -/
structure Target where
  lanes : Lanes
  pc : Dword
  due : Option Due
  deriving DecidableEq, Repr

/-- The checks still due of two sets that go to one address: each is for the lanes that transferred. -/
def joinDue : Option Due → Option Due → Option Due
  | some a, some b => some { a with lanes := a.lanes ||| b.lanes }
  | some a, none => some a
  | none, b => b

/-- Join sets that go to one address (R39: a split is by address). -/
def mergeTargets : List Target → List Target
  | [] => []
  | t :: ts =>
    let rest := mergeTargets ts
    match rest.find? fun u => u.pc == t.pc with
    | some u => { t with lanes := t.lanes ||| u.lanes, due := joinDue t.due u.due } :: rest.filter fun u => u.pc != t.pc
    | none => t :: rest

/-- Free table indices, lowest first. -/
def Strand.freeEntries (st : Strand) : List Nat := (List.range 256).filter fun i => (aget st.splits i).isNone

/-- Send the lanes of fragment `i` to their targets: one set moves the fragment, several split it, as members of a new
group when a reconvergence address is named, else of the fragment's own group (R39, R40). DESIGN CHOICE: new entries take the lowest
free indices of the table, and a fused fragment takes its group's (assumption 97). -/
def Strand.goto (st : Strand) (now i : Nat) (ts : List Target) (rcv : Option Dword) : Strand :=
  match st.frag? i, (mergeTargets ts).filter fun t => t.lanes != 0 with
  | none, _ => st
  | some _, [] => st.leave now i
  | some f, [t] => st.place now i { Frag.fresh now t.lanes t.pc f.grp with due := t.due }
  | some f, ts =>
    let free := st.freeEntries
    let (st, grp, free) := match rcv with
      | some a =>
        let g := free.headD 255
        (st.setGroup g ⟨0, a, ts.length, f.grp⟩, some g, free.tail)
      | none =>
        let st := match f.grp with
          | some g => (match st.group? g with
              | some gr => st.setGroup g { gr with out := gr.out + (ts.length - 1) }
              | none => st)
          | none => st
        (st, f.grp, free)
    let fs := (i :: free).zip (ts.map fun t => { Frag.fresh now t.lanes t.pc grp with due := t.due })
    let st := fs.foldl (fun st x => st.setFrag x.1 x.2) st
    fs.foldl (fun st x => st.place now x.1 x.2) st

/-- All lanes named form one fragment in no group, and nothing else stays in the table (R142, R144). -/
def Strand.rejoinAll (st : Strand) (now : Nat) (m : Lanes) (pc : Dword) : Strand :=
  { st with splits := [(0, .frag (Frag.fresh now m pc none))] }

/-- A new fragment in no group, at a free entry (R150). -/
def Strand.addFrag (st : Strand) (now : Nat) (m : Lanes) (pc : Dword) : Strand × Nat :=
  let i := st.freeEntry
  (st.setFrag i (Frag.fresh now m pc none), i)

/-! ### The split table area (R74) -/

/-- The STATE code of a fragment. DESIGN CHOICE: R74 has no code for a fragment that waits for its result of a system instruction, or on
the scoreboard: it stands as ready (assumption 97). -/
def waitCode : Wait → Nat
  | .ready => 0
  | .reconv _ => 1
  | .barrier _ => 2
  | .obj => 2
  | .monitor => 3
  | .commitPark => 5
  | .fetchPark _ => 5
  | .scoreboard => 0
  | .system => 0

/-- The two doublewords of a mask. -/
def maskDw (m : Lanes) (h : Nat) : Dword := m.extractLsb' (64 * h) 64

/-- The four doublewords of an entry. -/
def entryWords : Entry → List Dword
  | .frag f => [maskDw f.mask 0, maskDw f.mask 1, f.pc,
      mk64 [(63, 1), (58, waitCode f.wait), (24, f.grp.getD 0x1FF), (0, summary f.mask)]]
  | .group g => [maskDw g.arrived 0, maskDw g.arrived 1, g.addr,
      mk64 [(63, 1), (62, 1), (24, g.encl.getD 0x1FF), (16, g.out), (0, summary g.arrived)]]

/-- The entry of the lanes held for a deferred trap: STATE 4, at the pc of the first trapping instruction (R43, R74, R148). -/
def Strand.heldWords (st : Strand) : List Dword :=
  [maskDw st.tmask 0, maskDw st.tmask 1, st.ctl ctlTPC, mk64 [(63, 1), (58, 4), (24, 0x1FF), (0, summary st.tmask)]]

/-- The doublewords of every entry in use, by index; held lanes take the lowest free one (assumption 97). -/
def Strand.tableWords (st : Strand) : List (Nat × List Dword) :=
  let l := st.splits.map fun e => (e.1, entryWords e.2)
  if st.tstate == 1 && st.splits.length < 256 then aput l st.freeEntry st.heldWords else l

/-- Write the table into its area: every live entry, and VALID = 0 where an entry is not in use (R61, R457). -/
def Strand.saveSplits (st : Strand) : Strand :=
  let l := st.tableWords
  (List.range 256).foldl (fun st i =>
    match aget l i with
    | some e => (e.zipIdx).foldl (fun st d => st.setDw (st.splitIx i + 2 * d.2) d.1) st
    | none =>
      if st.dw (st.splitIx i + 6) = 0 then st else st.setDw (st.splitIx i + 6) 0) st

/-- The wait that a STATE code stands for, where it is not the one that the fragment had: a debugger has written it (R457). DESIGN
CHOICE: a wait so written has no barrier, monitor or trap of its own (assumption 97). -/
def waitOf (parked : Bool) (grp : Option Nat) : Nat → Wait
  | 1 => .reconv (grp.getD 0)
  | 2 => .obj
  | 3 => .monitor
  | 5 => if parked then .commitPark else .fetchPark 0x48
  | _ => .ready

/-- The entry in a slot of the area: none when not in use, an error when a reserved value stands there (R75). -/
def Strand.loadEntry (st : Strand) (i : Nat) : Except Unit (Option Entry) :=
  let ix := st.splitIx i
  let d := st.dw (ix + 6)
  let m : Lanes := st.dw (ix + 2) ++ st.dw ix
  let g := fld d 24 9
  let grp : Option Nat := if g = 0x1FF then none else some g
  if fld d 63 1 = 0 then .ok none
  else if (0x100 ≤ g && g != 0x1FF) || 6 ≤ fld d 58 4 then .error ()
  else if fld d 58 4 = 4 then .ok none
  else if fld d 62 1 = 1 then .ok (some (.group ⟨m, st.dw (ix + 4), fld d 16 8, grp⟩))
  else
    let old := st.frag? i
    let wait := match old with
      | some f => if waitCode f.wait = fld d 58 4 then f.wait else waitOf (st.rstate 2 1 == 1) grp (fld d 58 4)
      | none => waitOf (st.rstate 2 1 == 1) grp (fld d 58 4)
    let f : Frag := old.getD (Frag.fresh 0 m (st.dw (ix + 4)) grp)
    .ok (some (.frag { f with mask := m, pc := st.dw (ix + 4), grp := grp, wait := wait }))

/-- A fragment that has been written as waiting at reconvergence waits at the group whose address its pc is. -/
def Strand.regroup (st : Strand) : Strand :=
  { st with splits := st.splits.map fun e =>
      match e.2 with
      | .frag f =>
        (match f.wait with
         | .reconv g => (e.1, .frag { f with wait := .reconv ((st.groupAt f.pc splitFuel f.grp).getD g) })
         | _ => e)
      | .group _ => e }

/-- Read the table back from its area (R457); `none` when it is corrupt. -/
def Strand.loadSplits (st : Strand) : Option Strand :=
  ((List.range 256).foldl (fun acc i =>
      match acc, st.loadEntry i with
      | some l, .ok (some e) => some (aput l i e)
      | some l, .ok none => some l
      | _, _ => none) (some [])).map fun l => { st with splits := l }.regroup

/-- The fault records are as R129 lets them be: reserved bits zero, and one in use names its own slot. -/
def Strand.recordsOk (st : Strand) : Bool :=
  (List.range 256).all fun slot =>
    let h := st.dw (st.recIx slot)
    fld h 8 8 == 0 && fld h 2 4 == 0 && fld (st.dw (st.recIx slot + 6)) 7 9 == 0
      && (fld h 0 2 == 0 || fld h 48 8 == slot)

/-- A strand resumes with its image as a debugger has left it: the table is read; `none` where the table or a fault record has been
edited against R75 or R129 (R457; assumption 119). -/
def Strand.resume (st : Strand) : Option Strand := if st.recordsOk then st.loadSplits else none

/-- Change the table of a strand. While it is Halted or Out its area is the table, with what a debugger has edited, and is kept
current (R61, R456, R457); an area that is corrupt stays as it is, and is found so at resumption (R75). That of a Slotless strand holds
the entries as they are (R74). -/
def Strand.onTable (st : Strand) (f : Strand → Strand) : Strand :=
  match st.life with
  | .halted _ => (match st.loadSplits with | some t => (f t).saveSplits | none => st)
  | .out _ => (match st.loadSplits with | some t => (f t).saveSplits | none => st)
  | .slotless => (f st).saveSplits
  | _ => f st

end Sys2Proof.Machine
end

