-- ==== Sys2Proof/Machine/Ops.lean ====
section
/-! DEFINITION. The named operations every meaning is made of: writing register words, poison records (R128, R130), taking a deferred
control trap and returning to it (R148 to R150), containment (R151, R152), the locket (R135, R142, R146), exit (R147), and
the frame of an instruction's issue (R214). -/
namespace Sys2Proof.Machine

/-! ### Register words -/

/-- Make a word of a strand's image dead (R81, R84). -/
def State.killWord (s : State) (sid i : Nat) : State :=
  s.modStrand sid fun st => st.noteWord i { st.word i with live := false }

/-- Make lanes' bits of a predicate word dead: the word is dead once those of every lane of its quarter that has not exited are
(R81, R84). -/
def State.killBits (s : State) (sid i : Nat) (bits live : Word) : State :=
  let d := ((aget (s.strand sid).deadBits i).getD 0) ||| bits
  let s := s.modStrand sid fun st => { st with deadBits := aputD 0 st.deadBits i d }
  if live &&& ~~~d = 0 then s.killWord sid i else s

/-- Note that the poison of a word has been consumed (R136). -/
def State.eatWord (s : State) (sid i : Nat) : State :=
  let w := (s.strand sid).word i
  if w.mark && w.live && !w.used then s.modStrand sid fun st => st.noteWord i { w with used := true } else s

/-- Write consecutive vector registers of a lane: words, or a token in each of `span` words (R131). -/
def State.putVec (s : State) (sid d span lane : Nat) (v : ReplyVal) : State :=
  (List.range span).foldl (fun s i =>
    let w : MWord := match v with
      | .words ws => ⟨ws.getD i 0, false⟩
      | .tok t => ⟨t, true⟩
      | .bad .. => ⟨0, false⟩
    s.wrImg sid ((s.strand sid).vecIx (d + i) lane) w) s

/-- Write consecutive scalars: two words each. -/
def State.putSc (s : State) (sid n span : Nat) (v : ReplyVal) : State :=
  (List.range (2 * span)).foldl (fun s i =>
    let w : MWord := match v with
      | .words ws => ⟨ws.getD i 0, false⟩
      | .tok t => ⟨t, true⟩
      | .bad .. => ⟨0, false⟩
    s.wrImg sid ((s.strand sid).scIx n + i) w) s

/-! ### Poison records -/

/-- Turn the faults among an instruction's results into tokens: one record for each distinct cause, naming the lowest
lane that took it; results come in ascending lane order (R128). -/
def State.settle (s : State) (sid : Nat) (pc : Dword) (rs : List (Option Nat × ReplyVal)) :
    State × List (Option Nat × ReplyVal) :=
  let r := rs.foldl (fun (acc : State × List (BitVec 8 × Word) × List (Option Nat × ReplyVal)) x =>
    match x.2 with
    | .bad c o a =>
      match acc.2.1.find? fun y => y.1 == c with
      | some y => (acc.1, acc.2.1, (x.1, .tok y.2) :: acc.2.2)
      | none =>
        let (s, t) := acc.1.record sid (dataRec c o pc a x.1)
        (s, (c, t) :: acc.2.1, (x.1, .tok t) :: acc.2.2)
    | _ => (acc.1, acc.2.1, x :: acc.2.2)) (s, [], [])
  (r.1, r.2.2.reverse)

/-- The settled form of one result of an instruction, which shares the record of its cause with those before it (R128). -/
def State.settle1 (s : State) (sid : Nat) (pc : Dword) (lane : Option Nat) (v : ReplyVal) : State × ReplyVal :=
  match v with
  | .bad c o a =>
    let (s, t) := s.record sid (dataRec c o pc a lane)
    (s, .tok t)
  | _ => (s, v)

/-- Write $deadline: a result of an earlier instruction that is still due there will be discarded (R85). -/
def State.putDeadline (s : State) (sid : Nat) (v : Dword) : State :=
  s.modStrand sid fun st =>
    { st.setCtl ctlDLINE v with pend := adel (adel st.pend (st.ctlIx ctlDLINE)) (st.ctlIx ctlDLINE + 1) }

/-! ### Replies (R71, R186, R189) -/

/-- Image words that an instruction's replies will fill, under its number (R45, R85). -/
def State.awaitWords (s : State) (sid : Nat) (ws : List Nat) (tag : Nat) : State :=
  s.modStrand sid fun st => { st with pend := ws.foldl (fun p i => aput p i tag) st.pend }

/-- Answer a packet: a reply on its way to the strand, or to the device that sent it, whose reply cache keeps it. -/
def State.replyTo (s : State) (p : Packet) (v : ReplyVal) : State :=
  match p.src with
  | .strand sid frag lane pc dest tag =>
    if p.noreply then s.sample sid ⟨lane, pc, p.va, p.act⟩ p.place.loc true
    else { s with replies := s.replies ++ [⟨sid, frag, lane, pc, dest, tag, v, p.va, p.act, p.place.loc⟩] }
  | .fabric dev stn seq _ =>
    { s with replyCache := s.replyCache ++ [⟨s.homeOf p.place.loc, dev, stn, seq, v⟩], outbox := s.outbox ++ [.reply dev stn seq v] }
  | .device _ => s

/-- A clasp's strand ends with an answer to its packet (R479). -/
def State.claspEnd (s : State) (sid : Nat) (v : ReplyVal) : State :=
  match (s.strand sid).clasp with
  | some r => { s with strands := adel s.strands sid }.replyTo r.pkt v
  | none => s

/-- The fault of a routine's own code (R186). -/
def claspFault : ReplyVal := .bad 0x33 0x06 0

/-- A separate access of a clasp's body met a fault: the body stops with that cause (R186, R479). -/
def State.claspCheck (s : State) (sid : Nat) : State :=
  match (s.strand sid).clasp with
  | some r =>
    (match r.bad with
     | some (c, a) => s.claspEnd sid (.bad c 0x06 a)
     | none => s)
  | none => s

/-! ### Containment (R151, R152, R359) -/

/-- The exit status word (R152). -/
def statusWord (blockIx strand lanes : Nat) (origin cause : BitVec 8) : Dword :=
  mk64 [(32, blockIx % 2 ^ 32), (28, strand % 16), (20, lanes % 256), (12, origin.toNat), (7, 1), (0, cause.toNat % 128)]

/-- W, H, N and other fields of an accepted launch record (R357). -/
def rcdSHAPE (r : List Dword) (lo len : Nat) : Nat := fld (r.getD 3 0) lo len
def rcdW (r : List Dword) : Nat := rcdSHAPE r 0 5
def rcdH (r : List Dword) : Nat := rcdSHAPE r 8 4
def rcdSPB (r : List Dword) : Nat := rcdSHAPE r 16 5
def rcdLANES (r : List Dword) : Nat := rcdSHAPE r 24 8
def rcdSPKIB (r : List Dword) : Nat := rcdSHAPE r 32 10
def rcdSPAN (r : List Dword) : Nat := rcdSHAPE r 44 2
def rcdCLASS (r : List Dword) : Nat := rcdSHAPE r 46 2
def rcdCLU (r : List Dword) : Nat := rcdSHAPE r 48 2
def rcdN (r : List Dword) : Nat := fld (r.getD 4 0) 0 32

/-- The block's index within its grid (R57), or the one that its save record was restored with (R431). -/
def State.blockIndex (s : State) (blk : Nat) : Nat :=
  let b := s.block blk
  let r := (s.grid b.gid).rcd
  match b.saved with
  | some w => w.2.1
  | none => (s.nbhd b.nbhd).num * (rcdW r * rcdH r) + b.num

/-- Write an exit status word into the launch's status area, and count the event in the grid (R358, R359). A write that
cannot be made is skipped and logged. -/
def State.writeStatus (s : State) (gid : Nat) (word : Dword) (cause : Nat) : State :=
  let g := s.grid gid
  let s := s.modGrid gid fun g =>
    { g with
      events := g.events + 1
      firstWord := if g.firstWord = 0 then word else g.firstWord
      firstTime := if g.firstWord = 0 then s.ptime else g.firstTime
      causes := aput g.causes cause ((aget g.causes cause).getD 0 + 1) }
  let area := g.rcd.getD 7 0
  if area = 0 then s
  else
    match s.ctxAdd g.ctx area 1 with
    | (s, none) => s.report g.ctx s.did 0x5B area
    | (s, some i) =>
      if i.toNat < fld (g.rcd.getD 8 0) 0 32 then
        let a := area + 8 + 8 * i
        match s.ctxWrite g.ctx a word with
        | (s, true) => s
        | (s, false) => s.report g.ctx s.did 0x5B a
      else s

/-- The four doublewords of a strand's fault record. -/
def Strand.recWords (st : Strand) (slot : Nat) : List Dword :=
  (List.range 4).map fun i => st.dw (st.recIx slot + 2 * i)

/-- Copy a record to the fault queue (R151 step 4, R391). -/
def State.copyRecord (s : State) (sid slot : Nat) : State :=
  let st := s.strand sid
  let r := st.recWords slot
  let h := r.getD 0 0
  s.fqPost 3 (fqEntry 3 st.ctx (BitVec.ofNat 8 (fld h 16 8)) (BitVec.ofNat 8 (fld h 24 8)) (r.getD 1 0) (r.getD 2 0)
    st.base r)

/-- Drop a strand's locket entries unwritten; poison entries are counted (R143, R447). -/
def State.dropLocket (s : State) (sid : Nat) : State :=
  let st := s.strand sid
  let s := st.locket.foldl (fun s e => if e.poison then s.countUp (s.coreOf sid) (tokCause e.tok) else s) s
  s.modStrand sid fun st => st.setLocket []

/-- A strand ends in containment, with no fragment; one that is Halted, Out or Slotless keeps its table so in its image (R28, R74,
R457). -/
def Strand.ended (st : Strand) : Strand :=
  let st := { st with splits := [], contained := true }
  match st.life with
  | .resident => st
  | .retired => st
  | _ => st.saveSplits

/-- A containment event (R151): lanes exit, the locket is dropped, records are copied to the fault queue, the exit status
word is written. `rcd` is the slot of the event's record where it has one already; `some none` says that the record was
lost with every slot pinned. Retirement follows under R63. DESIGN CHOICE: the record that is made for an event without a token has
ORIGIN 0x00, as its status word has (assumption 98). -/
def State.contain (s : State) (sid : Nat) (cause origin : BitVec 8) (pc : Dword) (rcd : Option (Option Nat)) : State :=
  let st := s.strand sid
  if st.clasp.isSome then s.claspEnd sid claspFault
  else if st.contained || st.life == .retired then s
  else
    let lanes := max 1 (popMask st.liveLanes)
    let s := s.modStrand sid fun st => { st.ended with exited := (pc, st.liveLanes) }
    let s := { s with monitors := s.monitors.filter fun m => m.sid != sid }
    let s := s.dropLocket sid
    let (s, slot) := match rcd with
      | some sl => (s, sl)
      | none =>
        let (s, t) := s.record sid ⟨cause, origin, pc, 0, none, none, false, false⟩
        (s, if tokRecord t = 0xFFFF then none else some (tokRecord t % 256))
    let s := s.modStrand sid fun st => (st.setTmask 0).setRstate 0 3 0
    let pins := (List.range 256).filter fun i => (s.strand sid).recState i == 2 && some i != slot
    let s := (pins ++ slot.toList).foldl (fun s i => s.copyRecord sid i) s
    let w := statusWord (s.blockIndex st.blk) st.num lanes origin cause
    let s := s.writeStatus st.gid w (cause.toNat % 128)
    s.bump (rCTRAPS (s.coreOf sid)) 0 32

/-! ### Deferred control traps (R148 to R150) -/

/-- A lane that an instruction holds: the cause, and ADDR of its record. -/
structure Hold where
  lane : Nat
  cause : BitVec 8
  addr : Dword
  deriving DecidableEq, Repr

/-- One record for each distinct cause among holds in ascending lane order: the causes with their tokens (R128). -/
def State.trapRecords (s : State) (sid : Nat) (pc : Dword) (hs : List Hold) : State × List (BitVec 8 × Word) :=
  hs.foldl (fun acc h =>
    if acc.2.any fun y => y.1 == h.cause then acc
    else
      let (s, t) := acc.1.record sid ⟨h.cause, 0x0E, pc, h.addr, some h.lane, none, false, true⟩
      (s, acc.2 ++ [(h.cause, t)])) (s, [])

/-- Take a deferred control trap: hold lanes, which `take` removes from the table (R148). One call is one trapping instruction. -/
def State.holdBy (s : State) (sid : Nat) (pc : Dword) (hs : List Hold) (take : Strand → Lanes → Strand) : State :=
  let hs := hs.foldl (fun l h => if l.any fun x => x.lane == h.lane then l else insertBy Hold.lane h l) []
  match hs with
  | [] => s
  | h :: _ =>
    let st := s.strand sid
    if st.clasp.isSome then s.claspEnd sid claspFault else
    let (s, toks) := if st.contained then (s, []) else s.trapRecords sid pc hs
    let tok := ((toks.find? fun y => y.1 == h.cause).map (·.2)).getD 0
    let slot := if tokRecord tok = 0xFFFF then none else some (tokRecord tok % 256)
    let m := maskOf (hs.map Hold.lane)
    if st.contained then s
    else if 2 ≤ st.tstate then s.contain sid (if st.tstate = 2 then 0x53 else 0x51) 0 pc (some slot)
    else
      s.modStrand sid fun st =>
        let stat := st.ctl ctlTSTAT
        let st :=
          if st.tstate = 0 then
            ((st.setTmask m).setCtl ctlTPC pc).setCtl ctlTSTAT
              (mk64 [(48, tokRecord tok), (32, 1), (24, h.cause.toNat), (0, 1)])
          else (st.setTmask (st.tmask ||| m)).setCtl ctlTSTAT (setFld stat 32 8 (satAdd 255 (fld stat 32 8) 1))
        let st := if st.regionOpen then st.setRstate 1 1 1 else st
        st.onTable fun st => take st m

/-- Hold lanes of the issuing fragment. -/
def State.hold (s : State) (sid idx : Nat) (pc : Dword) (hs : List Hold) : State :=
  s.holdBy sid pc hs fun st m => st.takeLanes s.clock idx m

/-- Hold lanes of an earlier instruction, in whatever fragments they are now; those that have exited or are held already are not. -/
def State.holdLate (s : State) (sid : Nat) (pc : Dword) (hs : List Hold) : State :=
  s.holdBy sid pc (hs.filter fun h => (s.strand sid).fragLanes.getLsbD h.lane) fun st m => st.dropLanes s.clock m

/-- A held trap is due: every other lane has exited, or, with no region open, every fragment waits (R149). -/
def Strand.trapDue (st : Strand) : Bool :=
  st.tstate == 1 && !st.contained && st.rstate 2 1 == 0 &&
    (st.frags.isEmpty || (!st.regionOpen && st.frags.all fun f => f.2.wait != .ready))

/-- Clear DEFTRAP (R149). -/
def Strand.clearTrap (st : Strand) : Strand := ((st.setTmask 0).setCtl ctlTPC 0).setCtl ctlTSTAT 0

/-- Take the held trap (R150): the held lanes form one fragment at the handler, whose entry's target check is still due,
or the strand is contained with TCAUSE. DESIGN CHOICE: where the trap's record has been overwritten since, the event has a new one;
and a HANDLER that is an invalid PC is a containment event with cause 0x43 (assumption 98). -/
def State.takeTrap (s : State) (sid : Nat) : State :=
  let st := s.strand sid
  let handler := st.ctl ctlHANDLER
  let cause := BitVec.ofNat 8 (fld (st.ctl ctlTSTAT) 24 8)
  let trec := fld (st.ctl ctlTSTAT) 48 16
  let s := s.modStrand sid fun st => if st.frags.isEmpty then st.setRstate 1 1 0 else st
  if handler = 0 then
    s.contain sid cause 0x0E (st.ctl ctlTPC) (st.ownSlot trec)
  else if pcInvalid handler then s.contain sid 0x43 0x0E handler none
  else
    s.modStrand sid fun st =>
      let m := st.tmask
      let st := st.setCtl ctlTSTAT (setFld (st.ctl ctlTSTAT) 0 2 2)
      let (st, i) := st.addFrag s.clock m handler
      match st.frag? i with
      | some f => st.setFrag i { f with due := some ⟨st.ctl ctlTPC, true, 4, 0, m, none⟩ }
      | none => st

/-! ### The locket (R135, R142, R146) -/

/-- The words that an entry holds: place, byte enables, word. -/
def LkEntry.words (e : LkEntry) : List (Loc × Nat × MWord) :=
  ((List.range 32).map fun i =>
    (e.place.loc.add (4 * i), ((List.range 4).filter fun j => (aget e.bytes (4 * i + j)).isSome).foldl (fun a j => a + 2 ^ j) 0,
      ⟨(Mem.word ⟨e.bytes, []⟩ (4 * i)).data, (aget e.marks (4 * i)).isSome⟩)).filter fun w => w.2.1 != 0

/-- A held line for a post window: a tile of one row that covers it is one packet, anything else is discarded (R406). -/
def State.postEntry (s : State) (q : Nat) (e : LkEntry) : State :=
  let m : Mem := ⟨e.bytes, []⟩
  if e.row && e.bytes.length == 128 then
    s.post ⟨q, false, s.did, (List.range 16).map fun i => join32 (m.word (8 * i)).data (m.word (8 * i + 4)).data⟩
  else s.dropPost q

/-- Place poison entries for the lanes whose effect carries a token; a lane that finds the locket full is trapped with
0x4C (R135, R137). -/
def State.poisonEntries (s : State) (sid : Nat) (pc : Dword) (es : List (Nat × Word)) : State × List Hold :=
  es.foldl (fun acc e =>
    match (acc.1.strand sid).holdPoison (acc.1.lkRoom sid) e.2 pc e.1 with
    | some st => (acc.1.setStrand sid st, acc.2)
    | none => (acc.1, acc.2 ++ [⟨e.1, 0x4C, 0⟩])) (s, [])

/-- An effect of a lane fails after its instruction has ended: a poison entry under the record of the instruction's cause, or a trap
with 0x4C where the locket has no room (R128, R135, R137). -/
def State.lateEntry (s : State) (sid tag lane : Nat) (pc : Dword) (cause origin : BitVec 8) (addr : Dword) : State :=
  if (aget s.strands sid).isNone || (s.strand sid).contained then s
  else
    let (s, t) := s.sharedToken sid tag (dataRec cause origin pc addr (some lane))
    let (s, hs) := s.poisonEntries sid pc [(lane, t)]
    (if hs.isEmpty then s else s.holdLate sid pc hs).endTag sid tag

/-- Requests of lanes have been performed at a location: latency samples count them (R461). -/
def State.countReqs (s : State) (sid : Nat) (reqs : List LaneReq) (l : Loc) : State :=
  reqs.foldl (fun s q => s.sample sid q l false) s

/-- What leaves for another device when entries of a locket are released: those of one tile as one request, which its lowest line's
station serves (R178, R189, R465). -/
def LkEntry.store (e : LkEntry) (sid : Nat) (group : List LkEntry) : RemStore :=
  let first := group.foldl (fun m x => if x.place.loc.off < m.place.loc.off then x else m) e
  ⟨some sid, e.lane, e.pc, e.line, e.tag, 0x0C, first.place, group.flatMap LkEntry.words, e.row, group.flatMap LkEntry.reqs⟩

/-- Perform entries of a strand that stand for one access: a line, or the lines of one tile. -/
def State.performEntry (s : State) (sid : Nat) (e : LkEntry) (group : List LkEntry) : State :=
  if goesOut (s.whoOf sid) e.place then
    match s.sendStore (e.store sid group) with
    | (s, true) => s
    | (s, false) => s.lateEntry sid e.tag e.lane e.pc 0x17 0x02 e.line
  else
    group.foldl (fun s x =>
      match postWindow x.place.loc with
      | some q => s.postEntry q x
      | none =>
        (x.words.foldl (fun s w => s.writeW (s.whoOf sid) { x.place with loc := w.1 } w.2.1 w.2.2) s).countReqs sid x.reqs x.place.loc) s

/-- Release the locket: the held stores are performed in program order, a tile store as one (R146). -/
def State.release (s : State) (sid : Nat) : State :=
  let l := (s.strand sid).locket.filter fun e => !e.poison
  let s := s.modStrand sid fun st => st.setLocket []
  l.zipIdx.foldl (fun s x =>
    match x.1.tile with
    | none => s.performEntry sid x.1 [x.1]
    | some t =>
      if (l.take x.2).any fun y => y.tile == some t then s
      else s.performEntry sid x.1 (l.filter fun y => y.tile == some t)) s

/-- The token of a poisoned entry: a poison entry's, or a marked data word's (R142). -/
def entryTok (e : LkEntry) : Option Word :=
  if e.poison then some e.tok
  else (e.marks.head?).map fun m => (Mem.word ⟨e.bytes, []⟩ m.1).data

/-- Close the region (R142). -/
def Strand.closeRegion (st : Strand) : Strand := st.setRstate 0 3 0

/-- Settle the effects of lanes beyond the strand: records for fresh faults, poison entries for tokens, and the lanes
trapped (R128, R135). -/
def State.settleEff (s : State) (sid : Nat) (pc : Dword) (es : List (Nat × Eff)) : State × List Hold :=
  let rs := es.filterMap fun e =>
    match e.2 with
    | .tok t => some (some e.1, ReplyVal.tok t)
    | .bad c o a => some (some e.1, .bad c o a)
    | _ => none
  let (s, vs) := s.settle sid pc rs
  let s := (s.shareTokens sid s.tick rs vs).endTag sid s.tick
  let (s, hs) := s.poisonEntries sid pc (vs.filterMap fun v =>
    match v with
    | (some l, .tok t) => some (l, t)
    | _ => none)
  (s, hs ++ es.filterMap fun e => match e.2 with | .trap c a => some ⟨e.1, c, a⟩ | _ => none)

/-! ### Exit (R37, R43, R147) -/

/-- Lanes of a fragment exit. The last lane of a strand that holds locket entries releases them, or with poison among
them is a containment event (R147). -/
def State.exitLanes (s : State) (sid idx : Nat) (pc : Dword) (m : Lanes) : State :=
  let st := s.strand sid
  if st.liveLanes &&& ~~~m = 0 && !st.locket.isEmpty then
    match st.locket.findSome? entryTok with
    | some t => s.contain sid 0x52 (tokOrigin t) pc none
    | none => (s.release sid).modStrand sid fun st => { (st.closeRegion).takeLanes s.clock idx m with exited := (pc, m) }
  else s.modStrand sid fun st => { st.takeLanes s.clock idx m with exited := (pc, m) }

/-- The answer of a clasp's strand at EXIT: s0, or its low word when RETW is 0 (R479). -/
def Strand.claspReply (st : Strand) (tick : Nat) (retw : Bool) : ReplyVal :=
  let lo := st.readWord tick (st.scIx 0)
  let hi := st.readWord tick (st.scIx 0 + 1)
  match pairTok lo hi with
  | some t => .tok t
  | none => .words (if retw then [lo.data, hi.data] else [lo.data])

/-- Exit of lanes by EXIT: a clasp's strand answers its packet with what s0 held. -/
def State.exitWith (s : State) (sid idx : Nat) (pc : Dword) (m : Lanes) : State :=
  let v := (s.strand sid).claspReply s.tick (match (s.strand sid).clasp with | some r => r.pkt.retw | none => false)
  let t := s.exitLanes sid idx pc m
  if (t.strand sid).frags.isEmpty then t.claspEnd sid v else t

/-! ### The frame of an issue (R214) -/

/-- A register that an instruction names: kind, number, how many in a row, whether it is written, whether its last use is
marked, whether reading poison there consumes it (R136), and for a predicate the quarters read. -/
inductive RegKind where
  | vec | sc | pred | tile
  /-- every word of vector registers, as a string (R95) -/
  | str
  /-- the word of one lane -/
  | lane (l : Nat)
  /-- the words of a string that hold elements 128c + l of type t, for each lane l -/
  | elems (t c : Nat)
  /-- $deadline, whose word lies in the control area -/
  | dline
  deriving DecidableEq, Repr

structure Use where
  kind : RegKind
  n : Nat
  span : Nat
  write : Bool
  last : Bool
  eats : Bool
  quarters : Nat
  deriving DecidableEq, Repr

/-- What an instruction's effect runs on: the issuing fragment, the lanes active once guard and predicate poison, budget
and live-in protection have taken theirs, and the state that sources are read from. -/
structure Cx where
  sid : Nat
  idx : Nat
  frag : Frag
  act : Lanes
  src : State

/-- Where the fragment goes after an effect. -/
inductive Go where
  /-- on to the next unit -/
  | next
  /-- nowhere: the instruction is not ready, nothing has happened (R45) -/
  | stall
  /-- on to the next unit, and waiting there -/
  | block (w : Wait)
  /-- lanes to targets, the rest of the fragment to the next unit (R39) -/
  | goto (ts : List Target) (rcv : Option Dword)
  /-- the effect has placed the fragment itself -/
  | own
  deriving DecidableEq, Repr

/-- A predicate over a mask: the lanes whose bit is 1, and the lanes that poisoned words cover, with the word's token. -/
def Strand.readPred (st : Strand) (tick n quarters : Nat) (m : Lanes) : Lanes × List (Nat × Word) :=
  if n = 15 then (m, [])
  else
    let w (q : Nat) : MWord := st.readWord tick (st.predIx n q)
    let use (q : Nat) : Bool := quarters.testBit q && maskWord m q != 0
    let bits (q : Nat) : Word := if use q && !(w q).mark then (w q).data else 0
    let bad := (lanesOf m).filterMap fun l =>
      if use (l / 32) && (w (l / 32)).mark then some (l, (w (l / 32)).data) else none
    ((bits 3 ++ (bits 2 ++ (bits 1 ++ bits 0))) &&& m, bad)

/-- Lanes that pass the guard, and those that a poisoned guard word traps (R201, R89). -/
def Strand.guard (st : Strand) (tick : Nat) (h : Hdr) (m : Lanes) : Lanes × List (Nat × Word) :=
  let (b, bad) := st.readPred tick h.guard.toNat 15 m
  if h.gneg then ((m &&& ~~~b) &&& ~~~(maskOf (bad.map (·.1))), bad) else (b, bad)

/-- A use exceeds the image's budget (R73). -/
def Use.over (st : Strand) (u : Use) : Bool :=
  let b := st.ctl ctlBUDGET
  match u.kind with
  | .vec => 8 * fld b 0 6 < u.n + u.span
  | .str => 8 * fld b 0 6 < u.n + u.span
  | .lane _ => 8 * fld b 0 6 < u.n + u.span
  | .elems .. => 8 * fld b 0 6 < u.n + u.span
  | .sc => fld b 8 7 < u.n + u.span
  | .tile => fld b 16 5 < u.n + u.span
  | .pred => false
  | .dline => false

/-- A use writes a live-in register of the open region (R140). -/
def Use.protected (st : Strand) (u : Use) : Bool :=
  u.write && (List.range u.span).any fun i =>
    match u.kind with
    | .vec => st.liveInV (u.n + i)
    | .str => st.liveInV (u.n + i)
    | .lane _ => st.liveInV (u.n + i)
    | .elems .. => st.liveInV (u.n + i)
    | .sc => st.liveInS (u.n + i)
    | .tile => st.liveInA (u.n + i)
    | .pred => st.liveInP (u.n + i)
    | .dline => false

/-- The words of a string that hold element e of a type. -/
def elemWords (t e : Nat) : List Nat :=
  if t = 13 then [e / 20]
  else if 14 ≤ t then [e / 16]
  else [e * elemWidth t / 32, (e * elemWidth t + elemWidth t - 1) / 32].eraseDups

/-- The image words that a use names, for the lanes of a mask. -/
def Use.words (st : Strand) (m : Lanes) (u : Use) : List Nat :=
  match u.kind with
  | .vec => (List.range u.span).flatMap fun i => (lanesOf m).map fun l => st.vecIx (u.n + i) l
  | .str => (List.range u.span).flatMap fun i => (List.range 128).map fun l => st.vecIx (u.n + i) l
  | .lane l => [st.vecIx u.n l]
  | .elems t c => (((lanesOf m).flatMap fun l => elemWords t (128 * c + l)).eraseDups).map fun k => st.vecIx u.n k
  | .sc => (List.range (2 * u.span)).map fun i => st.scIx u.n + i
  | .pred => if u.n = 15 then [] else
      ((List.range 4).filter fun q => maskWord m q != 0 && u.quarters.testBit q).map fun q => st.predIx u.n q
  | .tile => []
  | .dline => [st.ctlIx ctlDLINE, st.ctlIx ctlDLINE + 1]

/-- The marked last use of a source by lanes makes its words dead: a vector's for each lane, a scalar's for the strand, and the
lanes' bits of a predicate's (R81). -/
def State.killUse (s : State) (sid : Nat) (m : Lanes) (u : Use) : State :=
  let st := s.strand sid
  match u.kind with
  | .pred => if u.n = 15 then s else
      (List.range 4).foldl (fun s q =>
        if maskWord m q = 0 then s else s.killBits sid (st.predIx u.n q) (maskWord m q) (maskWord st.liveLanes q)) s
  | _ => (u.words st m).foldl (fun s i => s.killWord sid i) s

/-- The words of marked last uses whose lanes the instruction holds are as they were: it changes nothing for those lanes (R148).
A scalar stays dead where any active lane was not held. -/
def State.reviveUse (s : State) (sid : Nat) (old : Strand) (act held : Lanes) (u : Use) : State :=
  let put (s : State) (i : Nat) : State :=
    let w := (s.strand sid).word i
    if !w.live && (old.word i).live && w.data == (old.word i).data && w.mark == (old.word i).mark then
      s.modStrand sid fun st => st.noteWord i { w with live := true }
    else s
  match u.kind with
  | .sc => if act &&& ~~~held = 0 then (u.words old held).foldl put s else s
  | .pred => if u.n = 15 then s else
      (List.range 4).foldl (fun s q =>
        if maskWord held q = 0 then s
        else
          let i := old.predIx u.n q
          let was := (aget old.deadBits i).getD 0
          let now := (aget (s.strand sid).deadBits i).getD 0
          (put s i).modStrand sid fun st =>
            { st with deadBits := aputD 0 st.deadBits i ((now &&& ~~~maskWord held q) ||| (was &&& maskWord held q)) }) s
  | _ => (u.words old held).foldl put s

/-- Poison that died with the words that an instruction's last uses made dead, counted where the instruction has not consumed it: a
predicate's always is (R136, R447). -/
def State.countUses (s : State) (sid : Nat) (old : Strand) (act held : Lanes) (us : List Use) : State :=
  let eaten := (us.filter fun u => u.eats && !u.write).flatMap fun u => u.words old act
  let dead (u : Use) : List Nat :=
    match u.kind with
    | .vec => u.words old (act &&& ~~~held)
    | .sc => if act &&& ~~~held = 0 then [] else u.words old act
    | _ => []
  let ws := ((us.filter fun u => u.last).flatMap dead).eraseDups
  s.countDying (s.coreOf sid) ((ws.filter fun i => !eaten.contains i).map old.word)

/-- A source's words are all there: none is due from an earlier instruction (R45). -/
def Use.ready (st : Strand) (m : Lanes) (u : Use) : Bool :=
  u.write || (u.words st m).all fun i => (aget st.pend i).isNone
/-- Image corruption found at issue: a budget larger than the image (R75). -/
def Strand.budgetCorrupt (st : Strand) : Bool :=
  let b := st.ctl ctlBUDGET
  st.vRegs < 8 * fld b 0 6 || 64 < fld b 8 7 || st.tiles < fld b 16 5

/-- The fragment's next unit. -/
def Cx.nextPc (cx : Cx) : Dword := pcPlus cx.frag.pc 1
def Cx.pc (cx : Cx) : Dword := cx.frag.pc

/-- The lanes that a fragment's instruction sends to the next unit. -/
def Go.falling (go : Go) (m : Lanes) : Lanes :=
  match go with
  | .next => m
  | .block _ => m
  | .goto ts _ => m &&& ~~~(ts.foldl (fun m t => m ||| t.lanes) 0)
  | _ => 0

/-- Lanes that would go on to an invalid PC, past the last unit, are held with 0x43 (R197). -/
def pastEnd (pc : Dword) (m : Lanes) : List Hold :=
  if pcInvalid (pcPlus pc 1) then (lanesOf m).map fun l => ⟨l, 0x43, pcPlus pc 1⟩ else []

/-- Hold lanes and send the rest of the fragment on. -/
def State.finish (s : State) (sid idx : Nat) (pc : Dword) (hs : List Hold) (go : Go) : State :=
  let s := s.hold sid idx pc (hs ++ pastEnd pc (go.falling (s.fragMask sid idx) &&& ~~~(maskOf (hs.map Hold.lane))))
  match (s.strand sid).frag? idx with
  | none => s
  | some f =>
    match go with
    | .next => s.modStrand sid fun st => st.goto s.clock idx [⟨f.mask, pcPlus pc 1, none⟩] none
    | .block w => s.modStrand sid fun st =>
        st.setFrag idx { Frag.fresh s.clock f.mask (pcPlus pc 1) f.grp with wait := w }
    | .goto ts rcv =>
      let ts := ts.map fun t => { t with lanes := t.lanes &&& f.mask }
      let gone := ts.foldl (fun m t => m ||| t.lanes) 0
      s.modStrand sid fun st => st.goto s.clock idx (ts ++ [⟨f.mask &&& ~~~gone, pcPlus pc 1, none⟩]) rcv
    | _ => s

/-- The issuing strand and fragment index. -/
def State.issuer (s : State) : Option (Nat × Nat × Frag) :=
  match s.cur with
  | none => none
  | some (sid, idx) =>
    match aget s.strands sid with
    | none => none
    | some st => (st.frag? idx).map fun f => (sid, idx, f)

/-- The issuing strand. -/
def State.issuerStrand (s : State) : Strand := match s.issuer with | some (sid, _, _) => s.strand sid | none => default

/-- Outcomes of the model. -/
abbrev Out := Host.Outcome State Fault Refusal

/-- Holds for lanes that poisoned predicate words cover: the cause is the word's (R89). -/
def predHolds (bad : List (Nat × Word)) : List Hold := bad.map fun b => ⟨b.1, tokCause b.2, 0⟩

/-- Note the guard and predicate words among an instruction's uses as consumed (R136). -/
def State.eatUses (s : State) (sid : Nat) (m : Lanes) (us : List Use) : State :=
  (us.flatMap fun u => u.words (s.strand sid) m).foldl (fun s i => s.eatWord sid i) s

/-- The predicates that an instruction reads as sources. -/
def predSources (us : List Use) : List Use := us.filter fun u => u.kind == .pred && !u.write

/-- The guard as a use. -/
def guardUse (h : Hdr) : Use := ⟨.pred, h.guard.toNat, 1, false, false, true, 15⟩

/-- Predicate words that an instruction reads have been consumed: the guard's over the fragment, the sources' over the lanes
that pass it. -/
def State.eatPreds (s : State) (sid : Nat) (h : Hdr) (us : List Use) (mask pass : Lanes) : State :=
  (s.eatUses sid mask [guardUse h]).eatUses sid pass (predSources us)

/-- The uses whose last use is marked. -/
def lastUses (us : List Use) : List Use := us.filter fun u => u.last

/-- What the sources of an instruction leave: poison noted as consumed where its effect consumes it (R136), and the words of
marked last uses dead (R81). -/
def State.spent (s : State) (sid : Nat) (h : Hdr) (us : List Use) (mask pass act : Lanes) : State :=
  let s2 := (s.eatPreds sid h us mask pass).eatUses sid act (us.filter fun u => u.eats && u.kind != .pred)
  (lastUses us).foldl (fun s u => s.killUse sid act u) s2

/-- After an effect: what it made dead of lanes that it holds lives on (R148), and the poison that died is counted (R447). -/
def State.buried (s : State) (sid : Nat) (old : Strand) (us0 : List Use) (act : Lanes) (hs : List Hold) : State :=
  match lastUses us0 with
  | [] => s
  | us =>
    let held := maskOf (hs.map Hold.lane)
    let s := if held = 0 then s else us.foldl (fun s u => s.reviveUse sid old act held u) s
    s.countUses sid old act held us0

/-- The words that an instruction reads: its guard's and its sources'. -/
def sourceWords (st : Strand) (h : Hdr) (us : List Use) (m : Lanes) : List Nat :=
  (guardUse h :: us.filter fun u => !u.write).flatMap fun u => u.words st m

/-- The instruction's sources are available: none is still due (R45). -/
def Strand.available (st : Strand) (h : Hdr) (us : List Use) (m : Lanes) : Bool :=
  st.pend.isEmpty || (sourceWords st h us m).all fun i => (aget st.pend i).isNone

/-- The instruction tried is not ready: nothing of it happens (R45). -/
def State.unready (s : State) : State := { s with notReady := true }

/-- Issue an instruction (R214): reserved fields hold every lane of the fragment with 0x41; then, once the sources are available
(R45), the guard, poisoned predicate words, the budget, live-in protection, and the effect for the lanes left; marked last uses
die before results are written (R81). An instruction that is not ready changes nothing but the note that says so. -/
def State.issue (s : State) (legal : Bool) (h : Hdr) (us : List Use)
    (eff : State → Cx → State × List Hold × Go) : Out :=
  match s.issuer with
  | none => .fault .noIssuer
  | some (sid, idx, f) =>
    let st := s.strand sid
    if st.budgetCorrupt then .next (s.contain sid 0x51 0 f.pc none)
    else if !legal then .next (s.hold sid idx f.pc ((lanesOf f.mask).map fun l => ⟨l, 0x41, 0⟩))
    else if !st.available h us f.mask then .next s.unready
    else
      let s := s.checkParity sid f.pc (sourceWords st h us f.mask)
      let st := s.strand sid
      let (pass, bad) := st.guard s.tick h f.mask
      if us.any fun u => u.over st then
        .next ((s.eatUses sid f.mask [guardUse h]).finish sid idx f.pc
          ((lanesOf pass).map (fun l => ⟨l, 0x46, 0⟩) ++ predHolds bad) .next)
      else
        let bads := (predSources us).flatMap fun u => (st.readPred s.tick u.n u.quarters pass).2
        let act := pass &&& ~~~(maskOf (bads.map (·.1)))
        let hs := predHolds (bad ++ bads)
        let s1 := s.eatPreds sid h us f.mask pass
        if us.any fun u => u.protected st then
          .next (s1.finish sid idx f.pc (hs ++ (lanesOf act).map fun l => ⟨l, 0x4D, 0⟩) .next)
        else if act = 0 then .next (s1.finish sid idx f.pc hs .next)
        else
          match eff (s.spent sid h us f.mask pass act)
              ⟨sid, idx, { f with mask := f.mask &&& ~~~(maskOf (hs.map Hold.lane)) }, act, s⟩ with
          | (_, _, .stall) => .next s.unready
          | (s', hs', go) =>
            .next (((s'.buried sid st us act hs').finish sid idx f.pc (hs ++ hs') go).claspCheck sid)

end Sys2Proof.Machine
end

