-- ==== Sys2Proof/Machine/Operands.lean ====
section
/-! DEFINITION. Operand forms: special registers (R76, R77), source operands (R202), memory addresses (R206), destinations (R203), and
the frame of the classes VV, VI, SS and SI (R200, R253). -/
namespace Sys2Proof.Machine

/-- $event and $deadline among the special register codes (R76). -/
def specEVENT : BitVec 6 := 0x13
def specDEADLINE : BitVec 8 := 0x92

/-- The value of a special register for a lane of a strand (R76). -/
def State.special (s : State) (sid lane : Nat) (c : BitVec 6) : Dword :=
  let st := s.strand sid
  let b := s.block st.blk
  let g := s.grid st.gid
  let r := g.rcd
  let n (x : Nat) : Dword := BitVec.ofNat 64 x
  match c.toNat with
  | 0x00 => n lane
  | 0x01 => n (lane / 32)
  | 0x02 => n st.num
  | 0x03 => n b.num
  | 0x04 => n (s.nbhd b.nbhd).num
  | 0x05 => mk64 [(0, rcdW r), (8, rcdH r), (16, rcdSPB r)]
  | 0x06 => n (rcdN r)
  | 0x07 => r.getD 2 0
  | 0x08 => n s.did
  | 0x09 => n s.ptime
  | 0x0A => st.cycles
  | 0x0B => st.base
  | 0x0C => r.getD 1 0
  | 0x0D => 0xFE00000000000000
  | 0x0E => 0xFD00000000000000
  | 0x0F => mk64 [(32, g.first), (0, g.count)]
  | 0x10 => n g.cls
  | 0x11 => n (s.place sid)
  | 0x12 => st.ctl ctlDLINE
  | 0x13 => st.ctl ctlEVENT &&& 0xFFFFFFFF
  | _ => 0

/-- A source value: zero-extended to 64 bits, and its token when it is poisoned (R89, R130). -/
structure Src where
  v : Dword
  tok : Option Word
  deriving DecidableEq, Repr, Inhabited

/-- A value that is not poisoned. -/
def Src.ok (v : Dword) : Src := ⟨v, none⟩

/-- Read an operand for a lane, 64 bits wide or 32 (R202, R252). -/
def State.readOp (s : State) (sid lane : Nat) (wide : Bool) (o : Operand) : Src :=
  let st := s.strand sid
  let low (d : Dword) : Dword := if wide then d else d &&& 0xFFFFFFFF
  match o with
  | .vec n =>
    let lo := st.readWord s.tick (st.vecIx n.toNat lane)
    if wide then
      let hi := st.readWord s.tick (st.vecIx (n.toNat + 1) lane)
      ⟨join32 lo.data hi.data, pairTok lo hi⟩
    else ⟨join32 lo.data 0, if lo.mark then some lo.data else none⟩
  | .sc n =>
    let lo := st.readWord s.tick (st.scIx n.toNat)
    let hi := st.readWord s.tick (st.scIx n.toNat + 1)
    ⟨low (join32 lo.data hi.data), pairTok lo hi⟩
  | .spec c => .ok (low (s.special sid lane c))
  | .pred n =>
    .ok (BitVec.ofNat 64 (b2n ((st.readPred s.tick n.toNat 15 (maskOf [lane])).1 != 0)))
  | .zero => .ok 0
  | .other _ => .ok 0

/-- The register use of a source operand. -/
def opUse (o : Operand) (span : Nat) (last eats : Bool) : List Use :=
  match o with
  | .vec n => [⟨.vec, n.toNat, span, false, last, eats, 15⟩]
  | .sc n => [⟨.sc, n.toNat, 1, false, last, eats, 15⟩]
  | .pred n => [⟨.pred, n.toNat, 1, false, last, true, 15⟩]
  | .spec c => if c = 0x12 then [⟨.dline, 0, 1, false, false, false, 15⟩] else []
  | _ => []

/-- The register uses of a source of `span` registers that is read as a string: words of lanes that are not active among them (R95). -/
def strUse (o : Operand) (kind : RegKind) (span : Nat) (last : Bool) : List Use :=
  opUse o span last false ++ match o with
    | .vec n => [⟨kind, n.toNat, span, false, false, false, 15⟩]
    | _ => []

/-- The register use of a vector destination of `span` registers. -/
def vecDest (d : BitVec 8) (span : Nat) : Use := ⟨.vec, d.toNat, span, true, false, false, 15⟩

/-- The register use of a scalar destination; a special register has none. -/
def scDest (d : BitVec 8) (span : Nat) : List Use :=
  if d.toNat < 0x40 then [⟨.sc, d.toNat, span, true, false, false, 15⟩] else []

/-- The register use of a predicate destination. -/
def predDest (d : BitVec 8) : Use := ⟨.pred, d.toNat, 1, true, false, false, 15⟩

/-- Reading $event clears it in the same step (R77). -/
def State.clearEvent (s : State) (sid : Nat) (os : List Operand) : State :=
  if os.contains (.spec specEVENT) then s.modStrand sid fun st => st.setCtl ctlEVENT 0 else s

/-! ### The classes VV, VI, SS and SI -/

/-- SS and SI (R200). -/
def isScalar (h : Hdr) : Bool := h.oc.getLsbD 1

/-- The variant's .64 and .U (R252). -/
def vWide (b : AluBody) : Bool := b.var.getLsbD 0
def vU (b : AluBody) : Bool := b.var.getLsbD 1

/-- Source B as an operand, when it is one. -/
def srcBOp : SrcB → Operand
  | .reg o => o
  | .imm _ => .zero

/-- Which sources an instruction reads, and whether each is 64 bits wide. -/
structure Reads where
  a : Option Bool
  b : Option Bool
  c : Option Bool
  imm : Word → Dword

/-- The sign-extended literal (R252). -/
def immS (w : Word) : Dword := w.signExtend 64
def immZ (w : Word) : Dword := w.zeroExtend 64

/-- The register uses of an instruction's sources; poison bound for $deadline is consumed (R136, R256). -/
def srcUses (h : Hdr) (b : AluBody) (r : Reads) : List Use :=
  let u (o : Operand) (w : Option Bool) (last : Bool) : List Use :=
    match w with
    | some wide => opUse o (if wide then 2 else 1) last (isScalar h && h.dest == specDEADLINE)
    | none => []
  u b.a r.a h.lua ++ u (srcBOp b.b) r.b h.lub ++ u b.c r.c h.luc

/-- One lane's sources. -/
structure LaneIn where
  lane : Nat
  a : Src
  b : Src
  c : Src
  deriving DecidableEq, Repr

/-- Read the sources of a lane. -/
def State.readLane (s : State) (sid lane : Nat) (b : AluBody) (r : Reads) : LaneIn :=
  let rd (o : Operand) (w : Option Bool) : Src :=
    match w with
    | some wide => s.readOp sid lane wide o
    | none => .ok 0
  let vb : Src := match b.b with
    | .reg o => rd o r.b
    | .imm w => .ok (if r.b = some true then r.imm w else r.imm w &&& 0xFFFFFFFF)
  ⟨lane, rd b.a r.a, vb, rd b.c r.c⟩

/-- The operands an instruction reads. -/
def readOps (b : AluBody) (r : Reads) : List Operand :=
  (if r.a.isSome then [b.a] else []) ++ (if r.b.isSome then [(srcBOp b.b)] else []) ++ (if r.c.isSome then [b.c] else [])

/-- Lanes whose sources an instruction reads: the active lanes, or the lowest for all in SS and SI (R201). -/
def readLanes (h : Hdr) (m : Lanes) : List Nat := if isScalar h then (lanesOf m).take 1 else lanesOf m

/-- A function of a lane's sources, by R130's order of poisoned sources (R253). -/
def perLane (f : Dword → Dword → Dword → ReplyVal) (x : LaneIn) : Nat × ReplyVal :=
  (x.lane, match x.a.tok, x.b.tok, x.c.tok with
    | some t, _, _ => .tok t
    | _, some t, _ => .tok t
    | _, _, some t => .tok t
    | none, none, none => f x.a.v x.b.v x.c.v)

/-- A 32-bit or a 64-bit result. -/
def res32 (d : Dword) : ReplyVal := .words [loW d]
def res64 (d : Dword) : ReplyVal := .words [loW d, hiW d]
def resW (wide : Bool) (d : Dword) : ReplyVal := if wide then res64 d else res32 d

/-- Write one result to a scalar destination; a poisoned result for $deadline writes nothing and holds every active lane
(R203, R256). -/
def State.putScalarDest (s : State) (cx : Cx) (d : BitVec 8) (v : ReplyVal) : State × List Hold :=
  if d = specDEADLINE then
    match v with
    | .words ws => (s.putDeadline cx.sid (join32 (ws.getD 0 0) (ws.getD 1 0)), [])
    | _ => (s, (lanesOf cx.act).map fun l => ⟨l, 0x47, 0⟩)
  else
    let (s, v) := s.settle1 cx.sid cx.pc (lowest cx.act) v
    (s.putSc cx.sid d.toNat 1 v, [])

/-- What errors of the vector datapaths leave of a strand's next vector results: a retry corrects one, or the results of the lanes it
strikes are poison with 0x2F, where no source was poisoned and no fault came first (R130, R153); both are counted (R446). -/
def State.vecResults (s : State) (sid : Nat) (rs : List (Nat × ReplyVal)) : State × List (Nat × ReplyVal) :=
  let es := (s.strand sid).vecErr
  let s := if es.isEmpty then s else s.modStrand sid fun st => { st with vecErr := [] }
  es.foldl (fun acc e =>
    let k := acc.1.coreOf sid
    if e.2 then (acc.1.bump (rCECNT k) 0 32, acc.2)
    else (acc.1.bump (rUECNT k) 0 32, acc.2.map fun r =>
      match r.2 with
      | .words _ => if e.1.getLsbD r.1 then (r.1, .bad 0x2F 0x01 0) else r
      | _ => r)) (s, rs)

/-- Write per-lane results to vector registers. -/
def State.putLanes (s : State) (cx : Cx) (d span : Nat) (rs : List (Nat × ReplyVal)) : State :=
  let (s, rs) := s.vecResults cx.sid rs
  let (s, vs) := s.settle cx.sid cx.pc (rs.map fun r => (some r.1, r.2))
  vs.foldl (fun s v => match v.1 with | some l => s.putVec cx.sid d span l v.2 | none => s) s

/-- The use of the destination of an instruction in a class VV, VI, SS or SI. -/
def aluDest (h : Hdr) (span : Nat) : List Use := if isScalar h then scDest h.dest 1 else [vecDest h.dest span]

/-- The results of an instruction, from all lanes' sources at once (R35). -/
def Cx.results (cx : Cx) (h : Hdr) (b : AluBody) (r : Reads) (f : List LaneIn → List (Nat × ReplyVal)) :
    List (Nat × ReplyVal) :=
  f ((readLanes h cx.act).map fun l => cx.src.readLane cx.sid l b r)

/-- The effect of an instruction of groups 0x1 to 0x6 that writes registers: its results go to the vector register or pair
named, or the one result to the scalar. -/
def aluEff (h : Hdr) (b : AluBody) (r : Reads) (wide : Bool) (f : List LaneIn → List (Nat × ReplyVal)) (s : State) (cx : Cx) :
    State × List Hold × Go :=
  let rs := cx.results h b r f
  let s := s.clearEvent cx.sid (readOps b r)
  if isScalar h then
    let (s, hs) := s.putScalarDest cx h.dest (rs.headD (0, .words [])).2
    (s, hs, .next)
  else (s.putLanes cx h.dest.toNat (if wide then 2 else 1) rs, [], .next)

/-- An instruction with that effect. -/
def State.alu (s : State) (legal : Bool) (h : Hdr) (b : AluBody) (r : Reads) (wide : Bool)
    (f : List LaneIn → List (Nat × ReplyVal)) : Out :=
  s.issue legal h (srcUses h b r ++ aluDest h (if wide then 2 else 1)) (aluEff h b r wide f)

/-! ### Memory operands (R206, R329) -/

/-- OFFSET: 20 bits, or 12 in group 0xA (R206). -/
def memOff (b : MemBody) (atomic : Bool) : Dword :=
  if atomic then (b.off.extractLsb' 0 12).signExtend 64 else b.off.signExtend 64

/-- EA of a lane, or the token of a poisoned BASE, else INDEX. -/
def State.ea (s : State) (sid lane : Nat) (b : MemBody) (atomic : Bool) : Except Word Dword :=
  let ba := s.readOp sid lane true b.base
  let ix := s.readOp sid lane false b.index
  match ba.tok, ix.tok with
  | some t, _ => .error t
  | _, some t => .error t
  | none, none => .ok (ba.v + (((loW ix.v).signExtend 64) <<< b.shift.toNat) + memOff b atomic)

/-- The register uses of an address; `eats` when a poisoned address enters the locket (R135). -/
def eaUses (h : Hdr) (b : MemBody) (eats : Bool) : List Use :=
  opUse b.base 2 h.lua eats ++ opUse b.index 1 h.lub eats

/-- Bytes of an access (R206). -/
def memSize (b : MemBody) : Nat := 2 ^ b.size.toNat

/-! ### Accesses that must follow others (R45, R69, R169, R170) -/

/-- The place of an address that translates for some kind of access. -/
def State.locate (s : State) (sid : Nat) (addr : Dword) : State × Option Place :=
  match s.translate (s.whoOf sid) .read addr with
  | (s, .ok p) => (s, some p)
  | (s, .error _) =>
    match s.translate (s.whoOf sid) .fetch addr with
    | (s, .ok p) => (s, some p)
    | (s, .error _) =>
      match s.translate (s.whoOf sid) .write addr with
      | (s, .ok p) => (s, some p)
      | (s, .error _) => (s, none)

/-- An access of a lane, or of its whole fragment for 128, to `len` bytes from an address must follow one that has not been performed, or
touches an image word whose result is still due (R45, R69, R169, R170). -/
def State.waitsFor (s : State) (sid lane : Nat) (a : Dword) (len : Nat) (rel : Bool) : Bool :=
  let st := s.strand sid
  let us := s.unperformed sid
  if us.isEmpty && st.pend.isEmpty then false
  else (List.range ((len + 3) / 4)).any fun i =>
    match (s.locate sid (a + BitVec.ofNat 64 (4 * i))).2 with
    | none => false
    | some p => us.any (mustFollow lane p rel) ||
        (match s.ownImage (s.whoLane sid lane) p.loc with
         | some (_, w) => (aget st.pend w).isSome
         | none => false)

end Sys2Proof.Machine
end

