-- ==== Sys2Proof/Machine/Flags.lean ====
section
/-! DEFINITION. Predicates: writing predicate words (R131, R203), comparison codes (R255), and the frames of the instructions that
write a predicate. -/
namespace Sys2Proof.Machine

/-- Write a predicate word for lanes: their bits are live, the others as dead as they were (R81). -/
def State.wrPred (s : State) (sid i : Nat) (bits : Word) (w : MWord) : State :=
  let dead := ((aget (s.strand sid).deadBits i).getD 0) &&& ~~~bits
  (s.wrImg sid i w).modStrand sid fun st => { st with deadBits := aputD 0 st.deadBits i dead }

/-- Write predicate bits of lanes. A word that covers a lane with a poisoned result takes the token of the lowest such
lane; otherwise the lanes' bits change, the others keep theirs, and the word is unmarked (R131, R255). A write to p15
changes nothing (R66). -/
def State.putPred (s : State) (sid n : Nat) (rs : List (Nat × Except Word Bool)) : State :=
  if n = 15 then s
  else
    (List.range 4).foldl (fun s q =>
      let mine := rs.filter fun r => r.1 / 32 == q
      if mine.isEmpty then s
      else
        let i := (s.strand sid).predIx n q
        let bits := maskWord (maskOf (mine.map (·.1))) q
        match mine.findSome? fun r => match r.2 with | .error t => some t | .ok _ => none with
        | some t => s.wrPred sid i bits ⟨t, true⟩
        | none =>
          let old := ((s.strand sid).readWord s.tick i).data
          let new := mine.foldl (fun (w : Word) r =>
            let bit : Word := 1#32 <<< (r.1 % 32)
            match r.2 with
            | .ok true => w ||| bit
            | _ => w &&& ~~~bit) old
          s.wrPred sid i bits ⟨new, false⟩) s

/-- A comparison code on integers: 0 .EQ, 1 .NE, 2 .LT, 3 .LE, 4 .GT, 5 .GE (R255). -/
def cmpInt (code : Nat) (x y : Int) : Bool :=
  match code with
  | 0 => x == y
  | 1 => x != y
  | 2 => x < y
  | 3 => x ≤ y
  | 4 => x > y
  | _ => x ≥ y

/-- A truth value as a result. -/
def resB (b : Bool) : ReplyVal := .words [if b then 1 else 0]

/-- The predicate result of a settled value. -/
def predBit : ReplyVal → Except Word Bool
  | .words ws => .ok (ws.getD 0 0 != 0)
  | .tok t => .error t
  | .bad c o _ => .error (mkTok c o 0xFFFF)

/-- Settle results and write them to a predicate. -/
def State.putPredLanes (s : State) (cx : Cx) (d : BitVec 8) (rs : List (Nat × ReplyVal)) : State :=
  let (s, vs) := s.settle cx.sid cx.pc (rs.map fun r => (some r.1, r.2))
  s.putPred cx.sid d.toNat (vs.filterMap fun v => v.1.map fun l => (l, predBit v.2))

/-- The effect of an instruction that writes a predicate: per lane in VV and VI; in SS and SI the one result goes to every
active lane's bit (R255). -/
def aluPredEff (h : Hdr) (b : AluBody) (r : Reads) (f : List LaneIn → List (Nat × ReplyVal)) (s : State) (cx : Cx) :
    State × List Hold × Go :=
  let rs := cx.results h b r f
  let s := s.clearEvent cx.sid (readOps b r)
  let rs := if isScalar h then (lanesOf cx.act).map fun l => (l, (rs.headD (0, .words [])).2) else rs
  (s.putPredLanes cx h.dest rs, [], .next)

/-- An instruction with that effect. -/
def State.aluPred (s : State) (legal : Bool) (h : Hdr) (b : AluBody) (r : Reads)
    (f : List LaneIn → List (Nat × ReplyVal)) : Out :=
  s.issue legal h (srcUses h b r ++ [predDest h.dest]) (aluPredEff h b r f)

end Sys2Proof.Machine
end

