-- ==== Sys2Proof/Machine/Float.lean ====
section
/-! DEFINITION. The meanings of groups 0x4 and 0x5: float arithmetic (R275 to R280), the transcendentals (R281 to R283) and the
short dot products (R284). -/
namespace Sys2Proof.Machine

/-! ### Shared operations -/

/-- The format of TYPE, and whether the mode is toward −∞. -/
def typFmt (h : Hdr) : FloatFmt := floatFmt h.typ.toNat
def rmDown (b : AluBody) : Bool := b.rm == 3

/-- A pattern as a result; none is poison 0x20 (R113). -/
def floatRes (r : Option Nat) : ReplyVal :=
  match r with
  | some n => .words [BitVec.ofNat 32 n]
  | none => .bad 0x20 0x01 0

/-- The value of a lone element in a word (R274). -/
def FloatFmt.ofWord (f : FloatFmt) (d : Dword) : Val := f.decode (d.toNat % 2 ^ (f.ew + f.fw + 1))

/-- FloatOp of R275 on one word. -/
def floatOp (f : FloatFmt) (b : AluBody) (e : Val → Val → Val → Val) (x y z : Dword) : ReplyVal :=
  floatRes (f.encode b.rm.toNat b.sat (e (f.ofWord x) (f.ofWord y) (f.ofWord z)))

/-- Sources a, b and perhaps c, one word each; a literal is a bit pattern (R273). -/
def floatReads (nb nc : Bool) : Reads :=
  ⟨some false, if nb then some false else none, if nc then some false else none, immZ⟩

/-- An instruction under FloatOp. -/
def State.floatAlu (s : State) (i : Instr) (h : Hdr) (b : AluBody) (nb nc : Bool) (e : Val → Val → Val → Val) : Out :=
  s.alu (legal i) h b (floatReads nb nc) false (List.map (perLane (floatOp (typFmt h) b e)))

/-- E of FADD, FMUL, FFMA, FMIN and FMAX (R276, R277). -/
def addE (rd : Bool) (x y : Val) : Val := sumVals rd [x, y]
def fmaE (rd : Bool) (x y z : Val) : Val := sumVals rd [mulVal x y, z]
def minE (x y : Val) : Val := nan2 x y (if leVal x y then x else y)
def maxE (x y : Val) : Val := nan2 x y (if leVal x y then y else x)

/-- The sign of a value, and a value with a sign. -/
def signOf : Val → Bool
  | .fin n _ _ => n
  | .inf n => n
  | _ => false
def withSign (n : Bool) : Val → Val
  | .fin _ m e => .fin n m e
  | .inf _ => .inf n
  | v => v

/-! ### Group 0x4 (R276 to R279) -/

def execFadd (h : Hdr) (b : AluBody) (s : State) : Out :=
  s.floatAlu (.fadd h b) h b true false fun x y _ => addE (rmDown b) x y
def execFsub (h : Hdr) (b : AluBody) (s : State) : Out :=
  s.floatAlu (.fsub h b) h b true false fun x y _ => addE (rmDown b) x (negVal y)
def execFmul (h : Hdr) (b : AluBody) (s : State) : Out :=
  s.floatAlu (.fmul h b) h b true false fun x y _ => mulVal x y
def execFfma (h : Hdr) (b : AluBody) (s : State) : Out :=
  s.floatAlu (.ffma h b) h b true true (fmaE (rmDown b))
def execFmin (h : Hdr) (b : AluBody) (s : State) : Out :=
  s.floatAlu (.fmin h b) h b true false fun x y _ => minE x y
def execFmax (h : Hdr) (b : AluBody) (s : State) : Out :=
  s.floatAlu (.fmax h b) h b true false fun x y _ => maxE x y
def execFabs (h : Hdr) (b : AluBody) (s : State) : Out :=
  s.floatAlu (.fabs h b) h b false false fun x _ _ => withSign false x
def execFneg (h : Hdr) (b : AluBody) (s : State) : Out :=
  s.floatAlu (.fneg h b) h b false false fun x _ _ => negVal x
def execFcpys (h : Hdr) (b : AluBody) (s : State) : Out :=
  s.floatAlu (.fcpys h b) h b true false fun x y _ => nan2 x y (withSign (signOf y) x)
def execFdiv (h : Hdr) (b : AluBody) (s : State) : Out :=
  s.floatAlu (.fdiv h b) h b true false fun x y _ => divVal x y
def execFsqrt (h : Hdr) (b : AluBody) (s : State) : Out :=
  s.floatAlu (.fsqrt h b) h b false false fun x _ _ => sqrtVal x
def execFrnd (h : Hdr) (b : AluBody) (s : State) : Out :=
  s.floatAlu (.frnd h b) h b false false fun x _ _ => integral b.rm.toNat x

/-- FSCALE: source B is a signed integer (R276). -/
def execFscale (h : Hdr) (b : AluBody) (s : State) : Out :=
  s.alu (legal (.fscale h b)) h b ⟨some false, some false, none, immS⟩ false (List.map (perLane fun x y _ =>
    floatRes ((typFmt h).encode b.rm.toNat b.sat (scaleBy ((typFmt h).ofWord x) (loW y).toInt))))

/-- A compare code on ordered operands, or on a quiet NaN (R278). -/
def cmpFloat (code : Nat) (x y : Val) : Bool :=
  if x = .qnan || y = .qnan then code == 1 || code == 6
  else
    let eq := eqVal x y
    match code with
    | 0 => eq
    | 1 => !eq
    | 2 => leVal x y && !eq
    | 3 => leVal x y || eq
    | 4 => leVal y x && !eq
    | 5 => leVal y x || eq
    | _ => false

/-- FCMP (R278). -/
def execFcmp (h : Hdr) (b : AluBody) (s : State) : Out :=
  s.aluPred (legal (.fcmp h b)) h b (floatReads true false) (List.map (perLane fun x y _ =>
    let u := (typFmt h).ofWord x
    let v := (typFmt h).ofWord y
    if u = .snan || v = .snan then .bad 0x20 0x01 0 else resB (cmpFloat (fld b.var 2 3) u v)))

/-- The class bit of a pattern (R279). -/
def classBit (f : FloatFmt) (bits : Nat) : Nat :=
  let e := bits / 2 ^ f.fw % 2 ^ f.ew
  match f.decode bits with
  | .inf n => if n then 0 else 7
  | .snan => 8
  | .qnan => 9
  | .fin n m _ => if m = 0 then (if n then 3 else 4) else if e = 0 then (if n then 2 else 5) else (if n then 1 else 6)

/-- FCLASS (R279). -/
def execFclass (h : Hdr) (b : AluBody) (s : State) : Out :=
  s.alu (legal (.fclass h b)) h b (floatReads false false) false (List.map (perLane fun x _ _ =>
    let f := typFmt h
    .words [BitVec.ofNat 32 (2 ^ classBit f (x.toNat % 2 ^ (f.ew + f.fw + 1)))]))

/-! ### Packed halves (R280) -/

/-- Both halves of a packed instruction; the first invalid half makes the word poison. -/
def halves (f : FloatFmt) (b : AluBody) (e : Val → Val → Val → Val) (x y z : Dword) : ReplyVal :=
  let half (k : Nat) : Option Nat :=
    f.encode b.rm.toNat b.sat (e (f.decode (fld x (16 * k) 16)) (f.decode (fld y (16 * k) 16)) (f.decode (fld z (16 * k) 16)))
  match half 0, half 1 with
  | some lo, some hi => .words [BitVec.ofNat 32 (lo + 65536 * hi)]
  | _, _ => .bad 0x20 0x01 0

/-- The literal of a packed pair stands in both halves (R273). -/
def immPair (w : Word) : Dword := BitVec.ofNat 64 (fld w 0 16 + 65536 * fld w 0 16)

/-- A packed-pair instruction. -/
def State.packedAlu (s : State) (i : Instr) (h : Hdr) (b : AluBody) (nc : Bool) (e : Val → Val → Val → Val) : Out :=
  s.alu (legal i) h b { floatReads true nc with imm := immPair } false (List.map (perLane (halves (typFmt h) b e)))

def execHadd2 (h : Hdr) (b : AluBody) (s : State) : Out :=
  s.packedAlu (.hadd2 h b) h b false fun x y _ => addE (rmDown b) x y
def execHmul2 (h : Hdr) (b : AluBody) (s : State) : Out :=
  s.packedAlu (.hmul2 h b) h b false fun x y _ => mulVal x y
def execHfma2 (h : Hdr) (b : AluBody) (s : State) : Out :=
  s.packedAlu (.hfma2 h b) h b true (fmaE (rmDown b))
def execHmin2 (h : Hdr) (b : AluBody) (s : State) : Out :=
  s.packedAlu (.hmin2 h b) h b false fun x y _ => minE x y
def execHmax2 (h : Hdr) (b : AluBody) (s : State) : Out :=
  s.packedAlu (.hmax2 h b) h b false fun x y _ => maxE x y

/-! ### Group 0x5 (R281 to R284) -/

/-- A transcendental, by its opcode. -/
def State.approxAlu (s : State) (i : Instr) (h : Hdr) (b : AluBody) (op : Nat) : Out :=
  s.alu (legal i) h b (floatReads false false) false (List.map (perLane fun x _ _ =>
    let f := typFmt h
    floatRes (approxResult op h.typ.toNat (x.toNat % 2 ^ (f.ew + f.fw + 1)))))

def execFrcp (h : Hdr) (b : AluBody) (s : State) : Out := s.approxAlu (.frcp h b) h b 0x140
def execFrsq (h : Hdr) (b : AluBody) (s : State) : Out := s.approxAlu (.frsq h b) h b 0x141
def execFexp2 (h : Hdr) (b : AluBody) (s : State) : Out := s.approxAlu (.fexp2 h b) h b 0x142
def execFlog2 (h : Hdr) (b : AluBody) (s : State) : Out := s.approxAlu (.flog2 h b) h b 0x143
def execFsin (h : Hdr) (b : AluBody) (s : State) : Out := s.approxAlu (.fsin h b) h b 0x144
def execFcos (h : Hdr) (b : AluBody) (s : State) : Out := s.approxAlu (.fcos h b) h b 0x145
def execFtanh (h : Hdr) (b : AluBody) (s : State) : Out := s.approxAlu (.ftanh h b) h b 0x146

/-- The products of packed elements: n elements of w bits of formats ta and tb. -/
def products (n w ta tb : Nat) (x y : Dword) : List Val :=
  (List.range n).map fun i => mulVal (decodeElem ta (fld x (w * i) w)) (decodeElem tb (fld y (w * i) w))

/-- A float dot product onto F32 c (R284). -/
def State.dotAlu (s : State) (i : Instr) (h : Hdr) (b : AluBody) (n w : Nat) : Out :=
  s.alu (legal i) h b (floatReads true true) false (List.map (perLane fun x y z =>
    floatRes ((floatFmt 0).encode b.rm.toNat b.sat
      (sumVals (rmDown b) ((floatFmt 0).ofWord z :: products n w b.ty2.toNat b.ty3.toNat x y)))))

def execFdot4 (h : Hdr) (b : AluBody) (s : State) : Out := s.dotAlu (.fdot4 h b) h b 4 8
def execHdot2 (h : Hdr) (b : AluBody) (s : State) : Out := s.dotAlu (.hdot2 h b) h b 2 16

/-- An 8-bit integer element of I8 or N8. -/
def byteInt (t : Nat) (d : Dword) (i : Nat) : Int := if t = 8 then signed 8 (fld d (8 * i) 8) else fld d (8 * i) 8

/-- IDOT4 (R284). -/
def execIdot4 (h : Hdr) (b : AluBody) (s : State) : Out :=
  s.alu (legal (.idot4 h b)) h b (floatReads true true) false (List.map (perLane fun x y z =>
    let sum := (List.range 4).foldl (fun (a : Int) i => a + byteInt b.ty2.toNat x i * byteInt b.ty3.toNat y i) (loW z).toInt
    .words [wordI (if b.sat then max (-(2 ^ 31)) (min (2 ^ 31 - 1) sum) else sum)]))

end Sys2Proof.Machine
end

