-- ==== Sys2Proof/Machine/Convert.lean ====
section
/-! DEFINITION. The meanings of group 0x6: conversions and quantisation (R285 to R297). -/
namespace Sys2Proof.Machine

/-! ### Writing parts of words (R117, R286, R289) -/

/-- An element to be written: its first bit and its width in a string of words, and its pattern or a token. -/
structure ElemW where
  lo : Nat
  w : Nat
  v : Except Word Nat

/-- The element has bits in word k. -/
def ElemW.inWord (e : ElemW) (k : Nat) : Bool := e.lo < 32 * k + 32 && 32 * k < e.lo + e.w

/-- A pattern of an element as bits of word k. -/
def ElemW.bits (e : ElemW) (k n : Nat) : Word :=
  BitVec.ofNat 32 (if 32 * k ≤ e.lo then n * 2 ^ (e.lo - 32 * k) else n / 2 ^ (32 * k - e.lo))

/-- Word k after elements are written in ascending order (R286). `whole` masks the bits that count as written. -/
def mergeElems (old : MWord) (k : Nat) (whole : Word) (es : List ElemW) : MWord :=
  match es.findSome? fun e => match e.v with | .error t => some t | .ok _ => none with
  | some t => ⟨t, true⟩
  | none =>
    if old.mark && whole != 0xFFFFFFFF then old
    else
      ⟨es.foldl (fun d e =>
        let m := e.bits k (2 ^ e.w - 1)
        (d &&& ~~~m) ||| (match e.v with | .ok n => e.bits k n | .error _ => 0)) old.data, false⟩

/-- The bits of word k that elements cover. -/
def coverOf (k : Nat) (es : List ElemW) : Word := es.foldl (fun m e => m ||| e.bits k (2 ^ e.w - 1)) 0

/-- A word that elements are merged into is read, unless they cover it whole (R87). -/
def State.readMerged (s : State) (sid ix : Nat) (whole : Word) : State :=
  if whole = 0xFFFFFFFF then s else s.checkParity sid s.readerPc [ix]

/-- Write elements into one word of the image. -/
def State.putParts (s : State) (sid ix : Nat) (es : List ElemW) : State :=
  let s := s.readMerged sid ix (coverOf 0 es)
  s.wrImg sid ix (mergeElems ((s.strand sid).readWord s.tick ix) 0 (coverOf 0 es) es)

/-- Write elements into the string of vector register d. -/
def State.putElems (s : State) (sid d : Nat) (es : List ElemW) : State :=
  (List.range 128).foldl (fun s k =>
    let mine := es.filter fun e => e.inWord k
    if mine.isEmpty then s
    else
      let ix := (s.strand sid).vecIx d k
      let s := s.readMerged sid ix (coverOf k mine)
      s.wrImg sid ix (mergeElems ((s.strand sid).readWord s.tick ix) k (coverOf k mine) mine)) s

/-- T5 digits written into bytes: element number and digit + 1. A byte with a poisoned digit is poisoned; a byte whose old
value is invalid supplies zeros (R289). -/
def t5Bytes (old : Nat → Nat) (es : List (Nat × Except Word Nat)) : List (ElemW × Bool) :=
  (List.range 410).filterMap fun n =>
    let mine := es.filter fun e => e.1 / 5 == n
    if mine.isEmpty then none
    else
      let tok := mine.findSome? fun e => match e.2 with | .error t => some t | .ok _ => none
      let digit (k : Nat) : Nat :=
        match mine.find? fun e => e.1 % 5 == k with
        | some (_, .ok d) => d
        | _ => (((t5Digit (old n) k).getD 0) + 1).toNat
      let byte := (List.range 5).foldl (fun a k => a + digit k * 3 ^ k) 0
      some (⟨8 * n, 8, match tok with | some t => .error t | none => .ok byte⟩, mine.length == 5)

/-- Write T5 digits into the string of vector register d. A word counts as written whole when all twenty of its digits
are. -/
def State.putDigits (s : State) (sid d : Nat) (es : List (Nat × Except Word Nat)) : State :=
  let touched := ((List.range 128).filter fun k => es.any fun e => e.1 / 20 == k).map fun k => (s.strand sid).vecIx d k
  let s := s.checkParity sid s.readerPc touched
  let st := s.strand sid
  let old (n : Nat) : Nat := (byteOf (st.readWord s.tick (st.vecIx d (n / 4))).data (n % 4)).toNat
  let bs := t5Bytes old es
  (List.range 128).foldl (fun s k =>
    let mine := bs.filter fun e => e.1.inWord k
    if mine.isEmpty then s
    else
      let ix := (s.strand sid).vecIx d k
      let whole := coverOf k ((mine.filter (·.2)).map (·.1))
      s.wrImg sid ix (mergeElems ((s.strand sid).readWord s.tick ix) k whole (mine.map (·.1)))) s

/-! ### Reading parts of strings -/

/-- The words of the string of a vector register. -/
def State.stringOf (s : State) (sid : Nat) (o : Operand) : List MWord :=
  let st := s.strand sid
  match o with
  | .vec n => (List.range 128).map fun l => st.readWord s.tick (st.vecIx n.toNat l)
  | _ => []

/-- An element of a string, or the token of the lower word that poisons it (R96). -/
def readElem (ws : List MWord) (lo w : Nat) : Except Word Nat :=
  let a := ws.getD (lo / 32) ⟨0, false⟩
  let b := ws.getD ((lo + w - 1) / 32) ⟨0, false⟩
  if a.mark then .error a.data
  else if b.mark then .error b.data
  else .ok ((a.data.toNat + 2 ^ 32 * b.data.toNat) / 2 ^ (lo % 32) % 2 ^ w)

/-- A result turned back into what an element takes. -/
def elemOf (v : ReplyVal) : Except Word Nat :=
  match v with
  | .words ws => .ok (ws.getD 0 0).toNat
  | .tok t => .error t
  | .bad c o _ => .error (mkTok c o 0xFFFF)

/-- A source word as a value of a format, or its token. -/
def srcVal (t : Nat) (x : Src) : Except Word Val :=
  match x.tok with
  | some t => .error t
  | none => .ok (decodeElem t (fld x.v 0 (elemWidth t)))

/-- The result of rounding a value into a type code. -/
def encodeRes (t mode : Nat) (sat : Bool) (v : Val) : ReplyVal := floatRes (encodeElem t mode sat v)

/-! ### Within a lane (R285 to R288) -/

/-- The effect of an instruction that writes parts of each active lane's word of DEST, or of the low word of the scalar or of
$deadline, whose high word it clears: per lane the parts and their values. A poisoned result for $deadline writes nothing and
holds the lanes (R256). -/
def partEff (h : Hdr) (b : AluBody) (r : Reads) (f : LaneIn → List (Nat × Nat × ReplyVal)) (s : State) (cx : Cx) :
    State × List Hold × Go :=
  let ins := (readLanes h cx.act).map fun l => cx.src.readLane cx.sid l b r
  let s := s.clearEvent cx.sid (readOps b r)
  let rs := ins.flatMap fun x => (f x).map fun p => (x.lane, p)
  if isScalar h && h.dest == specDEADLINE then
    let es : List ElemW := rs.map fun r => ⟨r.2.1, r.2.2.1, elemOf r.2.2.2⟩
    let w := mergeElems ⟨loW ((s.strand cx.sid).ctl ctlDLINE), false⟩ 0 (coverOf 0 es) es
    if w.mark then (s, (lanesOf cx.act).map fun l => ⟨l, 0x47, 0⟩, .next)
    else (s.putDeadline cx.sid (join32 w.data 0), [], .next)
  else
  let (s, vs) := s.settle cx.sid cx.pc (rs.map fun r => (some r.1, r.2.2.2))
  let done := rs.zip (vs.map (·.2))
  let parts (l : Nat) : List ElemW :=
    (done.filter fun x => x.1.1 == l).map fun x => ⟨x.1.2.1, x.1.2.2.1, elemOf x.2⟩
  if isScalar h then
    let ix := (s.strand cx.sid).scIx h.dest.toNat
    let s := s.putParts cx.sid ix (parts ((ins.head?.map LaneIn.lane).getD 0))
    let lo := (s.strand cx.sid).word ix
    (s.wrImg cx.sid (ix + 1) (if lo.mark then ⟨lo.data, true⟩ else ⟨0, false⟩), [], .next)
  else
    (ins.foldl (fun s x => s.putParts cx.sid ((s.strand cx.sid).vecIx h.dest.toNat x.lane) (parts x.lane)) s, [], .next)

/-- An instruction with that effect. -/
def State.partAlu (s : State) (i : Instr) (h : Hdr) (b : AluBody) (r : Reads)
    (f : LaneIn → List (Nat × Nat × ReplyVal)) : Out :=
  s.issue (legal i) h (srcUses h b r ++ aluDest h 1) (partEff h b r f)

/-- CVT: element j of the source to element k of the destination (R285). -/
def execCvt (h : Hdr) (b : AluBody) (s : State) : Out :=
  let t := h.typ.toNat
  let t2 := b.ty2.toNat
  let k := fld b.var 4 4
  let j := fld b.var 0 4
  s.partAlu (.cvt h b) h b (floatReads false false) fun x =>
    [(k * elemWidth t, elemWidth t, match x.a.tok with
      | some t => .tok t
      | none => encodeRes t b.rm.toNat b.sat (decodeElem t2 (fld x.a.v (j * elemWidth t2) (elemWidth t2))))]

/-- CVTP (R287): a poisoned source marks the whole word, a first, before any fault of the conversions themselves (R130). -/
def execCvtp (h : Hdr) (b : AluBody) (s : State) : Out :=
  let t := h.typ.toNat
  let w := elemWidth t
  let k := 2 * b2n (b.var.getLsbD 2)
  s.partAlu (.cvtp h b) h b (floatReads true false) fun x =>
    let conv (y : Src) : ReplyVal := match x.a.tok.or x.b.tok with
      | some t => .tok t
      | none => encodeRes t b.rm.toNat b.sat ((floatFmt 0).ofWord y.v)
    [(k * w, w, conv x.a), ((k + 1) * w, w, conv x.b)]

/-- CVTS: VAR bit 0 .64, bit 1 .U, bit 2 .TOI (R288). -/
def execCvts (h : Hdr) (b : AluBody) (s : State) : Out :=
  let toi := b.var.getLsbD 2
  let wide := vWide b
  if toi then
    s.alu (legal (.cvts h b)) h b ⟨some false, none, none, immZ⟩ wide (List.map (perLane fun x _ _ =>
      let lo : Int := if vU b then 0 else -(2 ^ ((if wide then 64 else 32) - 1))
      let hi : Int := if vU b then 2 ^ (if wide then 64 else 32) - 1 else 2 ^ ((if wide then 64 else 32) - 1) - 1
      match toInt b.rm.toNat lo hi ((typFmt h).ofWord x) with
      | some n => resW wide (dword n)
      | none => .bad 0x20 0x01 0))
  else
    s.alu (legal (.cvts h b)) h b ⟨some wide, none, none, immZ⟩ false (List.map (perLane fun x _ _ =>
      let n : Int := if vU b then x.toNat % 2 ^ (if wide then 64 else 32) else signed (if wide then 64 else 32) x.toNat
      encodeRes h.typ.toNat b.rm.toNat b.sat (valInt n)))

/-! ### Chunks (R289, R291) -/

/-- Write one element for each lane of a list at a chunk of d, in a type code 0 to 13. -/
def State.putChunk (s : State) (sid d t c : Nat) (rs : List (Nat × Except Word Nat)) : State :=
  if t = 13 then s.putDigits sid d (rs.map fun r => (128 * c + r.1, r.2))
  else s.putElems sid d (rs.map fun r => ⟨(128 * c + r.1) * elemWidth t, elemWidth t, r.2⟩)

/-- Settle results of lanes and give what each element takes. -/
def State.settleElems (s : State) (cx : Cx) (rs : List (Nat × ReplyVal)) : State × List (Nat × Except Word Nat) :=
  let (s, vs) := s.settle cx.sid cx.pc (rs.map fun r => (some r.1, r.2))
  (s, vs.filterMap fun v => v.1.map fun l => (l, elemOf v.2))

/-- The sources of the active lanes of a vector form. -/
def Cx.ins (cx : Cx) (b : AluBody) (r : Reads) : List LaneIn :=
  (lanesOf cx.act).map fun l => cx.src.readLane cx.sid l b r

/-- Source a alone, one word. -/
def readsA : Reads := ⟨some false, none, none, immZ⟩

/-- The effect of PACK (R291). -/
def packEff (h : Hdr) (b : AluBody) (s : State) (cx : Cx) : State × List Hold × Go :=
  let ins := cx.ins b readsA
  let s := s.clearEvent cx.sid [b.a]
  let (s, es) := s.settleElems cx (ins.map fun x => (x.lane, match srcVal b.ty2.toNat x.a with
    | .error t => .tok t
    | .ok v => encodeRes h.typ.toNat b.rm.toNat b.sat v))
  (s.putChunk cx.sid h.dest.toNat h.typ.toNat (fld b.var 0 4) es, [], .next)

/-- PACK (R291). -/
def execPack (h : Hdr) (b : AluBody) (s : State) : Out :=
  s.issue (legal (.pack h b)) h (srcUses h b readsA ++ [vecDest h.dest 1]) (packEff h b)

/-- The image address of word k of a vector register's string: ADDR of a register cause (R129). -/
def Cx.stringAddr (cx : Cx) (o : Operand) (k : Nat) : Dword :=
  match o with
  | .vec n => (cx.src.strand cx.sid).wordVa ((cx.src.strand cx.sid).vecIx n.toNat k)
  | .sc n => (cx.src.strand cx.sid).wordVa ((cx.src.strand cx.sid).scIx n.toNat)
  | _ => 0

/-- Element e of a string in a type code 0 to 13: the value, its token, or an invalid T5 byte (R103); `addr` is the address for the
record of a fault in byte n. -/
def stringElem (ws : List MWord) (t e : Nat) (addr : Nat → Dword) : Except ReplyVal Val :=
  if t = 13 then
    match readElem ws (8 * (e / 5)) 8 with
    | .error k => .error (.tok k)
    | .ok byte =>
      match t5Digit byte (e % 5) with
      | some d => .ok (valInt d)
      | none => .error (.bad 0x21 0x01 (addr (e / 5)))
  else
    match readElem ws (e * elemWidth t) (elemWidth t) with
    | .error k => .error (.tok k)
    | .ok n => .ok (decodeElem t n)

/-- The effect of UNPACK (R291): VAR bit 4 is .INT. -/
def unpackEff (h : Hdr) (b : AluBody) (s : State) (cx : Cx) : State × List Hold × Go :=
  let ws := cx.src.stringOf cx.sid b.a
  let rs := (lanesOf cx.act).map fun l =>
    (l, match stringElem ws b.ty2.toNat (128 * fld b.var 0 4 + l) (fun n => cx.stringAddr b.a (n / 4)) with
      | .error r => r
      | .ok v =>
        if b.var.getLsbD 4 then
          (match v with
           | .fin n m _ => .words [wordI (if n then -(m : Int) else m)]
           | _ => .words [0])
        else encodeRes h.typ.toNat b.rm.toNat false v)
  (s.putLanes cx h.dest.toNat 1 rs, [], .next)

/-- UNPACK (R291): VAR bit 4 is .INT. -/
def execUnpack (h : Hdr) (b : AluBody) (s : State) : Out :=
  s.issue (legal (.unpack h b)) h (strUse b.a (.elems b.ty2.toNat (fld b.var 0 4)) 1 h.lua ++ [vecDest h.dest 1])
    (unpackEff h b)

/-! ### T5 bytes (R292) -/

/-- T5PK: an I2 element of −2 counts as −1. -/
def execT5pk (h : Hdr) (b : AluBody) (s : State) : Out :=
  s.alu (legal (.t5pk h b)) h b readsA false (List.map (perLane fun x _ _ =>
    .words [BitVec.ofNat 32 ((List.range 5).foldl (fun a k =>
      a + (max (-1) (signed 2 (fld x (2 * k) 2)) + 1).toNat * 3 ^ k) 0)]))

/-- T5UP's result for a byte: five elements of I2, or poison with the address of the source word when the byte is above 242
(R292). -/
def t5Result (st : Strand) (o : Operand) (lane : Nat) (v : Dword) : ReplyVal :=
  let addr := match o with
    | .vec n => st.wordVa (st.vecIx n.toNat lane)
    | .sc n => st.wordVa (st.scIx n.toNat)
    | _ => 0
  if 242 < fld v 0 8 then .bad 0x21 0x01 addr
  else .words [BitVec.ofNat 32 ((List.range 5).foldl (fun a k => a + (((t5Digit (fld v 0 8) k).getD 0) % 4).toNat * 4 ^ k) 0)]

/-- T5UP. -/
def execT5up (h : Hdr) (b : AluBody) (s : State) : Out :=
  s.alu (legal (.t5up h b)) h b readsA false (List.map fun x =>
    perLane (fun v _ _ => t5Result s.issuerStrand b.a x.lane v) x)

/-! ### Quantisation (R293 to R297) -/

/-- The active lanes of quarter q among an instruction's sources. -/
def quarterIns (ins : List LaneIn) (q : Nat) : List LaneIn := ins.filter fun x => x.lane / 32 == q

/-- What the values of lanes give together: a token, an invalid operation, or their values (R294). -/
def blockVals (t : Nat) (ins : List LaneIn) (allowInf : Bool) : Except ReplyVal (List (Nat × Val)) :=
  match ins.findSome? fun x => x.a.tok with
  | some t => .error (.tok t)
  | none =>
    let vs := ins.map fun x => (x.lane, decodeElem t (fld x.a.v 0 (elemWidth t)))
    if vs.any fun v => v.2 == .qnan || v.2 == .snan || (!allowInf && !isFin v.2) then .error (.bad 0x20 0x01 0) else .ok vs

/-- The largest magnitude of a list of finite values. -/
def maxMag (vs : List (Nat × Val)) : Nat × Int := vs.foldl (fun a v => magMax a (magOf v.2)) (0, 0)

/-- BMAX (R293). -/
def execBmax (h : Hdr) (b : AluBody) (s : State) : Out :=
  s.alu (legal (.bmax h b)) h b readsA false fun ins =>
    let r (q : Nat) : ReplyVal :=
      match blockVals b.ty2.toNat (quarterIns ins q) true with
      | .error v => v
      | .ok vs =>
        if vs.any fun v => !isFin v.2 then floatRes (some (floatFmt 0).infBits)
        else
          let (m, e) := maxMag vs
          floatRes ((floatFmt 0).encode 0 false (.fin false m e))
    let rs := (List.range 4).map r
    ins.map fun x => (x.lane, rs.getD (x.lane / 32) (.words []))

/-- The scale of a block (R111 steps 1 and 2). -/
def blockScale (t : Nat) (vs : List (Nat × Val)) : Nat := let (m, e) := maxMag vs; scaleUp t m e

/-- One element of R111 step 4: x over the scale, rounded to nearest even and clamped, a float zero unsigned. -/
def quantElem (t : Nat) (scale : Nat) (x : Val) : Nat :=
  let q := divVal x (scaleVal scale)
  let r := (encodeElem t 0 true q).getD 0
  if t < 8 && r = (floatFmt t).signBit then 0 else r

/-- The lanes of group m among sources, absent ones as 0. -/
def groupVals (vs : List (Nat × Val)) (m : Nat) : List Val :=
  (List.range 8).map fun i => ((vs.find? fun v => v.1 == 8 * m + i).map (·.2)).getD (.fin false 0 0)

/-- The 256 words of a QT table pair (R294). -/
def State.qtTable (s : State) (sid : Nat) (o : Operand) : List MWord :=
  match o with
  | .vec n => s.stringOf sid o ++ s.stringOf sid (.vec (n + 1))
  | _ => []

/-- Groups with an active lane: the number and its lowest active lane. -/
def activeGroups (ins : List LaneIn) : List (Nat × Nat) :=
  (List.range 16).filterMap fun m => (ins.find? fun x => x.lane / 8 == m).map fun x => (m, x.lane)

/-- Write codebook indices of groups at chunk c (R289); each names its lowest active lane. -/
def State.putGroups (s : State) (cx : Cx) (d c : Nat) (rs : List (Nat × Nat × ReplyVal)) : State :=
  let (s, es) := s.settleElems cx (rs.map fun r => (r.2.1, r.2.2))
  s.putElems cx.sid d ((rs.zip es).map fun x => ⟨16 * (16 * c + x.1.1), 16, x.2.2⟩)

/-- The effect of QNT (R294). DESIGN CHOICE: where every entry of a QT table is invalid, the record names the image address of
entry 0 (assumption 100). -/
def qntEff (h : Hdr) (b : AluBody) (s : State) (cx : Cx) : State × List Hold × Go :=
  let t := h.typ.toNat
  let c := fld b.var 0 4
  let ins := cx.ins b readsA
  let s := s.clearEvent cx.sid [b.a]
  let blocks := (List.range 4).map fun q => blockVals b.ty2.toNat (quarterIns ins q) false
  let block (q : Nat) : Except ReplyVal (List (Nat × Val)) := blocks.getD q (.ok [])
  if t < 14 then
    let (s, es) := s.settleElems cx (ins.map fun x => (x.lane, match block (x.lane / 32) with
      | .error r => r
      | .ok vs =>
        let v := ((vs.find? fun v => v.1 == x.lane).map (·.2)).getD (.fin false 0 0)
        .words [BitVec.ofNat 32 (quantElem t (blockScale t vs) v)]))
    (s.putChunk cx.sid h.dest.toNat t c es, [], .next)
  else
    let table := if t = 15 then cx.src.qtTable cx.sid (srcBOp b.b) else []
    let tok := table.findSome? fun w => if w.mark then some w.data else none
    let index (vs : List (Nat × Val)) (m : Nat) : ReplyVal :=
      let scale := scaleVal (blockScale t vs)
      if t = 14 then .words [BitVec.ofNat 32 (qlEncode (groupVals vs m) scale)]
      else
        match qtEncode (table.map fun w => w.data.toNat) (groupVals vs m) scale with
        | some n => .words [BitVec.ofNat 32 n]
        | none => .bad 0x23 0x01 (cx.stringAddr (srcBOp b.b) 0)
    let rs := (activeGroups ins).map fun g =>
      (g.1, g.2, match block (g.1 / 4), tok with
        | .error (.tok k), _ => .tok k
        | _, some k => .tok k
        | .error r, none => r
        | .ok vs, none => index vs g.1)
    (s.putGroups cx h.dest.toNat c rs, [], .next)

/-- QNT (R294). -/
def execQnt (h : Hdr) (b : AluBody) (s : State) : Out :=
  let tab : List Use := if h.typ.toNat = 15 then strUse (srcBOp b.b) .str 2 h.lub else []
  s.issue (legal (.qnt h b)) h (srcUses h b readsA ++ tab ++ [vecDest h.dest 1]) (qntEff h b)

/-- The effect of QNTS (R295): byte q of lane c's word. -/
def qntsEff (h : Hdr) (b : AluBody) (s : State) (cx : Cx) : State × List Hold × Go :=
  let t := h.typ.toNat
  let ins := cx.ins b readsA
  let s := s.clearEvent cx.sid [b.a]
  let qs := (List.range 4).filterMap fun q =>
    ((quarterIns ins q).head?).map fun x => (q, x.lane, match blockVals b.ty2.toNat (quarterIns ins q) false with
      | .error r => r
      | .ok vs => ReplyVal.words [BitVec.ofNat 32 (blockScale t vs)])
  let (s, es) := s.settleElems cx (qs.map fun x => (x.2.1, x.2.2))
  let parts : List ElemW := (qs.zip es).map fun x => ⟨8 * x.1.1, 8, x.2.2⟩
  (s.putParts cx.sid ((s.strand cx.sid).vecIx h.dest.toNat (fld b.var 0 7)) parts, [], .next)

/-- QNTS (R295): byte q of lane c's word. -/
def execQnts (h : Hdr) (b : AluBody) (s : State) : Out :=
  s.issue (legal (.qnts h b)) h (srcUses h b readsA ++ [vecDest h.dest 1]) (qntsEff h b)

/-- Where the parts of a string's elements lie, for the ADDR of records (R129): the string's bytes, the table's words and
the scale. -/
structure Where where
  byte : Nat → Dword
  table : Nat → Dword
  scale : Dword

/-- An element of a string before its scale, its own faults apart from its marks (R477 cases 1, 3 and 5). QL and QT
elements are those of their group's index. -/
def rawElem (ws table : List MWord) (t e : Nat) (w : Where) : Except ReplyVal (Except ReplyVal Val) :=
  if t < 14 then
    match stringElem ws t e w.byte with
    | .error (.tok k) => .error (.tok k)
    | .error r => .ok (.error r)
    | .ok v => .ok (.ok v)
  else
    match readElem ws (16 * (e / 8)) 16 with
    | .error k => .error (.tok k)
    | .ok idx =>
      if t = 14 then .ok (.ok (scaleBy (valInt ((qlVals idx).getD (e % 8) 0)) (-1)))
      else
        let x := table.getD (idx / 256) ⟨0, false⟩
        if x.mark then .ok (.error (.tok x.data))
        else if qtValid x.data.toNat then .ok (.ok (valInt ((qtVals idx x.data.toNat).getD (e % 8) 0)))
        else .ok (.error (.bad 0x23 0x01 (w.table (idx / 256))))

/-- An element with its block scale, when there is one: its exact value, or its poison in the order of R477. -/
def scaledElem (ws table : List MWord) (t e : Nat) (scale : Option (Except Word Nat)) (w : Where) : Except ReplyVal Val :=
  match rawElem ws table t e w with
  | .error r => .error r
  | .ok x =>
    match scale, x with
    | some (.error k), _ => .error (.tok k)
    | _, .error (.tok k) => .error (.tok k)
    | some (.ok code), _ =>
      if code = 0xFF then .error (.bad 0x22 0x01 w.scale)
      else
        (match x with
         | .error r => .error r
         | .ok v => .ok (mulVal v (scaleVal code)))
    | none, .error r => .error r
    | none, .ok v => .ok v

/-- The image words of the table entries that elements of a string of indices select (R296). -/
def State.tableWords (s : State) (sid : Nat) (ws : List MWord) (o : Operand) (es : List Nat) : List Nat :=
  (es.filterMap fun e =>
    match o, readElem ws (16 * (e / 8)) 16 with
    | .vec n, .ok idx => some ((s.strand sid).vecIx (n.toNat + idx / 256 / 128) (idx / 256 % 128))
    | _, _ => none).eraseDups

/-- The effect of DQNT (R296, R477). -/
def dqntEff (h : Hdr) (b : AluBody) (s : State) (cx : Cx) : State × List Hold × Go :=
  let t := b.ty2.toNat
  let c := fld b.var 0 4
  let ws := cx.src.stringOf cx.sid b.a
  let picked := if t = 15 then cx.src.tableWords cx.sid ws b.c ((lanesOf cx.act).map fun l => 128 * c + l) else []
  let src := cx.src.checkParity cx.sid cx.pc picked
  let s := s.checkParity cx.sid cx.pc picked
  let table := if t = 15 then src.qtTable cx.sid b.c else []
  let sw : Src := cx.src.readOp cx.sid c false (srcBOp b.b)
  let scale (l : Nat) : Option (Except Word Nat) :=
    if b.b == .reg .zero then none
    else some (match sw.tok with | some k => .error k | none => .ok (fld sw.v (8 * (l / 32)) 8))
  let w : Where := ⟨fun n => cx.stringAddr b.a (n / 4), cx.stringAddr b.c, cx.stringAddr (srcBOp b.b) c⟩
  let s := s.clearEvent cx.sid [srcBOp b.b]
  let rs := (lanesOf cx.act).map fun l =>
    (l, match scaledElem ws table t (128 * c + l) (scale l) w with
      | .error r => r
      | .ok v => floatRes ((typFmt h).encode b.rm.toNat b.sat v))
  (s.putLanes cx h.dest.toNat 1 rs, [], .next)

/-- DQNT (R296, R477). -/
def execDqnt (h : Hdr) (b : AluBody) (s : State) : Out :=
  let c := fld b.var 0 4
  let tab : List Use := if b.ty2.toNat = 15 then opUse b.c 2 h.luc false else []
  s.issue (legal (.dqnt h b)) h
    (strUse b.a (.elems b.ty2.toNat c) 1 h.lua ++ strUse (srcBOp b.b) (.lane c) 1 h.lub ++ tab ++ [vecDest h.dest 1]) (dqntEff h b)

/-- The effect of LATQ (R297). -/
def latqEff (h : Hdr) (b : AluBody) (s : State) (cx : Cx) : State × List Hold × Go :=
  let ins := cx.ins b readsA
  let s := s.clearEvent cx.sid [b.a]
  let rs := (activeGroups ins).map fun g =>
    (g.1, g.2, match blockVals b.ty2.toNat (ins.filter fun x => x.lane / 8 == g.1) false with
      | .error r => r
      | .ok vs => ReplyVal.words [BitVec.ofNat 32 (qlEncode (groupVals vs g.1) (.fin false 1 0))])
  (s.putGroups cx h.dest.toNat (fld b.var 0 4) rs, [], .next)

/-- LATQ (R297). -/
def execLatq (h : Hdr) (b : AluBody) (s : State) : Out :=
  s.issue (legal (.latq h b)) h (srcUses h b readsA ++ [vecDest h.dest 1]) (latqEff h b)

end Sys2Proof.Machine
end

