-- ==== Sys2Proof/Machine/Integer.lean ====
section
/-! DEFINITION. The meanings of groups 0x1 and 0x2: integer, address and bit operations (R252 to R262). -/
namespace Sys2Proof.Machine

/-! ### Shared operations (R252, R253) -/

/-- The width w. -/
def width (wide : Bool) : Nat := if wide then 64 else 32

/-- An operand read as an integer under .U (R252). -/
def intVal (u wide : Bool) (d : Dword) : Int :=
  if u then (d.toNat % 2 ^ width wide : Nat) else signed (width wide) d.toNat

/-- SatInt (R253). -/
def satInt (u wide : Bool) (e : Int) : Int :=
  if u then min (max e 0) (2 ^ width wide - 1)
  else min (max e (-(2 ^ (width wide - 1)))) (2 ^ (width wide - 1) - 1)

/-- Sources a, b and perhaps c at the width of .64; the literal is zero-extended under .U (R252). -/
def intReads (b : AluBody) (nb nc : Bool) : Reads :=
  ⟨some (vWide b), if nb then some (vWide b) else none, if nc then some (vWide b) else none,
   if vU b then immZ else immS⟩

/-- IntOp of R253: E gives the exact integer, or none for a division by zero (cause 0x25). -/
def State.intOp (s : State) (i : Instr) (h : Hdr) (b : AluBody) (nb nc : Bool) (e : Int → Int → Int → Option Int) :
    Out :=
  let w := vWide b
  s.alu (legal i) h b (intReads b nb nc) w (List.map (perLane fun x y z =>
    match e (intVal (vU b) w x) (intVal (vU b) w y) (intVal (vU b) w z) with
    | some r => resW w (dword (if b.sat then satInt (vU b) w r else r))
    | none => .bad 0x25 0x01 0))

/-! ### Group 0x1 (R254 to R256) -/

def execIadd (h : Hdr) (b : AluBody) (s : State) : Out :=
  s.intOp (.iadd h b) h b true false fun x y _ => some (x + y)
def execIsub (h : Hdr) (b : AluBody) (s : State) : Out :=
  s.intOp (.isub h b) h b true false fun x y _ => some (x - y)
def execImul (h : Hdr) (b : AluBody) (s : State) : Out :=
  s.intOp (.imul h b) h b true false fun x y _ => some (x * y)
def execImulh (h : Hdr) (b : AluBody) (s : State) : Out :=
  s.intOp (.imulh h b) h b true false fun x y _ => some (x * y / 2 ^ width (vWide b))
def execImad (h : Hdr) (b : AluBody) (s : State) : Out :=
  s.intOp (.imad h b) h b true true fun x y z => some (x * y + z)
def execImin (h : Hdr) (b : AluBody) (s : State) : Out :=
  s.intOp (.imin h b) h b true false fun x y _ => some (min x y)
def execImax (h : Hdr) (b : AluBody) (s : State) : Out :=
  s.intOp (.imax h b) h b true false fun x y _ => some (max x y)
def execIabs (h : Hdr) (b : AluBody) (s : State) : Out :=
  s.intOp (.iabs h b) h b false false fun x _ _ => some x.natAbs
def execIdiv (h : Hdr) (b : AluBody) (s : State) : Out :=
  s.intOp (.idiv h b) h b true false fun x y _ => if y = 0 then none else some (x.tdiv y)
def execIrem (h : Hdr) (b : AluBody) (s : State) : Out :=
  s.intOp (.irem h b) h b true false fun x y _ => if y = 0 then none else some (x.tmod y)
def execIadd3 (h : Hdr) (b : AluBody) (s : State) : Out :=
  s.intOp (.iadd3 h b) h b true true fun x y z => some (x + y + z)
def execIclamp (h : Hdr) (b : AluBody) (s : State) : Out :=
  s.intOp (.iclamp h b) h b true true fun x y z => some (min (max x y) z)

/-- The compare code of ICMP and FCMP: VAR bits 4..2 (R255). -/
def cmpCode (b : AluBody) : Nat := fld b.var 2 3

/-- ICMP (R255). -/
def execIcmp (h : Hdr) (b : AluBody) (s : State) : Out :=
  s.aluPred (legal (.icmp h b)) h b (intReads b true false) (List.map (perLane fun x y _ =>
    resB (cmpInt (cmpCode b) (intVal (vU b) (vWide b) x) (intVal (vU b) (vWide b) y))))

/-- ISEL (R255): the condition is a predicate bit, or in SS and SI a scalar that is not zero. -/
def execIsel (h : Hdr) (b : AluBody) (s : State) : Out :=
  s.alu (legal (.isel h b)) h b (intReads b true true) (vWide b) (List.map (perLane fun x y z =>
    resW (vWide b) (if z != 0 then x else y)))

/-- LEA (R254): w is 64 always; the index is 32 bits, extended under .U. -/
def execLea (h : Hdr) (b : AluBody) (s : State) : Out :=
  s.alu (legal (.lea h b)) h b ⟨some true, some false, none, immS⟩ true (List.map (perLane fun x y _ =>
    res64 (x + (if vU b then (loW y).zeroExtend 64 else (loW y).signExtend 64) <<< fld b.var 2 3)))

/-- MOV (R256): source A, or the literal in VI and SI. -/
def execMov (h : Hdr) (b : AluBody) (s : State) : Out :=
  let r : Reads := if h.oc.getLsbD 0 then ⟨none, some (vWide b), none, immS⟩ else ⟨some (vWide b), none, none, immS⟩
  s.alu (legal (.mov h b)) h b r (vWide b) (List.map (perLane fun x y _ =>
    resW (vWide b) (if h.oc.getLsbD 0 then y else x)))

/-! ### Group 0x2 (R258 to R261) -/

/-- Sources of a bit operation: a of width w, b of width w or always 32 bits, perhaps c. -/
def bitReads (b : AluBody) (rb : Option Bool) (nc : Bool) : Reads :=
  ⟨some (vWide b), rb, if nc then some (vWide b) else none, immS⟩

/-- A bit operation whose result is a w-bit string. -/
def State.bitOp (s : State) (i : Instr) (h : Hdr) (b : AluBody) (rb : Option Bool) (nc : Bool)
    (f : Nat → Nat → Nat → Nat) : Out :=
  s.alu (legal i) h b (bitReads b rb nc) (vWide b) (List.map (perLane fun x y z =>
    resW (vWide b) (BitVec.ofNat 64 (f x.toNat y.toNat z.toNat % 2 ^ width (vWide b)))))

/-- Bits of a number, of the width: from a function of the bit's index. -/
def bitsOf (w : Nat) (f : Nat → Bool) : Nat := (List.range w).foldl (fun a i => if f i then a + 2 ^ i else a) 0

def execAndOp (h : Hdr) (b : AluBody) (s : State) : Out :=
  s.bitOp (.andOp h b) h b (some (vWide b)) false fun x y _ => x &&& y
def execOrOp (h : Hdr) (b : AluBody) (s : State) : Out :=
  s.bitOp (.orOp h b) h b (some (vWide b)) false fun x y _ => x ||| y
def execXorOp (h : Hdr) (b : AluBody) (s : State) : Out :=
  s.bitOp (.xorOp h b) h b (some (vWide b)) false fun x y _ => x ^^^ y
def execAndn (h : Hdr) (b : AluBody) (s : State) : Out :=
  s.bitOp (.andn h b) h b (some (vWide b)) false fun x y _ => x &&& (2 ^ 64 - 1 - y)
def execNotOp (h : Hdr) (b : AluBody) (s : State) : Out :=
  s.bitOp (.notOp h b) h b none false fun x _ _ => 2 ^ 64 - 1 - x

/-- Bit `tab` at the index that three bits make: A weighs 1, B 2 and C 4 (R259). -/
def tableBit (tab : BitVec 8) (x y z : Bool) : Bool := tab.getLsbD (b2n x + 2 * b2n y + 4 * b2n z)

/-- LOGT (R259). -/
def execLogt (h : Hdr) (b : AluBody) (s : State) : Out :=
  s.alu (legal (.logt h b)) h b ⟨some false, some false, some false, immS⟩ false (List.map (perLane fun x y z =>
    res32 (BitVec.ofNat 64 (bitsOf 32 fun i => tableBit b.var (x.getLsbD i) (y.getLsbD i) (z.getLsbD i)))))

def execShl (h : Hdr) (b : AluBody) (s : State) : Out :=
  s.bitOp (.shl h b) h b (some false) false fun x y _ => if width (vWide b) ≤ y then 0 else x * 2 ^ y
def execShr (h : Hdr) (b : AluBody) (s : State) : Out :=
  s.bitOp (.shr h b) h b (some false) false fun x y _ => if width (vWide b) ≤ y then 0 else x / 2 ^ y
def execSar (h : Hdr) (b : AluBody) (s : State) : Out :=
  s.bitOp (.sar h b) h b (some false) false fun x y _ =>
    (dword (signed (width (vWide b)) x / 2 ^ min y (width (vWide b) - 1))).toNat
def execRot (h : Hdr) (b : AluBody) (s : State) : Out :=
  s.bitOp (.rot h b) h b (some false) false fun x y _ =>
    let w := width (vWide b)
    x * 2 ^ (y % w) + x / 2 ^ (w - y % w)

/-- DSH (R260): VAR bit 2 is .L. -/
def execDsh (h : Hdr) (b : AluBody) (s : State) : Out :=
  s.bitOp (.dsh h b) h b (some false) true fun x y z =>
    let w := width (vWide b)
    let v := z * 2 ^ w + x
    let n := min y w
    if b.var.getLsbD 2 then v * 2 ^ n / 2 ^ w else v / 2 ^ n

def execPopc (h : Hdr) (b : AluBody) (s : State) : Out :=
  s.bitOp (.popc h b) h b none false fun x _ _ => ((List.range 64).filter x.testBit).length
def execClz (h : Hdr) (b : AluBody) (s : State) : Out :=
  s.bitOp (.clz h b) h b none false fun x _ _ => width (vWide b) - (if x = 0 then 0 else x.log2 + 1)
def execCtz (h : Hdr) (b : AluBody) (s : State) : Out :=
  s.bitOp (.ctz h b) h b none false fun x _ _ =>
    ((List.range (width (vWide b))).find? x.testBit).getD (width (vWide b))
def execBrev (h : Hdr) (b : AluBody) (s : State) : Out :=
  s.bitOp (.brev h b) h b none false fun x _ _ =>
    bitsOf (width (vWide b)) fun i => x.testBit (width (vWide b) - 1 - i)
def execBswap (h : Hdr) (b : AluBody) (s : State) : Out :=
  s.bitOp (.bswap h b) h b none false fun x _ _ =>
    bitsOf (width (vWide b)) fun i => x.testBit (8 * (width (vWide b) / 8 - 1 - i / 8) + i % 8)

/-- The field that FXT and FINS name: its low bit, and its length, 0 when it is empty (R260). -/
def fieldOf (w y : Nat) : Nat × Nat :=
  let lo := y % 256
  let hi := y / 256 % 256
  if hi < lo || w ≤ lo then (0, 0) else (lo, min hi (w - 1) - lo + 1)

/-- FXT (R260). -/
def execFxt (h : Hdr) (b : AluBody) (s : State) : Out :=
  s.bitOp (.fxt h b) h b (some false) false fun x y _ =>
    let (lo, len) := fieldOf (width (vWide b)) y
    let f := x / 2 ^ lo % 2 ^ len
    if len = 0 then 0 else if vU b then f else (dword (signed len f)).toNat

/-- FINS (R260). -/
def execFins (h : Hdr) (b : AluBody) (s : State) : Out :=
  s.bitOp (.fins h b) h b (some false) true fun x y z =>
    let (lo, len) := fieldOf (width (vWide b)) y
    if len = 0 then z else z - z / 2 ^ lo % 2 ^ len * 2 ^ lo + x % 2 ^ len * 2 ^ lo

/-- One byte of BYSEL: selector bits 2..0 choose among eight bytes, bits 4..3 the mode (R261). -/
def byselByte (g : Nat) (e : Nat) : Nat :=
  let v := g / 2 ^ (8 * (e % 8)) % 256
  match e / 8 % 4 with
  | 0 => v
  | 1 => if 128 ≤ v then 0xFF else 0
  | 2 => 0
  | _ => bitsOf 8 fun i => v.testBit (7 - i)

/-- BYSEL (R261). -/
def execBysel (h : Hdr) (b : AluBody) (s : State) : Out :=
  s.alu (legal (.bysel h b)) h b ⟨some false, some false, some false, immS⟩ false (List.map (perLane fun x y z =>
    let g := y.toNat * 2 ^ 32 + x.toNat
    res32 (BitVec.ofNat 64 ((List.range 4).foldl (fun a k => a + byselByte g (fld z (8 * k) 8) * 2 ^ (8 * k)) 0))))

/-- PLOGT (R259). -/
def execPlogt (h : Hdr) (b : AluBody) (s : State) : Out :=
  s.aluPred (legal (.plogt h b)) h b ⟨some false, some false, some false, immS⟩ (List.map (perLane fun x y z =>
    resB (tableBit b.var (x != 0) (y != 0) (z != 0))))

end Sys2Proof.Machine
end

