-- ==== Sys2Proof/Machine/CrossLane.lean ====
section
/-! DEFINITION. The meanings of group 0x3: cross-lane instructions (R263 to R272). An instruction sees only the active lanes of its
fragment. -/
namespace Sys2Proof.Machine

/-! ### Shared operations -/

/-- The active lane l among an instruction's sources. -/
def laneOf (ins : List LaneIn) (l : Nat) : Option LaneIn := ins.find? fun x => x.lane == l

/-- A source as a result of the width. -/
def srcRes (wide : Bool) (x : Src) : ReplyVal :=
  match x.tok with
  | some t => .tok t
  | none => resW wide x.v

/-- The token of the lowest poisoned lane among lanes, by source A (R132). -/
def lowTokA (ins : List LaneIn) : Option Word := ins.findSome? fun x => x.a.tok

/-! ### Shuffles (R264, R265) -/

/-- The supplying lane of SHFL for lane l, none where it lies outside the strand. -/
def shflLane (mode l b : Nat) : Option Nat :=
  let j : Int := match mode with
    | 0 => b
    | 1 => (l : Int) - b
    | 2 => l + b
    | 3 => l ^^^ b
    | _ => (l + b) % 128
  if 0 ≤ j && j < 128 then some j.toNat else none

/-- The supplying lane of SHFLQ: counted from the quarter of lane l for .SEL, within it for the other modes (R264). -/
def shflqLane (mode l b : Nat) : Option Nat :=
  let i := l % 32
  if mode = 0 then
    (if 32 * (l / 32) + b < 128 then some (32 * (l / 32) + b) else none)
  else
  let j : Int := match mode with
    | 1 => (i : Int) - b
    | 2 => i + b
    | 3 => i ^^^ b
    | _ => (i + b) % 32
  if 0 ≤ j && j < 32 then some (32 * (l / 32) + j.toNat) else none

/-- A shuffle: a[j], or where the supplier is missing the lane's own a, or c with .FILL; a poisoned b gives its own token
(R264, R271). -/
def shuffle (wide fill : Bool) (sup : Nat → Nat → Option Nat) (ins : List LaneIn) : List (Nat × ReplyVal) :=
  ins.map fun x =>
    (x.lane, match x.b.tok with
      | some t => .tok t
      | none =>
        match (sup x.lane x.b.v.toNat).bind (laneOf ins) with
        | some y => srcRes wide y.a
        | none => srcRes wide (if fill then x.c else x.a))

/-- Sources of SHFL and SHFLQ: C only with .FILL. -/
def shflReads (b : AluBody) : Reads :=
  ⟨some (vWide b), some false, if b.var.getLsbD 5 then some (vWide b) else none, immS⟩

def execShfl (h : Hdr) (b : AluBody) (s : State) : Out :=
  s.alu (legal (.shfl h b)) h b (shflReads b) (vWide b)
    (shuffle (vWide b) (b.var.getLsbD 5) (shflLane (fld b.var 2 3)))

def execShflq (h : Hdr) (b : AluBody) (s : State) : Out :=
  s.alu (legal (.shflq h b)) h b (shflReads b) (vWide b)
    (shuffle (vWide b) (b.var.getLsbD 5) (shflqLane (fld b.var 2 3)))

/-- BCAST (R265). -/
def execBcast (h : Hdr) (b : AluBody) (s : State) : Out :=
  s.alu (legal (.bcast h b)) h b ⟨some (vWide b), some false, none, immS⟩ (vWide b) fun ins =>
    let sel := (ins.head?.map LaneIn.b).getD default
    ins.map fun x => (x.lane, match sel.tok with
      | some t => .tok t
      | none => srcRes (vWide b) ((laneOf ins sel.v.toNat).getD x).a)

/-! ### Votes and masks (R266, R269, R270) -/

/-- The mask of the lanes whose predicate source A is 1. -/
def trueMask (ins : List LaneIn) : Lanes := maskOf ((ins.filter fun x => x.a.v != 0).map LaneIn.lane)

/-- VOTE.MASK's value for a lane: mask word b[1..0], or its own quarter's when B is the zero operand. -/
def voteWord (m : Lanes) (own : Bool) (x : LaneIn) : ReplyVal :=
  .words [maskWord m (if own then x.lane / 32 else x.b.v.toNat % 4)]

/-- VOTE (R266); under MASK a poisoned B poisons its lane's result (R130; assumption 114). -/
def execVote (h : Hdr) (b : AluBody) (s : State) : Out :=
  let mode := fld b.var 2 2
  if mode = 3 then
    s.alu (legal (.vote h b)) h b ⟨some false, some false, none, immS⟩ false fun ins =>
      ins.map fun x => (x.lane, match x.b.tok with
        | some t => .tok t
        | none => voteWord (trueMask ins) (b.b == .reg .zero) x)
  else
    s.aluPred (legal (.vote h b)) h b ⟨some false, none, none, immS⟩ fun ins =>
      let some1 := ins.any fun x => x.a.v != 0
      let all1 := ins.all fun x => x.a.v != 0
      let r := match mode with | 0 => some1 | 1 => all1 | _ => all1 || !some1
      ins.map fun x => (x.lane, resB r)

/-- SOLO (R269). -/
def execSolo (h : Hdr) (b : AluBody) (s : State) : Out :=
  s.aluPred (legal (.solo h b)) h b ⟨none, none, none, immS⟩ fun ins =>
    let pick := if b.var.getLsbD 2 then ins.getLast? else ins.head?
    ins.map fun x => (x.lane, resB (pick.map LaneIn.lane == some x.lane))

/-- PCNT (R269). -/
def execPcnt (h : Hdr) (b : AluBody) (s : State) : Out :=
  s.alu (legal (.pcnt h b)) h b ⟨some false, none, none, immS⟩ false fun ins =>
    ins.map fun x => (x.lane, .words [BitVec.ofNat 32
      (ins.filter fun y => y.a.v != 0 && (!b.var.getLsbD 2 || y.lane < x.lane)).length])

/-- MGET (R270). -/
def execMget (h : Hdr) (b : AluBody) (s : State) : Out :=
  s.issue (legal (.mget h b)) h (scDest h.dest 1) fun s cx =>
    let m := if b.var.getLsbD 3 then cx.act else cx.frag.mask
    let (s, hs) := s.putScalarDest cx h.dest (res64 (maskDw m (b2n (b.var.getLsbD 2))))
    (s, hs, .next)

/-- P2S (R270): only the words of the selected half are read. -/
def execP2s (h : Hdr) (b : AluBody) (s : State) : Out :=
  let hi := b.var.getLsbD 4
  let n := fld b.var 0 4
  let q := if hi then 12 else 3
  s.issue (legal (.p2s h b)) h (⟨.pred, n, 1, false, false, true, q⟩ :: scDest h.dest 1) fun s cx =>
    let bits := ((cx.src.strand cx.sid).readPred cx.src.tick n q cx.act).1
    let (s, hs) := s.putScalarDest cx h.dest (res64 (maskDw bits (b2n hi)))
    (s, hs, .next)

/-- S2P (R270): lanes 0 to 63 read a, the others b. A poisoned predicate word of either holds every lane that it covers (R89;
assumption 113). -/
def execS2p (h : Hdr) (b : AluBody) (s : State) : Out :=
  s.aluPred (legal (.s2p h b)) h b ⟨some true, some true, none, immS⟩ (List.map fun x =>
    let src := if x.lane < 64 then x.a else x.b
    (x.lane, match src.tok with
      | some t => .tok t
      | none => resB (src.v.getLsbD (x.lane % 64))))

/-! ### Matches and combinations (R267, R268) -/

/-- MATCH's result for a lane among active lanes: 0 .HEAD, 1 .COUNT, 2 .ORDER, 3 .TAIL. -/
def matchVal (mode : Nat) (ins : List LaneIn) (x : LaneIn) : Nat :=
  let same := (ins.filter fun y => y.a.v == x.a.v).map LaneIn.lane
  match mode with
  | 0 => same.headD 0
  | 1 => same.length
  | 2 => (same.filter (· < x.lane)).length
  | _ => same.getLastD 0

/-- MATCH (R267). -/
def execMatchOp (h : Hdr) (b : AluBody) (s : State) : Out :=
  s.alu (legal (.matchOp h b)) h b ⟨some (vWide b), none, none, immS⟩ false fun ins =>
    ins.map fun x => (x.lane, match lowTokA ins with
      | some t => .tok t
      | none => .words [BitVec.ofNat 32 (matchVal (fld b.var 2 2) ins x)])

/-- The combination of R268 on w-bit values, and its identity. -/
def combine (op : Nat) (u wide : Bool) (x y : Dword) : Dword :=
  match op with
  | 0 => x + y
  | 1 => if intVal u wide x ≤ intVal u wide y then x else y
  | 2 => if intVal u wide x ≤ intVal u wide y then y else x
  | 3 => x &&& y
  | 4 => x ||| y
  | _ => x ^^^ y

def combineId (op : Nat) (u wide : Bool) : Dword :=
  match op with
  | 1 => dword (if u then 2 ^ width wide - 1 else 2 ^ (width wide - 1) - 1)
  | 2 => dword (if u then 0 else -(2 ^ (width wide - 1)))
  | 3 => dword (-1)
  | _ => 0

/-- The combination over lanes in ascending order, or the token of the lowest poisoned one. -/
def combineAll (op : Nat) (u wide : Bool) (ins : List LaneIn) : ReplyVal :=
  match lowTokA ins with
  | some t => .tok t
  | none =>
    match ins with
    | [] => resW wide (combineId op u wide)
    | x :: r => resW wide (r.foldl (fun a y => combine op u wide a y.a.v) x.a.v)

/-- PREFIX (R268): VAR bit 5 is .EXCL. -/
def execPrefixOp (h : Hdr) (b : AluBody) (s : State) : Out :=
  s.alu (legal (.prefixOp h b)) h b ⟨some (vWide b), none, none, immS⟩ (vWide b) fun ins =>
    ins.map fun x => (x.lane, combineAll (fld b.var 2 3) (vU b) (vWide b)
      (ins.filter fun y => if b.var.getLsbD 5 then y.lane < x.lane else y.lane ≤ x.lane))

/-- REDUX (R268). -/
def execRedux (h : Hdr) (b : AluBody) (s : State) : Out :=
  s.alu (legal (.redux h b)) h b ⟨some (vWide b), none, none, immS⟩ (vWide b) fun ins =>
    let r := combineAll (fld b.var 2 3) (vU b) (vWide b) ins
    ins.map fun x => (x.lane, r)

end Sys2Proof.Machine
end

