-- ==== Sys2Proof/Decode.lean ====
section
/-! DEFINITION. Reading an instruction from its words and writing it back: the field layouts of R199 to R210, the opcode
map of R212, and the fetch-line slot of R192. The encoder stands after the decoder; both are written from the same
tables of the spec. -/
namespace Sys2Proof

/-! ### Fields -/

/-- A bit of a word. -/
def bitAt (w : Word) (i : Nat) : Bool := w.getLsbD i

/-- A source operand field (R202). -/
def Operand.ofCode (x : BitVec 10) : Operand := Machine.Check.opOf x

/-- The ten bits of a source operand field (R202). -/
def Operand.code : Operand → BitVec 10
  | .vec n => 0#2 ++ n
  | .sc n => 1#2 ++ (0#2 ++ n)
  | .spec c => 2#2 ++ (0#2 ++ c)
  | .zero => 0x2FF#10
  | .pred n => 3#2 ++ (0#4 ++ n)
  | .other x => x

/-- One bit as a field. -/
def b1 (b : Bool) : BitVec 1 := BitVec.ofBool b

/-- W0 but for the opcode (R199). -/
def Hdr.read (w : Word) : Hdr where
  typ := w.extractLsb' 28 4
  dest := w.extractLsb' 20 8
  luc := bitAt w 19
  lub := bitAt w 18
  lua := bitAt w 17
  gneg := bitAt w 16
  guard := w.extractLsb' 12 4
  oc := w.extractLsb' 10 2

/-- W0 of an instruction with this header and opcode. -/
def Hdr.write (h : Hdr) (op : BitVec 10) : Word :=
  h.typ ++ (h.dest ++ (b1 h.luc ++ (b1 h.lub ++ (b1 h.lua ++ (b1 h.gneg ++ (h.guard ++ (h.oc ++ op)))))))

/-- The class VV or SS (R204), or VI or SI when `imm` (R205). -/
def AluBody.read (imm : Bool) (w1 w2 : Word) : AluBody :=
  if imm then
    { rm := w1.extractLsb' 30 2, rsv := 0#14 ++ w1.extractLsb' 29 1, sat := bitAt w1 28
      var := w1.extractLsb' 20 8, c := .ofCode (w1.extractLsb' 10 10), a := .ofCode (w1.extractLsb' 0 10)
      b := .imm w2, ty3 := 0, ty2 := 0 }
  else
    { rm := w1.extractLsb' 30 2, c := .ofCode (w1.extractLsb' 20 10), b := .reg (.ofCode (w1.extractLsb' 10 10))
      a := .ofCode (w1.extractLsb' 0 10), rsv := w2.extractLsb' 17 15, sat := bitAt w2 16
      var := w2.extractLsb' 8 8, ty3 := w2.extractLsb' 4 4, ty2 := w2.extractLsb' 0 4 }

def AluBody.write1 (b : AluBody) : Word :=
  match b.b with
  | .imm _ => b.rm ++ (b.rsv.extractLsb' 0 1 ++ (b1 b.sat ++ (b.var ++ (b.c.code ++ b.a.code))))
  | .reg o => b.rm ++ (b.c.code ++ (o.code ++ b.a.code))

def AluBody.write2 (b : AluBody) : Word :=
  match b.b with
  | .imm w => w
  | .reg _ => b.rsv ++ (b1 b.sat ++ (b.var ++ (b.ty3 ++ b.ty2)))

/-- The class MEM (R206). -/
def MemBody.read (w1 w2 : Word) : MemBody where
  shift := w1.extractLsb' 30 2
  data := .ofCode (w1.extractLsb' 20 10)
  index := .ofCode (w1.extractLsb' 10 10)
  base := .ofCode (w1.extractLsb' 0 10)
  var := w2.extractLsb' 30 2
  hint := w2.extractLsb' 28 2
  ord := w2.extractLsb' 26 2
  scope := w2.extractLsb' 23 3
  sx := bitAt w2 22
  size := w2.extractLsb' 20 2
  off := w2.extractLsb' 0 20

def MemBody.write1 (b : MemBody) : Word := b.shift ++ (b.data.code ++ (b.index.code ++ b.base.code))

def MemBody.write2 (b : MemBody) : Word :=
  b.var ++ (b.hint ++ (b.ord ++ (b.scope ++ (b1 b.sx ++ (b.size ++ b.off)))))

/-- The class MAT (R207). -/
def MatBody.read (w1 w2 : Word) : MatBody where
  rows := w1.extractLsb' 27 5
  scl := bitAt w1 26
  asp := bitAt w1 25
  bank := bitAt w1 24
  typb := w1.extractLsb' 20 4
  b := .ofCode (w1.extractLsb' 10 10)
  a := .ofCode (w1.extractLsb' 0 10)
  rsv := w2.extractLsb' 23 9
  atile := w2.extractLsb' 19 4
  sat := bitAt w2 18
  rm := w2.extractLsb' 16 2
  var := w2.extractLsb' 10 6
  c := .ofCode (w2.extractLsb' 0 10)

def MatBody.write1 (b : MatBody) : Word :=
  b.rows ++ (b1 b.scl ++ (b1 b.asp ++ (b1 b.bank ++ (b.typb ++ (b.b.code ++ b.a.code)))))

def MatBody.write2 (b : MatBody) : Word :=
  b.rsv ++ (b.atile ++ (b1 b.sat ++ (b.rm ++ (b.var ++ b.c.code))))

/-- The class CTL (R208). -/
def CtlBody.read (w1 w2 : Word) : CtlBody where
  w1 := w1
  aux := w2.extractLsb' 16 16
  var := w2.extractLsb' 10 6
  a := .ofCode (w2.extractLsb' 0 10)

def CtlBody.write1 (b : CtlBody) : Word := b.w1

def CtlBody.write2 (b : CtlBody) : Word := b.aux ++ (b.var ++ b.a.code)

/-- The class ASY (R209). -/
def AsyBody.read (w1 w2 : Word) : AsyBody where
  rsv1 := w1.extractLsb' 30 2
  c := .ofCode (w1.extractLsb' 20 10)
  b := .ofCode (w1.extractLsb' 10 10)
  a := .ofCode (w1.extractLsb' 0 10)
  rsv2 := w2.extractLsb' 18 14
  tile := w2.extractLsb' 12 6
  tv := bitAt w2 11
  scope := w2.extractLsb' 8 3
  var := w2.extractLsb' 0 8

def AsyBody.write1 (b : AsyBody) : Word := b.rsv1 ++ (b.c.code ++ (b.b.code ++ b.a.code))

def AsyBody.write2 (b : AsyBody) : Word := b.rsv2 ++ (b.tile ++ (b1 b.tv ++ (b.scope ++ b.var)))

/-- The class SYS (R210). -/
def SysBody.read (w1 w2 : Word) : SysBody where
  sreg := w1.extractLsb' 20 12
  b := .ofCode (w1.extractLsb' 10 10)
  a := .ofCode (w1.extractLsb' 0 10)
  rsv := w2.extractLsb' 8 24
  var := w2.extractLsb' 0 8

def SysBody.write1 (b : SysBody) : Word := b.sreg ++ (b.b.code ++ b.a.code)

def SysBody.write2 (b : SysBody) : Word := b.rsv ++ b.var

/-! ### Decoding -/

/-- Group 0x0 of R212: the opcodes it allocates. -/
def decodeGroup0 (op : Nat) (w0 w1 w2 : Word) : Instr :=
  match op with
  | 0x001 =>
      .nop (.read w0) (.read w1 w2)
  | 0x002 =>
      .bra (.read w0) (.read w1 w2)
  | 0x003 =>
      .brc (.read w0) (.read w1 w2)
  | 0x004 =>
      .brany (.read w0) (.read w1 w2)
  | 0x005 =>
      .brall (.read w0) (.read w1 w2)
  | 0x006 =>
      .loopOp (.read w0) (.read w1 w2)
  | 0x007 =>
      .jtab (.read w0) (.read w1 w2)
  | 0x008 =>
      if w0.extractLsb' 10 2 == 1 then .callInd (.read w0) (.read w1 w2)
      else .call (.read w0) (.read w1 w2)
  | 0x009 =>
      .callt (.read w0) (.read w1 w2)
  | 0x00A =>
      .ret (.read w0) (.read w1 w2)
  | 0x00B =>
      .pad (.read w0) (.read w1 w2)
  | 0x00C =>
      .brx (.read w0) (.read w1 w2)
  | 0x00D =>
      .exit (.read w0) (.read w1 w2)
  | 0x00E =>
      .yield (.read w0) (.read w1 w2)
  | 0x00F =>
      .prefI (.read w0) (.read w1 w2)
  | 0x010 =>
      if w0.extractLsb' 10 2 == 1 then .icinvAll (.read w0) (.read w1 w2)
      else .icinv (.read w0) (.read w1 w2)
  | 0x011 =>
      .fbar (.read w0) (.read w1 w2)
  | 0x012 =>
      .trap (.read w0) (.read w1 w2)
  | 0x013 =>
      .bkpt (.read w0) (.read w1 w2)
  | 0x014 =>
      .getpc (.read w0) (.read w1 w2)
  | _ => .illegalInstruction ⟨w0, w1, w2⟩

/-- Group 0x1 of R212: the opcodes it allocates. -/
def decodeGroup1 (op : Nat) (w0 w1 w2 : Word) : Instr :=
  match op with
  | 0x040 =>
      .iadd (.read w0) (.read (bitAt w0 10) w1 w2)
  | 0x041 =>
      .isub (.read w0) (.read (bitAt w0 10) w1 w2)
  | 0x042 =>
      .imul (.read w0) (.read (bitAt w0 10) w1 w2)
  | 0x043 =>
      .imulh (.read w0) (.read (bitAt w0 10) w1 w2)
  | 0x044 =>
      .imad (.read w0) (.read (bitAt w0 10) w1 w2)
  | 0x045 =>
      .imin (.read w0) (.read (bitAt w0 10) w1 w2)
  | 0x046 =>
      .imax (.read w0) (.read (bitAt w0 10) w1 w2)
  | 0x047 =>
      .iabs (.read w0) (.read (bitAt w0 10) w1 w2)
  | 0x048 =>
      .idiv (.read w0) (.read (bitAt w0 10) w1 w2)
  | 0x049 =>
      .irem (.read w0) (.read (bitAt w0 10) w1 w2)
  | 0x04A =>
      .icmp (.read w0) (.read (bitAt w0 10) w1 w2)
  | 0x04B =>
      .isel (.read w0) (.read (bitAt w0 10) w1 w2)
  | 0x04C =>
      .lea (.read w0) (.read (bitAt w0 10) w1 w2)
  | 0x04D =>
      .mov (.read w0) (.read (bitAt w0 10) w1 w2)
  | 0x04E =>
      .iadd3 (.read w0) (.read (bitAt w0 10) w1 w2)
  | 0x04F =>
      .iclamp (.read w0) (.read (bitAt w0 10) w1 w2)
  | _ => .illegalInstruction ⟨w0, w1, w2⟩

/-- Group 0x2 of R212: the opcodes it allocates. -/
def decodeGroup2 (op : Nat) (w0 w1 w2 : Word) : Instr :=
  match op with
  | 0x080 =>
      .andOp (.read w0) (.read (bitAt w0 10) w1 w2)
  | 0x081 =>
      .orOp (.read w0) (.read (bitAt w0 10) w1 w2)
  | 0x082 =>
      .xorOp (.read w0) (.read (bitAt w0 10) w1 w2)
  | 0x083 =>
      .andn (.read w0) (.read (bitAt w0 10) w1 w2)
  | 0x084 =>
      .notOp (.read w0) (.read (bitAt w0 10) w1 w2)
  | 0x085 =>
      .logt (.read w0) (.read (bitAt w0 10) w1 w2)
  | 0x086 =>
      .shl (.read w0) (.read (bitAt w0 10) w1 w2)
  | 0x087 =>
      .shr (.read w0) (.read (bitAt w0 10) w1 w2)
  | 0x088 =>
      .sar (.read w0) (.read (bitAt w0 10) w1 w2)
  | 0x089 =>
      .rot (.read w0) (.read (bitAt w0 10) w1 w2)
  | 0x08A =>
      .dsh (.read w0) (.read (bitAt w0 10) w1 w2)
  | 0x08B =>
      .popc (.read w0) (.read (bitAt w0 10) w1 w2)
  | 0x08C =>
      .clz (.read w0) (.read (bitAt w0 10) w1 w2)
  | 0x08D =>
      .ctz (.read w0) (.read (bitAt w0 10) w1 w2)
  | 0x08E =>
      .brev (.read w0) (.read (bitAt w0 10) w1 w2)
  | 0x08F =>
      .bswap (.read w0) (.read (bitAt w0 10) w1 w2)
  | 0x090 =>
      .fxt (.read w0) (.read (bitAt w0 10) w1 w2)
  | 0x091 =>
      .fins (.read w0) (.read (bitAt w0 10) w1 w2)
  | 0x092 =>
      .bysel (.read w0) (.read (bitAt w0 10) w1 w2)
  | 0x093 =>
      .plogt (.read w0) (.read (bitAt w0 10) w1 w2)
  | _ => .illegalInstruction ⟨w0, w1, w2⟩

/-- Group 0x3 of R212: the opcodes it allocates. -/
def decodeGroup3 (op : Nat) (w0 w1 w2 : Word) : Instr :=
  match op with
  | 0x0C0 =>
      .shfl (.read w0) (.read (bitAt w0 10) w1 w2)
  | 0x0C1 =>
      .shflq (.read w0) (.read (bitAt w0 10) w1 w2)
  | 0x0C2 =>
      .vote (.read w0) (.read (bitAt w0 10) w1 w2)
  | 0x0C3 =>
      .matchOp (.read w0) (.read (bitAt w0 10) w1 w2)
  | 0x0C4 =>
      .prefixOp (.read w0) (.read (bitAt w0 10) w1 w2)
  | 0x0C5 =>
      .redux (.read w0) (.read (bitAt w0 10) w1 w2)
  | 0x0C6 =>
      .bcast (.read w0) (.read (bitAt w0 10) w1 w2)
  | 0x0C7 =>
      .solo (.read w0) (.read (bitAt w0 10) w1 w2)
  | 0x0C8 =>
      .mget (.read w0) (.read (bitAt w0 10) w1 w2)
  | 0x0C9 =>
      .p2s (.read w0) (.read (bitAt w0 10) w1 w2)
  | 0x0CA =>
      .s2p (.read w0) (.read (bitAt w0 10) w1 w2)
  | 0x0CB =>
      .pcnt (.read w0) (.read (bitAt w0 10) w1 w2)
  | _ => .illegalInstruction ⟨w0, w1, w2⟩

/-- Group 0x4 of R212: the opcodes it allocates. -/
def decodeGroup4 (op : Nat) (w0 w1 w2 : Word) : Instr :=
  match op with
  | 0x100 =>
      .fadd (.read w0) (.read (bitAt w0 10) w1 w2)
  | 0x101 =>
      .fsub (.read w0) (.read (bitAt w0 10) w1 w2)
  | 0x102 =>
      .fmul (.read w0) (.read (bitAt w0 10) w1 w2)
  | 0x103 =>
      .ffma (.read w0) (.read (bitAt w0 10) w1 w2)
  | 0x104 =>
      .fmin (.read w0) (.read (bitAt w0 10) w1 w2)
  | 0x105 =>
      .fmax (.read w0) (.read (bitAt w0 10) w1 w2)
  | 0x106 =>
      .fabs (.read w0) (.read (bitAt w0 10) w1 w2)
  | 0x107 =>
      .fneg (.read w0) (.read (bitAt w0 10) w1 w2)
  | 0x108 =>
      .fcpys (.read w0) (.read (bitAt w0 10) w1 w2)
  | 0x109 =>
      .fcmp (.read w0) (.read (bitAt w0 10) w1 w2)
  | 0x10A =>
      .fclass (.read w0) (.read (bitAt w0 10) w1 w2)
  | 0x10B =>
      .frnd (.read w0) (.read (bitAt w0 10) w1 w2)
  | 0x10C =>
      .fdiv (.read w0) (.read (bitAt w0 10) w1 w2)
  | 0x10D =>
      .fsqrt (.read w0) (.read (bitAt w0 10) w1 w2)
  | 0x10E =>
      .fscale (.read w0) (.read (bitAt w0 10) w1 w2)
  | 0x10F =>
      .hadd2 (.read w0) (.read (bitAt w0 10) w1 w2)
  | 0x110 =>
      .hmul2 (.read w0) (.read (bitAt w0 10) w1 w2)
  | 0x111 =>
      .hfma2 (.read w0) (.read (bitAt w0 10) w1 w2)
  | 0x112 =>
      .hmin2 (.read w0) (.read (bitAt w0 10) w1 w2)
  | 0x113 =>
      .hmax2 (.read w0) (.read (bitAt w0 10) w1 w2)
  | _ => .illegalInstruction ⟨w0, w1, w2⟩

/-- Group 0x5 of R212: the opcodes it allocates. -/
def decodeGroup5 (op : Nat) (w0 w1 w2 : Word) : Instr :=
  match op with
  | 0x140 =>
      .frcp (.read w0) (.read (bitAt w0 10) w1 w2)
  | 0x141 =>
      .frsq (.read w0) (.read (bitAt w0 10) w1 w2)
  | 0x142 =>
      .fexp2 (.read w0) (.read (bitAt w0 10) w1 w2)
  | 0x143 =>
      .flog2 (.read w0) (.read (bitAt w0 10) w1 w2)
  | 0x144 =>
      .fsin (.read w0) (.read (bitAt w0 10) w1 w2)
  | 0x145 =>
      .fcos (.read w0) (.read (bitAt w0 10) w1 w2)
  | 0x146 =>
      .ftanh (.read w0) (.read (bitAt w0 10) w1 w2)
  | 0x147 =>
      .fdot4 (.read w0) (.read (bitAt w0 10) w1 w2)
  | 0x148 =>
      .idot4 (.read w0) (.read (bitAt w0 10) w1 w2)
  | 0x149 =>
      .hdot2 (.read w0) (.read (bitAt w0 10) w1 w2)
  | _ => .illegalInstruction ⟨w0, w1, w2⟩

/-- Group 0x6 of R212: the opcodes it allocates. -/
def decodeGroup6 (op : Nat) (w0 w1 w2 : Word) : Instr :=
  match op with
  | 0x180 =>
      .cvt (.read w0) (.read (bitAt w0 10) w1 w2)
  | 0x181 =>
      .cvtp (.read w0) (.read (bitAt w0 10) w1 w2)
  | 0x182 =>
      .cvts (.read w0) (.read (bitAt w0 10) w1 w2)
  | 0x183 =>
      .qnt (.read w0) (.read (bitAt w0 10) w1 w2)
  | 0x184 =>
      .qnts (.read w0) (.read (bitAt w0 10) w1 w2)
  | 0x185 =>
      .dqnt (.read w0) (.read (bitAt w0 10) w1 w2)
  | 0x186 =>
      .latq (.read w0) (.read (bitAt w0 10) w1 w2)
  | 0x187 =>
      .pack (.read w0) (.read (bitAt w0 10) w1 w2)
  | 0x188 =>
      .unpack (.read w0) (.read (bitAt w0 10) w1 w2)
  | 0x189 =>
      .t5pk (.read w0) (.read (bitAt w0 10) w1 w2)
  | 0x18A =>
      .t5up (.read w0) (.read (bitAt w0 10) w1 w2)
  | 0x18B =>
      .bmax (.read w0) (.read (bitAt w0 10) w1 w2)
  | _ => .illegalInstruction ⟨w0, w1, w2⟩

/-- Group 0x7 of R212: the opcodes it allocates. -/
def decodeGroup7 (op : Nat) (w0 w1 w2 : Word) : Instr :=
  match op with
  | 0x1C0 =>
      if bitAt w1 25 then .mlatchScratchpad (.read w0) (.read w1 w2)
      else .mlatch (.read w0) (.read w1 w2)
  | 0x1C1 =>
      if bitAt w1 25 then .mmqScratchpad (.read w0) (.read w1 w2)
      else .mmq (.read w0) (.read w1 w2)
  | 0x1C2 =>
      if w0.extractLsb' 10 2 == 1 then .maccZAll (.read w0) (.read w1 w2)
      else .maccZ (.read w0) (.read w1 w2)
  | 0x1C3 =>
      .maccLd (.read w0) (.read w1 w2)
  | 0x1C4 =>
      .maccSt (.read w0) (.read w1 w2)
  | 0x1C5 =>
      if w0.extractLsb' 10 2 == 1 then .maccCpAdd (.read w0) (.read w1 w2)
      else .maccCp (.read w0) (.read w1 w2)
  | 0x1C6 =>
      .maccScl (.read w0) (.read w1 w2)
  | 0x1C7 =>
      .mtbl (.read w0) (.read w1 w2)
  | 0x1C8 =>
      .mscl (.read w0) (.read w1 w2)
  | 0x1C9 =>
      .mscla (.read w0) (.read w1 w2)
  | 0x1CA =>
      .mrel (.read w0) (.read w1 w2)
  | 0x1CB =>
      .mwait (.read w0) (.read w1 w2)
  | 0x1CC =>
      .mstat (.read w0) (.read w1 w2)
  | _ => .illegalInstruction ⟨w0, w1, w2⟩

/-- Group 0x8 of R212: the opcodes it allocates. -/
def decodeGroup8 (op : Nat) (w0 w1 w2 : Word) : Instr :=
  match op with
  | 0x200 =>
      if w0.extractLsb' 10 2 == 1 then .ldu (.read w0) (.read w1 w2)
      else if w0.extractLsb' 10 2 == 2 then .lds (.read w0) (.read w1 w2)
      else .ld (.read w0) (.read w1 w2)
  | 0x201 =>
      .ldv (.read w0) (.read w1 w2)
  | 0x202 =>
      .prefD (.read w0) (.read w1 w2)
  | 0x203 =>
      .probe (.read w0) (.read w1 w2)
  | _ => .illegalInstruction ⟨w0, w1, w2⟩

/-- Group 0x9 of R212: the opcodes it allocates. -/
def decodeGroup9 (op : Nat) (w0 w1 w2 : Word) : Instr :=
  match op with
  | 0x240 =>
      if w0.extractLsb' 10 2 == 2 then .sts (.read w0) (.read w1 w2)
      else .st (.read w0) (.read w1 w2)
  | 0x241 =>
      .stv (.read w0) (.read w1 w2)
  | 0x242 =>
      if w2.extractLsb' 30 2 == 1 then .stzLine (.read w0) (.read w1 w2)
      else .stz (.read w0) (.read w1 w2)
  | 0x243 =>
      .tdef (.read w0) (.read w1 w2)
  | 0x244 =>
      .tld (.read w0) (.read w1 w2)
  | 0x245 =>
      .tstr (.read w0) (.read w1 w2)
  | 0x246 =>
      .trel (.read w0) (.read w1 w2)
  | 0x247 =>
      .tqry (.read w0) (.read w1 w2)
  | 0x248 =>
      .cwb (.read w0) (.read w1 w2)
  | 0x249 =>
      .cflush (.read w0) (.read w1 w2)
  | 0x24A =>
      .cinv (.read w0) (.read w1 w2)
  | _ => .illegalInstruction ⟨w0, w1, w2⟩

/-- Group 0xA of R212: the opcodes it allocates. -/
def decodeGroupA (op : Nat) (w0 w1 w2 : Word) : Instr :=
  match op with
  | 0x280 =>
      if w0.extractLsb' 10 2 == 2 then .atoms (.read w0) (.read w1 w2)
      else .atom (.read w0) (.read w1 w2)
  | 0x281 =>
      if w0.extractLsb' 10 2 == 2 then .reds (.read w0) (.read w1 w2)
      else .red (.read w0) (.read w1 w2)
  | 0x282 =>
      if w0.extractLsb' 10 2 == 2 then .cass (.read w0) (.read w1 w2)
      else .cas (.read w0) (.read w1 w2)
  | 0x283 =>
      .cas2 (.read w0) (.read w1 w2)
  | 0x284 =>
      .cas4 (.read w0) (.read w1 w2)
  | 0x285 =>
      .enq (.read w0) (.read w1 w2)
  | 0x286 =>
      .chase (.read w0) (.read w1 w2)
  | 0x287 =>
      .cred (.read w0) (.read w1 w2)
  | 0x288 =>
      if w0.extractLsb' 10 2 == 2 then .opkScalar (.read w0) (.read w1 w2)
      else .opk (.read w0) (.read w1 w2)
  | 0x289 =>
      if w0.extractLsb' 10 2 == 2 then .opkxScalar (.read w0) (.read w1 w2)
      else .opkx (.read w0) (.read w1 w2)
  | _ => .illegalInstruction ⟨w0, w1, w2⟩

/-- Group 0xB of R212: the opcodes it allocates. -/
def decodeGroupB (op : Nat) (w0 w1 w2 : Word) : Instr :=
  match op with
  | 0x2C0 =>
      .barArr (.read w0) (.read true w1 w2)
  | 0x2C1 =>
      .barWait (.read w0) (.read true w1 w2)
  | 0x2C2 =>
      .barSync (.read w0) (.read true w1 w2)
  | 0x2C3 =>
      .objArr (.read w0) (.read w1 w2)
  | 0x2C4 =>
      if w2.extractLsb' 30 2 == 1 then .objWaitEv (.read w0) (.read w1 w2)
      else .objWait (.read w0) (.read w1 w2)
  | 0x2C5 =>
      .waitc (.read w0) (.read w1 w2)
  | 0x2C6 =>
      .signal (.read w0) (.read w1 w2)
  | 0x2C7 =>
      .fence (.read w0) (.read true w1 w2)
  | 0x2C8 =>
      .rgnOpen (.read w0) (.read true w1 w2)
  | 0x2C9 =>
      if w0.extractLsb' 10 2 == 1 then .commitPark (.read w0) (.read w1 w2)
      else .commit (.read w0) (.read w1 w2)
  | 0x2CA =>
      if w0.extractLsb' 10 2 == 1 then .commitRPark (.read w0) (.read w1 w2)
      else .commitR (.read w0) (.read w1 w2)
  | 0x2CB =>
      .rgnDrop (.read w0) (.read w1 w2)
  | _ => .illegalInstruction ⟨w0, w1, w2⟩

/-- Group 0xC of R212: the opcodes it allocates. -/
def decodeGroupC (op : Nat) (w0 w1 w2 : Word) : Instr :=
  match op with
  | 0x300 =>
      .acopy (.read w0) (.read w1 w2)
  | 0x301 =>
      .agath (.read w0) (.read w1 w2)
  | 0x302 =>
      .ascat (.read w0) (.read w1 w2)
  | 0x303 =>
      .acoll (.read w0) (.read w1 w2)
  | 0x304 =>
      .afill (.read w0) (.read w1 w2)
  | 0x305 =>
      .acopyt (.read w0) (.read w1 w2)
  | 0x306 =>
      .apref (.read w0) (.read w1 w2)
  | 0x307 =>
      .aqry (.read w0) (.read w1 w2)
  | 0x310 =>
      .lnch (.read w0) (.read w1 w2)
  | 0x311 =>
      .lnchPod (.read w0) (.read w1 w2)
  | 0x312 =>
      .join (.read w0) (.read w1 w2)
  | 0x313 =>
      if w2.extractLsb' 0 8 == 1 then .cancelTerm (.read w0) (.read w1 w2)
      else .cancel (.read w0) (.read w1 w2)
  | 0x314 =>
      .lrec (.read w0) (.read w1 w2)
  | 0x315 =>
      .lstat (.read w0) (.read w1 w2)
  | _ => .illegalInstruction ⟨w0, w1, w2⟩

/-- Group 0xD of R212: the opcodes it allocates. -/
def decodeGroupD (op : Nat) (w0 w1 w2 : Word) : Instr :=
  match op with
  | 0x340 =>
      .srd (.read w0) (.read w1 w2)
  | 0x341 =>
      .swr (.read w0) (.read w1 w2)
  | 0x342 =>
      .tbinv (.read w0) (.read w1 w2)
  | 0x343 =>
      .tbsync (.read w0) (.read w1 w2)
  | 0x344 =>
      if w0.extractLsb' 10 2 == 1 then .ctxswIn (.read w0) (.read w1 w2)
      else .ctxswOut (.read w0) (.read w1 w2)
  | 0x345 =>
      .shalt (.read w0) (.read w1 w2)
  | 0x346 =>
      if w2.extractLsb' 0 8 == 1 then .sresmFetch (.read w0) (.read w1 w2)
      else if w2.extractLsb' 0 8 == 2 then .sresmKill (.read w0) (.read w1 w2)
      else .sresm (.read w0) (.read w1 w2)
  | 0x347 =>
      .ievict (.read w0) (.read w1 w2)
  | 0x348 =>
      .pld (.read w0) (.read w1 w2)
  | 0x349 =>
      .pst (.read w0) (.read w1 w2)
  | 0x34A =>
      if w0.extractLsb' 10 2 == 1 then .convhcSm (.read w0) (.read w1 w2)
      else .convhcHc (.read w0) (.read w1 w2)
  | 0x34B =>
      .fqpop (.read w0) (.read w1 w2)
  | 0x34C =>
      .ttload (.read w0) (.read w1 w2)
  | 0x34D =>
      if w0.extractLsb' 10 2 == 1 then .cwballInv (.read w0) (.read w1 w2)
      else .cwball (.read w0) (.read w1 w2)
  | _ => .illegalInstruction ⟨w0, w1, w2⟩

/-- The instruction that three words hold (R212, R213). Every opcode without an entry is an illegal instruction; a
reserved field is kept, and the static check refuses it. -/
def decodeWords (w0 w1 w2 : Word) : Instr :=
  let op := (w0.extractLsb' 0 10).toNat
  match op / 64 with
  | 0x0 => decodeGroup0 op w0 w1 w2
  | 0x1 => decodeGroup1 op w0 w1 w2
  | 0x2 => decodeGroup2 op w0 w1 w2
  | 0x3 => decodeGroup3 op w0 w1 w2
  | 0x4 => decodeGroup4 op w0 w1 w2
  | 0x5 => decodeGroup5 op w0 w1 w2
  | 0x6 => decodeGroup6 op w0 w1 w2
  | 0x7 => decodeGroup7 op w0 w1 w2
  | 0x8 => decodeGroup8 op w0 w1 w2
  | 0x9 => decodeGroup9 op w0 w1 w2
  | 0xA => decodeGroupA op w0 w1 w2
  | 0xB => decodeGroupB op w0 w1 w2
  | 0xC => decodeGroupC op w0 w1 w2
  | 0xD => decodeGroupD op w0 w1 w2
  | 0xE => .hint ⟨w0, w1, w2⟩
  | _ => .illegalInstruction ⟨w0, w1, w2⟩

/-- Why bytes hold no instruction. -/
inductive DecodeError where
  /-- fewer than the twelve bytes of a slot (R192) -/
  | tooShort
  deriving DecidableEq, Repr

/-- The little-endian word of four bytes (R4). -/
def wordOf (b0 b1 b2 b3 : Byte) : Word := b3 ++ (b2 ++ (b1 ++ b0))

/-- The instruction in the first twelve bytes, and the bytes after it. -/
def decode : List Byte → Except DecodeError (Instr × List Byte)
  | a0 :: a1 :: a2 :: a3 :: c0 :: c1 :: c2 :: c3 :: d0 :: d1 :: d2 :: d3 :: rest =>
    .ok (decodeWords (wordOf a0 a1 a2 a3) (wordOf c0 c1 c2 c3) (wordOf d0 d1 d2 d3), rest)
  | _ => .error .tooShort

/-- The words of the table's numbering: bit 0 is the least significant bit of the first word. -/
def decodeTableWord (nbits w : Nat) : Option Instr :=
  if nbits ≤ 96 then
    some (decodeWords (BitVec.ofNat 32 w) (BitVec.ofNat 32 (w / 2 ^ 32)) (BitVec.ofNat 32 (w / 2 ^ 64)))
  else none

/-! ### Encoding -/

/-- The three words of an instruction form; an event has none. -/
def encode (i : Instr) : Option RawInsn :=
  match i with
  | .nop h b => some ⟨h.write 0x001, b.write1, b.write2⟩
  | .bra h b => some ⟨h.write 0x002, b.write1, b.write2⟩
  | .brc h b => some ⟨h.write 0x003, b.write1, b.write2⟩
  | .brany h b => some ⟨h.write 0x004, b.write1, b.write2⟩
  | .brall h b => some ⟨h.write 0x005, b.write1, b.write2⟩
  | .loopOp h b => some ⟨h.write 0x006, b.write1, b.write2⟩
  | .jtab h b => some ⟨h.write 0x007, b.write1, b.write2⟩
  | .call h b => some ⟨h.write 0x008, b.write1, b.write2⟩
  | .callInd h b => some ⟨h.write 0x008, b.write1, b.write2⟩
  | .callt h b => some ⟨h.write 0x009, b.write1, b.write2⟩
  | .ret h b => some ⟨h.write 0x00A, b.write1, b.write2⟩
  | .pad h b => some ⟨h.write 0x00B, b.write1, b.write2⟩
  | .brx h b => some ⟨h.write 0x00C, b.write1, b.write2⟩
  | .exit h b => some ⟨h.write 0x00D, b.write1, b.write2⟩
  | .yield h b => some ⟨h.write 0x00E, b.write1, b.write2⟩
  | .prefI h b => some ⟨h.write 0x00F, b.write1, b.write2⟩
  | .icinv h b => some ⟨h.write 0x010, b.write1, b.write2⟩
  | .icinvAll h b => some ⟨h.write 0x010, b.write1, b.write2⟩
  | .fbar h b => some ⟨h.write 0x011, b.write1, b.write2⟩
  | .trap h b => some ⟨h.write 0x012, b.write1, b.write2⟩
  | .bkpt h b => some ⟨h.write 0x013, b.write1, b.write2⟩
  | .getpc h b => some ⟨h.write 0x014, b.write1, b.write2⟩
  | .iadd h b => some ⟨h.write 0x040, b.write1, b.write2⟩
  | .isub h b => some ⟨h.write 0x041, b.write1, b.write2⟩
  | .imul h b => some ⟨h.write 0x042, b.write1, b.write2⟩
  | .imulh h b => some ⟨h.write 0x043, b.write1, b.write2⟩
  | .imad h b => some ⟨h.write 0x044, b.write1, b.write2⟩
  | .imin h b => some ⟨h.write 0x045, b.write1, b.write2⟩
  | .imax h b => some ⟨h.write 0x046, b.write1, b.write2⟩
  | .iabs h b => some ⟨h.write 0x047, b.write1, b.write2⟩
  | .idiv h b => some ⟨h.write 0x048, b.write1, b.write2⟩
  | .irem h b => some ⟨h.write 0x049, b.write1, b.write2⟩
  | .icmp h b => some ⟨h.write 0x04A, b.write1, b.write2⟩
  | .isel h b => some ⟨h.write 0x04B, b.write1, b.write2⟩
  | .lea h b => some ⟨h.write 0x04C, b.write1, b.write2⟩
  | .mov h b => some ⟨h.write 0x04D, b.write1, b.write2⟩
  | .iadd3 h b => some ⟨h.write 0x04E, b.write1, b.write2⟩
  | .iclamp h b => some ⟨h.write 0x04F, b.write1, b.write2⟩
  | .andOp h b => some ⟨h.write 0x080, b.write1, b.write2⟩
  | .orOp h b => some ⟨h.write 0x081, b.write1, b.write2⟩
  | .xorOp h b => some ⟨h.write 0x082, b.write1, b.write2⟩
  | .andn h b => some ⟨h.write 0x083, b.write1, b.write2⟩
  | .notOp h b => some ⟨h.write 0x084, b.write1, b.write2⟩
  | .logt h b => some ⟨h.write 0x085, b.write1, b.write2⟩
  | .shl h b => some ⟨h.write 0x086, b.write1, b.write2⟩
  | .shr h b => some ⟨h.write 0x087, b.write1, b.write2⟩
  | .sar h b => some ⟨h.write 0x088, b.write1, b.write2⟩
  | .rot h b => some ⟨h.write 0x089, b.write1, b.write2⟩
  | .dsh h b => some ⟨h.write 0x08A, b.write1, b.write2⟩
  | .popc h b => some ⟨h.write 0x08B, b.write1, b.write2⟩
  | .clz h b => some ⟨h.write 0x08C, b.write1, b.write2⟩
  | .ctz h b => some ⟨h.write 0x08D, b.write1, b.write2⟩
  | .brev h b => some ⟨h.write 0x08E, b.write1, b.write2⟩
  | .bswap h b => some ⟨h.write 0x08F, b.write1, b.write2⟩
  | .fxt h b => some ⟨h.write 0x090, b.write1, b.write2⟩
  | .fins h b => some ⟨h.write 0x091, b.write1, b.write2⟩
  | .bysel h b => some ⟨h.write 0x092, b.write1, b.write2⟩
  | .plogt h b => some ⟨h.write 0x093, b.write1, b.write2⟩
  | .shfl h b => some ⟨h.write 0x0C0, b.write1, b.write2⟩
  | .shflq h b => some ⟨h.write 0x0C1, b.write1, b.write2⟩
  | .vote h b => some ⟨h.write 0x0C2, b.write1, b.write2⟩
  | .matchOp h b => some ⟨h.write 0x0C3, b.write1, b.write2⟩
  | .prefixOp h b => some ⟨h.write 0x0C4, b.write1, b.write2⟩
  | .redux h b => some ⟨h.write 0x0C5, b.write1, b.write2⟩
  | .bcast h b => some ⟨h.write 0x0C6, b.write1, b.write2⟩
  | .solo h b => some ⟨h.write 0x0C7, b.write1, b.write2⟩
  | .mget h b => some ⟨h.write 0x0C8, b.write1, b.write2⟩
  | .p2s h b => some ⟨h.write 0x0C9, b.write1, b.write2⟩
  | .s2p h b => some ⟨h.write 0x0CA, b.write1, b.write2⟩
  | .pcnt h b => some ⟨h.write 0x0CB, b.write1, b.write2⟩
  | .fadd h b => some ⟨h.write 0x100, b.write1, b.write2⟩
  | .fsub h b => some ⟨h.write 0x101, b.write1, b.write2⟩
  | .fmul h b => some ⟨h.write 0x102, b.write1, b.write2⟩
  | .ffma h b => some ⟨h.write 0x103, b.write1, b.write2⟩
  | .fmin h b => some ⟨h.write 0x104, b.write1, b.write2⟩
  | .fmax h b => some ⟨h.write 0x105, b.write1, b.write2⟩
  | .fabs h b => some ⟨h.write 0x106, b.write1, b.write2⟩
  | .fneg h b => some ⟨h.write 0x107, b.write1, b.write2⟩
  | .fcpys h b => some ⟨h.write 0x108, b.write1, b.write2⟩
  | .fcmp h b => some ⟨h.write 0x109, b.write1, b.write2⟩
  | .fclass h b => some ⟨h.write 0x10A, b.write1, b.write2⟩
  | .frnd h b => some ⟨h.write 0x10B, b.write1, b.write2⟩
  | .fdiv h b => some ⟨h.write 0x10C, b.write1, b.write2⟩
  | .fsqrt h b => some ⟨h.write 0x10D, b.write1, b.write2⟩
  | .fscale h b => some ⟨h.write 0x10E, b.write1, b.write2⟩
  | .hadd2 h b => some ⟨h.write 0x10F, b.write1, b.write2⟩
  | .hmul2 h b => some ⟨h.write 0x110, b.write1, b.write2⟩
  | .hfma2 h b => some ⟨h.write 0x111, b.write1, b.write2⟩
  | .hmin2 h b => some ⟨h.write 0x112, b.write1, b.write2⟩
  | .hmax2 h b => some ⟨h.write 0x113, b.write1, b.write2⟩
  | .frcp h b => some ⟨h.write 0x140, b.write1, b.write2⟩
  | .frsq h b => some ⟨h.write 0x141, b.write1, b.write2⟩
  | .fexp2 h b => some ⟨h.write 0x142, b.write1, b.write2⟩
  | .flog2 h b => some ⟨h.write 0x143, b.write1, b.write2⟩
  | .fsin h b => some ⟨h.write 0x144, b.write1, b.write2⟩
  | .fcos h b => some ⟨h.write 0x145, b.write1, b.write2⟩
  | .ftanh h b => some ⟨h.write 0x146, b.write1, b.write2⟩
  | .fdot4 h b => some ⟨h.write 0x147, b.write1, b.write2⟩
  | .idot4 h b => some ⟨h.write 0x148, b.write1, b.write2⟩
  | .hdot2 h b => some ⟨h.write 0x149, b.write1, b.write2⟩
  | .cvt h b => some ⟨h.write 0x180, b.write1, b.write2⟩
  | .cvtp h b => some ⟨h.write 0x181, b.write1, b.write2⟩
  | .cvts h b => some ⟨h.write 0x182, b.write1, b.write2⟩
  | .qnt h b => some ⟨h.write 0x183, b.write1, b.write2⟩
  | .qnts h b => some ⟨h.write 0x184, b.write1, b.write2⟩
  | .dqnt h b => some ⟨h.write 0x185, b.write1, b.write2⟩
  | .latq h b => some ⟨h.write 0x186, b.write1, b.write2⟩
  | .pack h b => some ⟨h.write 0x187, b.write1, b.write2⟩
  | .unpack h b => some ⟨h.write 0x188, b.write1, b.write2⟩
  | .t5pk h b => some ⟨h.write 0x189, b.write1, b.write2⟩
  | .t5up h b => some ⟨h.write 0x18A, b.write1, b.write2⟩
  | .bmax h b => some ⟨h.write 0x18B, b.write1, b.write2⟩
  | .mlatch h b => some ⟨h.write 0x1C0, b.write1, b.write2⟩
  | .mlatchScratchpad h b => some ⟨h.write 0x1C0, b.write1, b.write2⟩
  | .mmq h b => some ⟨h.write 0x1C1, b.write1, b.write2⟩
  | .mmqScratchpad h b => some ⟨h.write 0x1C1, b.write1, b.write2⟩
  | .maccZ h b => some ⟨h.write 0x1C2, b.write1, b.write2⟩
  | .maccZAll h b => some ⟨h.write 0x1C2, b.write1, b.write2⟩
  | .maccLd h b => some ⟨h.write 0x1C3, b.write1, b.write2⟩
  | .maccSt h b => some ⟨h.write 0x1C4, b.write1, b.write2⟩
  | .maccCp h b => some ⟨h.write 0x1C5, b.write1, b.write2⟩
  | .maccCpAdd h b => some ⟨h.write 0x1C5, b.write1, b.write2⟩
  | .maccScl h b => some ⟨h.write 0x1C6, b.write1, b.write2⟩
  | .mtbl h b => some ⟨h.write 0x1C7, b.write1, b.write2⟩
  | .mscl h b => some ⟨h.write 0x1C8, b.write1, b.write2⟩
  | .mscla h b => some ⟨h.write 0x1C9, b.write1, b.write2⟩
  | .mrel h b => some ⟨h.write 0x1CA, b.write1, b.write2⟩
  | .mwait h b => some ⟨h.write 0x1CB, b.write1, b.write2⟩
  | .mstat h b => some ⟨h.write 0x1CC, b.write1, b.write2⟩
  | .ld h b => some ⟨h.write 0x200, b.write1, b.write2⟩
  | .ldu h b => some ⟨h.write 0x200, b.write1, b.write2⟩
  | .lds h b => some ⟨h.write 0x200, b.write1, b.write2⟩
  | .ldv h b => some ⟨h.write 0x201, b.write1, b.write2⟩
  | .prefD h b => some ⟨h.write 0x202, b.write1, b.write2⟩
  | .probe h b => some ⟨h.write 0x203, b.write1, b.write2⟩
  | .st h b => some ⟨h.write 0x240, b.write1, b.write2⟩
  | .sts h b => some ⟨h.write 0x240, b.write1, b.write2⟩
  | .stv h b => some ⟨h.write 0x241, b.write1, b.write2⟩
  | .stz h b => some ⟨h.write 0x242, b.write1, b.write2⟩
  | .stzLine h b => some ⟨h.write 0x242, b.write1, b.write2⟩
  | .tdef h b => some ⟨h.write 0x243, b.write1, b.write2⟩
  | .tld h b => some ⟨h.write 0x244, b.write1, b.write2⟩
  | .tstr h b => some ⟨h.write 0x245, b.write1, b.write2⟩
  | .trel h b => some ⟨h.write 0x246, b.write1, b.write2⟩
  | .tqry h b => some ⟨h.write 0x247, b.write1, b.write2⟩
  | .cwb h b => some ⟨h.write 0x248, b.write1, b.write2⟩
  | .cflush h b => some ⟨h.write 0x249, b.write1, b.write2⟩
  | .cinv h b => some ⟨h.write 0x24A, b.write1, b.write2⟩
  | .atom h b => some ⟨h.write 0x280, b.write1, b.write2⟩
  | .atoms h b => some ⟨h.write 0x280, b.write1, b.write2⟩
  | .red h b => some ⟨h.write 0x281, b.write1, b.write2⟩
  | .reds h b => some ⟨h.write 0x281, b.write1, b.write2⟩
  | .cas h b => some ⟨h.write 0x282, b.write1, b.write2⟩
  | .cass h b => some ⟨h.write 0x282, b.write1, b.write2⟩
  | .cas2 h b => some ⟨h.write 0x283, b.write1, b.write2⟩
  | .cas4 h b => some ⟨h.write 0x284, b.write1, b.write2⟩
  | .enq h b => some ⟨h.write 0x285, b.write1, b.write2⟩
  | .chase h b => some ⟨h.write 0x286, b.write1, b.write2⟩
  | .cred h b => some ⟨h.write 0x287, b.write1, b.write2⟩
  | .opk h b => some ⟨h.write 0x288, b.write1, b.write2⟩
  | .opkScalar h b => some ⟨h.write 0x288, b.write1, b.write2⟩
  | .opkx h b => some ⟨h.write 0x289, b.write1, b.write2⟩
  | .opkxScalar h b => some ⟨h.write 0x289, b.write1, b.write2⟩
  | .barArr h b => some ⟨h.write 0x2C0, b.write1, b.write2⟩
  | .barWait h b => some ⟨h.write 0x2C1, b.write1, b.write2⟩
  | .barSync h b => some ⟨h.write 0x2C2, b.write1, b.write2⟩
  | .objArr h b => some ⟨h.write 0x2C3, b.write1, b.write2⟩
  | .objWait h b => some ⟨h.write 0x2C4, b.write1, b.write2⟩
  | .objWaitEv h b => some ⟨h.write 0x2C4, b.write1, b.write2⟩
  | .waitc h b => some ⟨h.write 0x2C5, b.write1, b.write2⟩
  | .signal h b => some ⟨h.write 0x2C6, b.write1, b.write2⟩
  | .fence h b => some ⟨h.write 0x2C7, b.write1, b.write2⟩
  | .rgnOpen h b => some ⟨h.write 0x2C8, b.write1, b.write2⟩
  | .commit h b => some ⟨h.write 0x2C9, b.write1, b.write2⟩
  | .commitPark h b => some ⟨h.write 0x2C9, b.write1, b.write2⟩
  | .commitR h b => some ⟨h.write 0x2CA, b.write1, b.write2⟩
  | .commitRPark h b => some ⟨h.write 0x2CA, b.write1, b.write2⟩
  | .rgnDrop h b => some ⟨h.write 0x2CB, b.write1, b.write2⟩
  | .acopy h b => some ⟨h.write 0x300, b.write1, b.write2⟩
  | .agath h b => some ⟨h.write 0x301, b.write1, b.write2⟩
  | .ascat h b => some ⟨h.write 0x302, b.write1, b.write2⟩
  | .acoll h b => some ⟨h.write 0x303, b.write1, b.write2⟩
  | .afill h b => some ⟨h.write 0x304, b.write1, b.write2⟩
  | .acopyt h b => some ⟨h.write 0x305, b.write1, b.write2⟩
  | .apref h b => some ⟨h.write 0x306, b.write1, b.write2⟩
  | .aqry h b => some ⟨h.write 0x307, b.write1, b.write2⟩
  | .lnch h b => some ⟨h.write 0x310, b.write1, b.write2⟩
  | .lnchPod h b => some ⟨h.write 0x311, b.write1, b.write2⟩
  | .join h b => some ⟨h.write 0x312, b.write1, b.write2⟩
  | .cancel h b => some ⟨h.write 0x313, b.write1, b.write2⟩
  | .cancelTerm h b => some ⟨h.write 0x313, b.write1, b.write2⟩
  | .lrec h b => some ⟨h.write 0x314, b.write1, b.write2⟩
  | .lstat h b => some ⟨h.write 0x315, b.write1, b.write2⟩
  | .srd h b => some ⟨h.write 0x340, b.write1, b.write2⟩
  | .swr h b => some ⟨h.write 0x341, b.write1, b.write2⟩
  | .tbinv h b => some ⟨h.write 0x342, b.write1, b.write2⟩
  | .tbsync h b => some ⟨h.write 0x343, b.write1, b.write2⟩
  | .ctxswOut h b => some ⟨h.write 0x344, b.write1, b.write2⟩
  | .ctxswIn h b => some ⟨h.write 0x344, b.write1, b.write2⟩
  | .shalt h b => some ⟨h.write 0x345, b.write1, b.write2⟩
  | .sresm h b => some ⟨h.write 0x346, b.write1, b.write2⟩
  | .sresmFetch h b => some ⟨h.write 0x346, b.write1, b.write2⟩
  | .sresmKill h b => some ⟨h.write 0x346, b.write1, b.write2⟩
  | .ievict h b => some ⟨h.write 0x347, b.write1, b.write2⟩
  | .pld h b => some ⟨h.write 0x348, b.write1, b.write2⟩
  | .pst h b => some ⟨h.write 0x349, b.write1, b.write2⟩
  | .convhcHc h b => some ⟨h.write 0x34A, b.write1, b.write2⟩
  | .convhcSm h b => some ⟨h.write 0x34A, b.write1, b.write2⟩
  | .fqpop h b => some ⟨h.write 0x34B, b.write1, b.write2⟩
  | .ttload h b => some ⟨h.write 0x34C, b.write1, b.write2⟩
  | .cwball h b => some ⟨h.write 0x34D, b.write1, b.write2⟩
  | .cwballInv h b => some ⟨h.write 0x34D, b.write1, b.write2⟩
  | .hint w => some w
  | .illegalInstruction w => some w
  | .addRoutine _ => none
  | .signedMinRoutine _ => none
  | .signedMaxRoutine _ => none
  | .unsignedMinRoutine _ => none
  | .unsignedMaxRoutine _ => none
  | .andRoutine _ => none
  | .orRoutine _ => none
  | .xorRoutine _ => none
  | .swapRoutine _ => none
  | .casRoutine _ => none
  | .f32AddRoutine _ => none
  | .f16PairAddRoutine _ => none
  | .b16PairAddRoutine _ => none
  | .twoWordCasRoutine _ => none
  | .fourWordCasRoutine _ => none
  | .listEnqueueRoutine _ => none
  | .pointerChaseRoutine _ => none
  | .contributorReductionRoutine _ => none
  | .installedRoutine _ => none
  | .fabricStoreRequest _ => none
  | .tileTransaction _ => none
  | .ualinkStandardRequest _ => none
  | .fabricAcknowledge _ _ _ => none
  | .fabricRetransmit _ => none
  | .fabricRequestTimeout _ => none
  | .tileLockTimeout _ => none
  | .replyLand _ => none
  | .barrierObjectArrive _ => none
  | .engineComplete _ => none
  | .collectiveCombine _ _ _ _ => none
  | .matrixPassComplete _ => none
  | .tileFillComplete _ => none
  | .tileDrainComplete _ => none
  | .monitorMatch _ => none
  | .deadlineFire _ => none
  | .commitParkEnd _ => none
  | .heldTrapTaken _ => none
  | .fetchTrap _ _ _ => none
  | .instructionCacheFill _ _ _ => none
  | .starvationPromote _ _ => none
  | .strandRetire _ => none
  | .gridComplete _ => none
  | .slotTakeback _ => none
  | .strandReadmit _ => none
  | .launchQueueHandoff _ => none
  | .overflowMove => none
  | .postWindowWrite _ _ _ _ => none
  | .launchPacketAccept _ => none
  | .cancelPacket _ => none
  | .cancelTermPacket _ => none
  | .nbhdOffer _ _ => none
  | .nbhdPlace _ => none
  | .offerTimeout _ => none
  | .cstoreApply _ => none
  | .ttLaunch _ => none
  | .ttPreempt _ => none
  | .ttResume _ => none
  | .ttDelayExpiry _ => none
  | .gangBoundaryMarker _ _ _ _ => none
  | .markerTimeout _ _ _ => none
  | .agreementCheck _ _ => none
  | .agreementRequest _ _ _ => none
  | .switchPacket _ _ => none
  | .agreementTimeout _ _ => none
  | .stragglerReport _ _ _ _ => none
  | .podLaunchRecord _ _ _ => none
  | .accept _ _ _ => none
  | .reject _ _ _ => none
  | .go _ _ _ => none
  | .drop _ _ _ => none
  | .zenithReplyTimeout _ _ => none
  | .completionReport _ _ _ _ => none
  | .haloCancel _ _ _ _ => none
  | .cancelMemberTimeout _ _ _ => none
  | .haloMessageReceive _ _ _ _ => none
  | .haloRetransmit _ _ => none
  | .stationDown _ => none
  | .ptpEventMessage _ => none
  | .timeInputLoss _ => none
  | .hostSnoop _ => none
  | .hostMemoryAccess _ _ => none
  | .hostBarAccess _ _ _ => none
  | .firmwareReload => none
  | .firmwareFault => none
  | .evictionNotice _ _ _ => none
  | .coherenceRequest _ _ _ => none
  | .homeProbe _ _ _ => none
  | .directoryRecall _ => none
  | .regionMerge _ _ => none
  | .dieReset _ => none
  | .debugRightRevocation _ => none
  | .shadowSample _ _ => none
  | .shadowSampleDone => none
  | .fqBufferPost => none
  | .fqheadWrite _ _ => none
  | .crtabWrite _ _ => none
  | .factbWrite _ _ => none
  | .cstoreWrite _ _ _ => none
  | .cresvWrite _ _ _ => none
  | .devicePartitionWrite _ _ _ => none
  | .lqcfgWrite _ _ _ => none
  | .journalControlWrite _ _ _ => none
  | .errorLogControlWrite _ _ _ => none
  | .overflowConfigWrite _ _ _ => none
  | .tsrcWrite _ _ => none
  | .profileConfigWrite _ _ _ _ => none
  | .registerWrite _ _ _ => none
  | .rcRegisterRead _ _ => none
  | .powerOnReset => none
  | .firmwareStageDone => none
  | .warmingDone _ => none
  | .memoryTrainingDone => none
  | .linksDone => none
  | .channelRetrain _ _ => none
  | .channelRetire _ _ => none
  | .marginStretch _ => none
  | .governorAdjust _ _ => none
  | .emergencyStop => none
  | .errorDomainClose _ => none
  | .haloAcknowledgement _ _ => none
  | .channelRetrainingDone _ _ => none
  | .ppsInputPulse _ => none
  | .stationRestored _ => none

/-- The four bytes of a word, lowest address first (R4). -/
def bytesOf (w : Word) : List Byte :=
  [w.extractLsb' 0 8, w.extractLsb' 8 8, w.extractLsb' 16 8, w.extractLsb' 24 8]

/-- The twelve bytes of an instruction form. -/
def encodeBytes (i : Instr) : Option (List Byte) :=
  (encode i).map fun r => bytesOf r.w0 ++ bytesOf r.w1 ++ bytesOf r.w2

end Sys2Proof
end

