-- ==== Sys2Proof/Machine/Fetch.lean ====
section
/-! DEFINITION. Fetching: lines of five slots (R192 to R194), the instruction cache and lines held ahead (R227, R369, R371), the checks of
a transfer's target (R195, R231), and precise fetch traps (R393). -/
namespace Sys2Proof.Machine

/-! ### Fetch lines (R192 to R194) -/

/-- Word i of a fetch line. -/
def lineWord (l : List Word) (i : Nat) : Word := l.getD i 0

/-- The three words of a slot. -/
def slotWords (l : List Word) (slot : Nat) : Word × Word × Word :=
  (lineWord l (3 * slot), lineWord l (3 * slot + 1), lineWord l (3 * slot + 2))

/-- The line word. -/
def lineCtl (l : List Word) : Word := lineWord l 15

/-- Parity of the set bits of a word: true when odd. -/
def oddBits {n : Nat} (w : BitVec n) : Bool := (List.range n).foldl (fun b i => xor b (w.getLsbD i)) false

/-- Half h of a slot: 48 bits. -/
def slotHalf (l : List Word) (slot h : Nat) : BitVec 48 :=
  let (w0, w1, w2) := slotWords l slot
  if h = 0 then (w1.extractLsb' 0 16) ++ w0 else w2 ++ (w1.extractLsb' 16 16)

/-- Even parity of each half with its HPAR bit, and of the whole line word (R194). -/
def parityOk (l : List Word) : Bool :=
  !oddBits (lineCtl l) &&
    (List.range 5).all fun s => (List.range 2).all fun h =>
      oddBits (slotHalf l s h) == (lineCtl l).getLsbD (10 + 2 * s + h)

/-- Reserved bits of the line word are clear (R193). -/
def lineRsvOk (l : List Word) : Bool := fld (lineCtl l) 21 11 == 0

/-- The TGT bit of a slot (R193). -/
def tgtBit (l : List Word) (slot : Nat) : Bool := (lineCtl l).getLsbD slot

/-! ### Reading a line -/

/-- The fetch cause of a translation fault (R389). -/
def fetchCause (c : BitVec 8) : BitVec 8 := if c = 0x49 then 0x49 else 0x48

/-- The sixteen words of a 64-byte line, from L2 or memory. -/
def State.memLine (s : State) (p : Place) : List Word :=
  (List.range 16).map fun i => s.fetchW ((p.loc.align 64).add (4 * i))

/-- The 64-byte line at byte offset `o` of a cached 256-byte line. -/
def ICLine.part (c : ICLine) (o : Nat) : List Word := (c.words.drop (o / 4)).take 16

/-- The line that an instruction cache holds of an address. -/
def State.icLine (s : State) (core ctx va : Nat) : Option ICLine :=
  s.icache.find? fun d => d.core == core && d.ctx == ctx && d.va == va / 256

/-- Lines of an instruction cache: 64 KiB (R369). -/
def icLines : Nat := 256

/-- A list without what stands after the first n elements of a kind. -/
def keepFirst {α : Type} (p : α → Bool) : Nat → List α → List α
  | _, [] => []
  | n, x :: l =>
    if p x then (match n with | 0 => keepFirst p 0 l | n + 1 => x :: keepFirst p n l) else x :: keepFirst p n l

/-- Fill the 256-byte line of the instruction cache; a full cache loses its oldest line (R369; assumption 99). -/
def State.icFill (s : State) (core ctx : Nat) (va : Dword) (p : Place) : State :=
  let base := p.loc.align 256
  let s := (s.touchRetired base).touchRetired (base.add 128)
  let c : ICLine := ⟨core, ctx, va.toNat / 256, base, (List.range 64).map fun i => s.fetchW (base.add (4 * i))⟩
  let rest := s.icache.filter fun d => !(d.core == core && d.ctx == ctx && d.va == va.toNat / 256)
  { s with icache := keepFirst (fun d => d.core == core) icLines (c :: rest) }

/-- What a fetch gives: the words of the line, or the fetch cause. -/
abbrev Fetched := Except (BitVec 8) (List Word)

/-- Read the line that holds a PC through the instruction cache; a cached line that differs from memory may have been
evicted and filled again (R227, R369). A line that fails parity is read once more from memory (R194). -/
def State.readLine (s : State) (sid : Nat) (pc : Dword) : State × Fetched :=
  let who := s.whoFetch sid
  let core := s.coreOf sid
  match s.translate who .fetch (pc &&& 0xFFFFFFFFFFFFFFC0) with
  | (s, .error c) => (s, .error (fetchCause c))
  | (s, .ok p) =>
    let fresh := s.memLine p
    let cached := (s.icLine core who.ctx pc.toNat).map
      fun d => d.part (pc.toNat / 64 % 4 * 64)
    let (s, l) := match cached with
      | some l => if l = fresh then (s, l)
        else if Config.choice s.tick pc.toNat % 2 = 0 then (s, l)
        else (s.icFill core who.ctx pc p, fresh)
      | none => (s.icFill core who.ctx pc p, fresh)
    if parityOk l then (s, if lineRsvOk l then .ok l else .error 0x4A)
    else if parityOk fresh then
      (s.bump (rCECNT core) 0 32, if lineRsvOk fresh then .ok fresh else .error 0x4A)
    else (s, .error 0x4A)

/-- The core fetches the line after one ahead of issue, and drops it where that faults; a line held already is left alone
(R371). -/
def State.fetchAhead (s : State) (sid : Nat) (pc : Dword) : State :=
  let next := (pc &&& 0xFFFFFFFFFFFFFFC0) + 64
  if (aget (s.strand sid).lines (next.toNat / 64)).isSome then s
  else
    match s.readLine sid next with
    | (t, .ok l) => t.modStrand sid fun st => { st with lines := aput st.lines (next.toNat / 64) l }
    | (t, .error _) => t

/-- Fetch the line of a PC for a strand: a line that the strand holds ahead of issue may serve it until an FBAR
(R227, R250, R371). -/
def State.fetchLine (s : State) (sid : Nat) (pc : Dword) : State × Fetched :=
  let key := pc.toNat / 64
  let (s', fresh) := s.readLine sid pc
  match aget (s.strand sid).lines key with
  | none =>
    match fresh with
    | .ok l => ((s'.modStrand sid fun st => { st with lines := aput st.lines key l }).fetchAhead sid pc, fresh)
    | .error _ => (s', fresh)
  | some l =>
    let same := match fresh with | .ok m => m == l | .error _ => false
    if same then (s', fresh)
    else if Config.choice s.tick key % 2 = 0 then (s, .ok l)
    else
      match fresh with
      | .ok m => (s'.modStrand sid fun st => { st with lines := aput st.lines key m }, fresh)
      | .error _ => (s', fresh)

/-! ### Transfer checks (R195, R231, R238) -/

/-- What is to be checked at a target: the transferring PC, the target bit, and the PAD: 0 none, 1 any PAD, 2 a PAD with
the label, 3 the budget when it is a PAD, 4 the handler entry. -/
structure TargetCheck where
  pc : Dword
  tgt : Bool
  pad : Nat
  label : BitVec 16
  deriving DecidableEq, Repr

/-- W1 of a PAD is within its ranges (R238). -/
def padOk (w1 : Word) : Bool :=
  w1 &&& ~~~0x001F7F3F#32 == 0 && 1 ≤ fld w1 0 6 && fld w1 0 6 ≤ 32 && 1 ≤ fld w1 8 7 && fld w1 8 7 ≤ 64
    && fld w1 16 5 ≤ 16

/-- A PAD's budget exceeds the image's (R73). -/
def padOver (budget : Dword) (w1 : Word) : Bool :=
  fld budget 0 6 < fld w1 0 6 || fld budget 8 7 < fld w1 8 7 || fld budget 16 5 < fld w1 16 5

/-- Steps 5 and 6 of R231 on a fetched line. -/
def slotCheck (budget : Dword) (l : List Word) (slot : Nat) (tgt : Bool) (pad : Nat) (label : BitVec 16) :
    Option (BitVec 8) :=
  let (w0, w1, w2) := slotWords l slot
  let isPad := w0.extractLsb' 0 10 == 0x00B#10
  if tgt && !tgtBit l slot then some 0x42
  else if (pad == 1 || pad == 2) && (!isPad || !padOk w1) then some 0x45
  else if pad == 2 && w2.extractLsb' 16 16 != label then some 0x45
  else if 1 ≤ pad && pad ≤ 3 && isPad && padOver budget w1 then some 0x46
  else none

/-- The checks of steps 3 to 6 of R231 for one target: a cause, or that the lanes may go; `true` where steps 5 and 6 are still
due, since the target's line cannot be fetched yet (step 4). -/
def State.checkTarget (s : State) (sid : Nat) (t : Dword) (c : TargetCheck) :
    State × Except (BitVec 8) Bool :=
  if pcInvalid t then (s, .error 0x43)
  else if !c.tgt && c.pad == 0 then (s, .ok false)
  else
    match s.fetchLine sid t with
    | (s, .error _) => (s, .ok true)
    | (s, .ok l) =>
      match slotCheck ((s.strand sid).ctl ctlBUDGET) l (fld t 0 3) c.tgt c.pad c.label with
      | some cause => (s, .error cause)
      | none => (s, .ok false)

/-- Check every target of a transfer: the sets that go, and the lanes held (R231). -/
def State.checkTargets (s : State) (sid : Nat) (c : TargetCheck) (ts : List (Lanes × Dword)) :
    State × List Target × List Hold :=
  ts.foldl (fun acc t =>
    match acc.1.checkTarget sid t.2 c with
    | (s, .ok due) =>
      (s, acc.2.1 ++ [⟨t.1, t.2, if due then some ⟨c.pc, c.tgt, c.pad, c.label, t.1, none⟩ else none⟩], acc.2.2)
    | (s, .error cause) => (s, acc.2.1, acc.2.2 ++ (lanesOf t.1).map fun l => ⟨l, cause, t.2⟩)) (s, [], [])

/-! ### Fetch traps (R371, R393) -/

/-- A precise fetch trap: post an entry of KIND 2 and park the fragment at its PC. -/
def State.fetchTrap (s : State) (sid idx : Nat) (cause : BitVec 8) : State :=
  let st := s.strand sid
  match st.frag? idx with
  | none => s
  | some f =>
    let s := s.modStrand sid fun st => st.setFrag idx { f with wait := .fetchPark cause }
    s.fqPost 2 (fqEntry 2 st.ctx 0 cause f.pc f.pc st.base [0, 0, 0, 0])

/-- The checks still due at a fragment's PC fail with this cause, given its line. -/
def Strand.dueFails (st : Strand) (f : Frag) (l : List Word) : Option (BitVec 8) :=
  match f.due with
  | none => none
  | some d => slotCheck (st.ctl ctlBUDGET) l (fld f.pc 0 3) d.tgt d.pad d.label

/-- A fragment whose target has been checked goes on at its pc: it runs, or waits there for its group (R40, R231). -/
def State.pastDue (s : State) (sid idx : Nat) : State :=
  s.modStrand sid fun st =>
    match st.frag? idx with
    | some f => st.place s.clock idx (Frag.fresh s.clock f.mask f.pc f.grp)
    | none => st

/-- A check that was due fails: the lanes that transferred are held with the transferring PC, and any others of the fragment go
on; at the handler's entry the strand is contained (R195). -/
def State.failDue (s : State) (sid idx : Nat) (f : Frag) (cause : BitVec 8) : State :=
  match f.due with
  | none => s
  | some d =>
    if d.pad = 4 then s.contain sid cause 0x0E d.pc none
    else (s.hold sid idx d.pc ((lanesOf (f.mask &&& d.lanes)).map fun l => ⟨l, cause, f.pc⟩)).pastDue sid idx

end Sys2Proof.Machine
end

