-- ==== Sys2Proof/Machine/Control.lean ====
section
/-! DEFINITION. The meanings of group 0x0: control transfers, exit, traps and instruction fetch control (R230 to R251). -/
namespace Sys2Proof.Machine

/-! ### Shared operations -/

/-- The PC that DISP names, and the one that AUX names as a reconvergence offset (R198). -/
def dispPc (pc : Dword) (b : CtlBody) : Dword := pcPlus pc b.w1.toInt
def auxPc (pc : Dword) (b : CtlBody) : Dword := pcPlus pc b.aux.toInt

/-- The operand in W1 bits 9..0. -/
def ctlB (b : CtlBody) : Operand := Check.w1Op b

/-- Hold the lanes of a mask with one cause. -/
def holdAll (m : Lanes) (cause : BitVec 8) (addr : Dword) : List Hold := (lanesOf m).map fun l => ⟨l, cause, addr⟩

/-- Transfer sets of lanes after the checks of R231, as a split under R39. -/
def State.transfer (s : State) (cx : Cx) (c : TargetCheck) (ts : List (Lanes × Dword)) (rcv : Option Dword)
    (hs : List Hold) : State × List Hold × Go :=
  let (s, gos, hs') := s.checkTargets cx.sid c ts
  (s, hs ++ hs', .goto gos rcv)

/-- Lanes grouped by their value, in order of first lane. -/
def groupLanes : List (Nat × Dword) → List (Lanes × Dword)
  | [] => []
  | (l, v) :: r =>
    let rest := groupLanes r
    let bit := maskOf [l]
    match rest.find? fun x => x.2 == v with
    | some x => (bit ||| x.1, v) :: rest.filter fun y => y.2 != v
    | none => (bit, v) :: rest

/-- The predicate operand of a conditional form: the active lanes whose bit, exclusive-ORed with .N, is 1. -/
def Cx.taken (cx : Cx) (b : CtlBody) : Lanes :=
  match b.a with
  | .pred n =>
    let bits := ((cx.src.strand cx.sid).readPred cx.src.tick n.toNat 15 cx.act).1
    if b.var.getLsbD 0 then cx.act &&& ~~~bits else bits
  | _ => 0

/-- 64-bit target operands of the active lanes: the lanes by target, and those held for a poisoned target (R231). -/
def Cx.targets (cx : Cx) (o : Operand) : List (Nat × Dword) × List Hold :=
  let vs := (lanesOf cx.act).map fun l => (l, cx.src.readOp cx.sid l true o)
  (vs.filterMap fun v => if v.2.tok.isNone then some (v.1, v.2.v) else none,
   vs.filterMap fun v => if v.2.tok.isSome then some ⟨v.1, 0x47, 0⟩ else none)

/-- One 8-byte table read for some lanes: the doubleword, or the poison it yields, with the lowest of the lanes (R232). Where it must
follow an access that has not been performed, the instruction is not ready (R45, R169). -/
def State.tableRead (s : State) (cx : Cx) (lane : Nat) (addr : Dword) : State × Except (Option Nat × ReplyVal) Dword :=
  if s.waitsFor cx.sid lane addr 8 false then (s.unready, .error (some lane, .tok 0))
  else
    match s.load cx.sid lane addr 8 none with
    | (s, .words [lo, hi]) => (s, .ok (join32 lo hi))
    | (s, v) => (s, .error (some lane, v))

/-- The effect of an instruction that reads a table, unless one of its reads is not ready. -/
def orStall (r : State × List Hold × Go) : State × List Hold × Go := if r.1.notReady then (r.1, [], .stall) else r

/-- The records of what a table's reads met: one for each distinct cause (R128). -/
def State.tableFaults (s : State) (cx : Cx) (fs : List (Option Nat × ReplyVal)) : State := (s.settle cx.sid cx.pc fs).1

/-- The targets that JTAB and CALLT read from their table: lanes by target, held lanes, and the table's label (R232). -/
def State.tableTargets (s : State) (cx : Cx) (idx tab : Operand) :
    State × List (Nat × Dword) × List Hold × BitVec 16 :=
  let ix := (lanesOf cx.act).map fun l => (l, cx.src.readOp cx.sid l false idx)
  let bad : List Hold := ix.filterMap fun v => if v.2.tok.isSome then some ⟨v.1, 0x47, 0⟩ else none
  let good := ix.filterMap fun v => if v.2.tok.isNone then some (v.1, v.2.v) else none
  let t := cx.src.readOp cx.sid 0 true tab
  let all (c : BitVec 8) : List Hold := good.map fun v => ⟨v.1, c, 0⟩
  match good with
  | [] => (s, [], bad, 0)
  | (l0, _) :: _ =>
    if t.tok.isSome then (s, [], bad ++ all 0x47, 0)
    else
      match s.tableRead cx l0 t.v with
      | (s, .error v) => (s.tableFaults cx [v], [], bad ++ all 0x47, 0)
      | (s, .ok hd) =>
        let n := fld hd 0 32
        if n = 0 || fld hd 48 16 != 0 then (s, [], bad ++ all 0x44, 0)
        else
          let r := (groupLanes good).foldl
            (fun (acc : State × List (Nat × Dword) × List Hold × List (Option Nat × ReplyVal)) g =>
            let ls := lanesOf g.1
            if n ≤ g.2.toNat then (acc.1, acc.2.1, acc.2.2.1 ++ holdAll g.1 0x44 0, acc.2.2.2)
            else
              match acc.1.tableRead cx (ls.headD 0) (t.v + 8 + 8 * g.2) with
              | (s, .ok pc) => (s, acc.2.1 ++ ls.map fun l => (l, pc), acc.2.2)
              | (s, .error v) => (s, acc.2.1, acc.2.2.1 ++ holdAll g.1 0x47 0, acc.2.2.2 ++ [v])) (s, [], bad, [])
          (r.1.tableFaults cx r.2.2.2, r.2.1, r.2.2.1, BitVec.ofNat 16 (fld hd 32 16))

/-- Write a return PC into the link pair of lanes (R239). -/
def State.putLink (s : State) (sid d : Nat) (ret : Dword) (m : Lanes) : State :=
  (lanesOf m).foldl (fun s l => s.putVec sid d 2 l (res64 ret)) s

/-- Write the return PC into the link pair of the lanes that transfer; lanes whose checks are still due get it with them (R231,
R239). -/
def State.putLinks (s : State) (cx : Cx) (d : BitVec 8) (gos : List Target) : State :=
  gos.foldl (fun s t => if t.due.isSome then s else s.putLink cx.sid d.toNat cx.nextPc t.lanes) s

/-- Targets whose lanes write a link once their checks have passed. -/
def withLink (d : BitVec 8) (ret : Dword) (gos : List Target) : List Target :=
  gos.map fun t => { t with due := t.due.map fun c => { c with link := some (d.toNat, ret) } }

/-- The checks that were due of a fragment pass: the link of a CALL is written for the lanes that transferred, and the fragment
goes on (R231, R239). -/
def State.passDue (s : State) (sid idx : Nat) (f : Frag) : State :=
  let s := match f.due with
    | some ⟨_, _, _, _, m, some (d, ret)⟩ => s.putLink sid d ret (f.mask &&& m)
    | _ => s
  s.pastDue sid idx

/-- A transfer with a link: the checks, the links of the lanes that go, the split at the return address (R239, R240). -/
def State.callTo (s : State) (cx : Cx) (d : BitVec 8) (c : TargetCheck) (ts : List (Lanes × Dword)) (hs : List Hold) :
    State × List Hold × Go :=
  let (s, gos, hs') := s.checkTargets cx.sid c ts
  (s.putLinks cx d gos, hs ++ hs', .goto (withLink d cx.nextPc gos) (some cx.nextPc))

/-! ### Meanings -/

/-- NOP (R245). -/
def execNop (h : Hdr) (b : CtlBody) (s : State) : Out :=
  s.issue (legal (.nop h b)) h [] fun s _ => (s, [], .next)

/-- BRA (R233). -/
def execBra (h : Hdr) (b : CtlBody) (s : State) : Out :=
  s.issue (legal (.bra h b)) h [] fun s cx =>
    s.transfer cx ⟨cx.pc, true, 0, 0⟩ [(cx.act, dispPc cx.pc b)] none []

/-- BRC (R234): an invalid reconvergence address holds every active lane (R231). -/
def execBrc (h : Hdr) (b : CtlBody) (s : State) : Out :=
  s.issue (legal (.brc h b)) h (opUse b.a 1 h.lua true) fun s cx =>
    let rcv := auxPc cx.pc b
    if pcInvalid rcv then (s, holdAll cx.act 0x43 rcv, .next)
    else s.transfer cx ⟨cx.pc, true, 0, 0⟩ [(cx.taken b, dispPc cx.pc b)] (some rcv) []

/-- The whole fragment transfers when a condition holds of it (R235). -/
def State.uniform (s : State) (cx : Cx) (cond : Bool) (tgt : Dword) : State × List Hold × Go :=
  if cond then s.transfer cx ⟨cx.pc, true, 0, 0⟩ [(cx.frag.mask, tgt)] none [] else (s, [], .next)

/-- BRANY (R235). -/
def execBrany (h : Hdr) (b : CtlBody) (s : State) : Out :=
  s.issue (legal (.brany h b)) h (opUse b.a 1 h.lua true) fun s cx =>
    s.uniform cx (cx.taken b != 0) (dispPc cx.pc b)

/-- BRALL (R235). -/
def execBrall (h : Hdr) (b : CtlBody) (s : State) : Out :=
  s.issue (legal (.brall h b)) h (opUse b.a 1 h.lua true) fun s cx =>
    s.uniform cx (cx.taken b == cx.act) (dispPc cx.pc b)

/-- LOOP (R236). -/
def execLoopOp (h : Hdr) (b : CtlBody) (s : State) : Out :=
  s.issue (legal (.loopOp h b)) h [⟨.sc, h.dest.toNat, 1, false, false, true, 15⟩, ⟨.sc, h.dest.toNat, 1, true, false, false, 15⟩] fun s cx =>
    let v := cx.src.readOp cx.sid 0 true (.sc (h.dest.extractLsb' 0 6))
    if v.tok.isSome then (s, holdAll cx.act 0x47 0, .next)
    else
      let n := v.v - 1
      (s.putSc cx.sid h.dest.toNat 1 (res64 n)).uniform cx (n != 0) (dispPc cx.pc b)

/-- JTAB (R237). -/
def execJtab (h : Hdr) (b : CtlBody) (s : State) : Out :=
  s.issue (legal (.jtab h b)) h (opUse b.a 1 h.lua true ++ opUse (ctlB b) 1 h.lub true) fun s cx =>
    let rcv := auxPc cx.pc b
    if pcInvalid rcv then (s, holdAll cx.act 0x43 rcv, .next)
    else
      let (s, ts, hs, label) := s.tableTargets cx b.a (ctlB b)
      orStall (s.transfer cx ⟨cx.pc, true, 2, label⟩ (groupLanes ts) (some rcv) hs)

/-- CALL (R239). -/
def execCall (h : Hdr) (b : CtlBody) (s : State) : Out :=
  s.issue (legal (.call h b)) h [vecDest h.dest 2] fun s cx =>
    s.callTo cx h.dest ⟨cx.pc, true, 3, 0⟩ [(cx.act, dispPc cx.pc b)] []

/-- CALL.IND (R239). -/
def execCallInd (h : Hdr) (b : CtlBody) (s : State) : Out :=
  s.issue (legal (.callInd h b)) h (opUse (ctlB b) 2 h.lub true ++ [vecDest h.dest 2]) fun s cx =>
    let (ts, hs) := cx.targets (ctlB b)
    s.callTo cx h.dest ⟨cx.pc, true, 1, 0⟩ (groupLanes ts) hs

/-- CALLT (R240). -/
def execCallt (h : Hdr) (b : CtlBody) (s : State) : Out :=
  s.issue (legal (.callt h b)) h (opUse b.a 1 h.lua true ++ opUse (ctlB b) 1 h.lub true ++ [vecDest h.dest 2])
    fun s cx =>
      let (s, ts, hs, label) := s.tableTargets cx b.a (ctlB b)
      orStall (s.callTo cx h.dest ⟨cx.pc, true, 2, label⟩ (groupLanes ts) hs)

/-- RET (R241): no target bit is checked. -/
def execRet (h : Hdr) (b : CtlBody) (s : State) : Out :=
  s.issue (legal (.ret h b)) h (opUse b.a 2 h.lua true) fun s cx =>
    let (ts, hs) := cx.targets b.a
    s.transfer cx ⟨cx.pc, false, 0, 0⟩ (groupLanes ts) none hs

/-- PAD does nothing when it issues (R238). -/
def execPad (h : Hdr) (b : CtlBody) (s : State) : Out :=
  s.issue (legal (.pad h b)) h [] fun s _ => (s, [], .next)

/-- A BRX table's entries up to the one that a target equals: whether it is listed, or the poison of an entry read before it
(R232). -/
def State.listed (s : State) (cx : Cx) (lane : Nat) (addr t : Dword) : Nat → State × Except (Option Nat × ReplyVal) Bool
  | 0 => (s, .ok false)
  | n + 1 =>
    match s.tableRead cx lane addr with
    | (s, .error v) => (s, .error v)
    | (s, .ok e) => if e = t then (s, .ok true) else s.listed cx lane (addr + 8) t n

/-- The groups whose targets a BRX table of n entries lists; the lanes of the others are held (R232). -/
def State.listedGroups (s : State) (cx : Cx) (tab : Dword) (n : Nat) (gs : List (Lanes × Dword)) (hs : List Hold) :
    State × List (Lanes × Dword) × List Hold :=
  let r := gs.foldl (fun (acc : State × List (Lanes × Dword) × List Hold × List (Option Nat × ReplyVal)) g =>
    match acc.1.listed cx ((lowest g.1).getD 0) (tab + 8) g.2 n with
    | (s, .ok true) => (s, acc.2.1 ++ [g], acc.2.2)
    | (s, .ok false) => (s, acc.2.1, acc.2.2.1 ++ holdAll g.1 0x44 0, acc.2.2.2)
    | (s, .error v) => (s, acc.2.1, acc.2.2.1 ++ holdAll g.1 0x47 0, acc.2.2.2 ++ [v])) (s, [], hs, [])
  (r.1.tableFaults cx r.2.2.2, r.2.1, r.2.2.1)

/-- The effect of BRX: the table stands at the byte address of the line that DISP names (R232, R242). -/
def brxEff (b : CtlBody) (s : State) (cx : Cx) : State × List Hold × Go :=
  let (ts, hs) := cx.targets b.a
  let tab := dispPc cx.pc b
  match ts with
  | [] => (s, hs, .next)
  | (l0, _) :: _ =>
    let all (c : BitVec 8) : List Hold := ts.map fun t => ⟨t.1, c, 0⟩
    match s.tableRead cx l0 tab with
    | (s, .error v) => (s.tableFaults cx [v], hs ++ all 0x47, .next)
    | (s, .ok hd) =>
      if hd.toNat = 0 || 1023 < hd.toNat then (s, hs ++ all 0x44, .next)
      else
        let (s, gos, hs) := s.listedGroups cx tab hd.toNat (groupLanes ts) hs
        s.transfer cx ⟨cx.pc, true, 0, 0⟩ gos none hs

/-- BRX (R242): DISP must name slot 0 (R232, R251). -/
def execBrx (h : Hdr) (b : CtlBody) (s : State) : Out :=
  let slot0 := match s.issuer with
    | some (_, _, f) => fld (dispPc f.pc b) 0 3 == 0
    | none => true
  s.issue (legal (.brx h b) && slot0) h (opUse b.a 2 h.lua true) fun s cx => orStall (brxEff b s cx)

/-- EXIT (R243). -/
def execExit (h : Hdr) (b : CtlBody) (s : State) : Out :=
  s.issue (legal (.exit h b)) h [] fun s cx => (s.exitWith cx.sid cx.idx cx.pc cx.act, [], .next)

/-- The fragment at an index is deferred at its partition's next issue decisions. -/
def State.markYield (s : State) (sid idx : Nat) : State :=
  s.modStrand sid fun st =>
    match st.frag? idx with
    | some f => st.setFrag idx { f with yieldEnd := s.clock + 64 }
    | none => st

/-- YIELD (R244): the fragment is deferred, where a lane passes the guard (R201); no other effect. -/
def execYield (h : Hdr) (b : CtlBody) (s : State) : Out :=
  match s.issue (legal (.yield h b)) h [] (fun s _ => (s, [], .next)), s.issuer with
  | .next t, some (sid, idx, f) =>
    if t.notReady || ((s.strand sid).guard s.tick h f.mask).1 = 0 then .next t else .next (t.markYield sid idx)
  | o, _ => o

/-- Prefetch the 256-byte line of an address into the core's instruction cache: one that is present is left alone, and one that is
invalid, unmapped or not executable is dropped without a trace (R370). -/
def State.prefetchLine (s : State) (sid : Nat) (a : Dword) : State :=
  let who := s.whoFetch sid
  let core := s.coreOf sid
  if fld a 56 8 != 0 || (s.icLine core who.ctx a.toNat).isSome then s
  else
    match s.translate who .fetch a with
    | (t, .ok p) => t.icFill core who.ctx a p
    | (t, .error _) => t

/-- PREF.I (R248, R370): the line that holds the target, and the n − 1 after it. -/
def execPrefI (h : Hdr) (b : CtlBody) (s : State) : Out :=
  s.issue (legal (.prefI h b)) h [] fun s cx =>
    let base := dispPc cx.pc b &&& 0xFFFFFFFFFFFFFF00
    ((List.range (b.var.toNat + 1)).foldl (fun s i => s.prefetchLine cx.sid (base + BitVec.ofNat 64 (256 * i))) s, [], .next)

/-- Remove lines from the instruction caches that a scope reaches (R249). -/
def State.icDrop (s : State) (core scope : Nat) (p : ICLine → Bool) : State :=
  { s with icache := s.icache.filter fun c =>
      !(p c && (if scope ≤ 3 then c.core == core else if scope = 4 then c.core / 128 == core / 128 else true)) }

/-- ICINV (R249): after every earlier access of the fragment; an address that does not translate has no effect; a poisoned one places
a poison entry (R135). -/
def execIcinv (h : Hdr) (b : CtlBody) (s : State) : Out :=
  s.issue (legal (.icinv h b)) h (opUse b.a 1 h.lua true) fun s cx =>
    let a := cx.src.readOp cx.sid 0 true b.a
    if !s.allDone cx.sid cx.frag.mask then (s, [], .stall) else
    match a.tok with
    | some t =>
      let (s, hs) := s.poisonEntries cx.sid cx.pc [((lowest cx.act).getD 0, t)]
      (s, hs, .next)
    | none =>
      match s.locate cx.sid a.v with
      | (s, some p) =>
        (s.icDrop (s.coreOf cx.sid) (b.var.toNat % 8) fun c => c.loc == p.loc.align 256, [], .next)
      | (s, none) => (s, [], .next)

/-- ICINV.ALL (R249). -/
def execIcinvAll (h : Hdr) (b : CtlBody) (s : State) : Out :=
  s.issue (legal (.icinvAll h b)) h [] fun s cx =>
    let ctx := (s.strand cx.sid).ctx
    if !s.allDone cx.sid cx.frag.mask then (s, [], .stall) else
    (s.icDrop (s.coreOf cx.sid) (b.var.toNat % 8) fun c => c.ctx == ctx, [], .next)

/-- FBAR (R250). -/
def execFbar (h : Hdr) (b : CtlBody) (s : State) : Out :=
  s.issue (legal (.fbar h b)) h [] fun s cx =>
    (s.modStrand cx.sid fun st => { st with lines := [] }, [], .next)

/-- TRAP (R247). -/
def execTrap (h : Hdr) (b : CtlBody) (s : State) : Out :=
  s.issue (legal (.trap h b)) h [] fun s cx => (s, holdAll cx.act 0x4E (b.aux.zeroExtend 64), .next)

/-- Halt a strand (R456): its image takes the split table (R457), and a debug event is posted. -/
def State.halt (s : State) (sid reason code prev : Nat) (pc : Dword) : State :=
  let st := s.strand sid
  let s := s.modStrand sid fun st => { st with life := .halted prev }.saveSplits
  s.dbgPost reason st.ctx code pc st.base

/-- BKPT (R247): with the debug right held and breakpoints enabled the strand halts after the instruction. -/
def execBkpt (h : Hdr) (b : CtlBody) (s : State) : Out :=
  let debug (s : State) (sid : Nat) : Bool := fld (s.dbgWord (s.strand sid).ctx) 59 2 == 3
  let r := s.issue (legal (.bkpt h b)) h [] fun s cx =>
    if debug s cx.sid then
      (s.modStrand cx.sid fun st => { st with life := .halted 0 }.saveSplits, [], .next)
    else (s, holdAll cx.act 0x4F (b.aux.zeroExtend 64), .next)
  match r, s.issuer with
  | .next t, some (sid, _, f) =>
    if (t.strand sid).life == .halted 0 && !(t.strand sid).contained then
      .next (t.halt sid 2 b.aux.toNat 0 (pcPlus f.pc 1))
    else .next t
  | o, _ => o

/-- GETPC (R246). -/
def execGetpc (h : Hdr) (b : CtlBody) (s : State) : Out :=
  s.issue (legal (.getpc h b)) h (scDest h.dest 1) fun s cx =>
    let pc := dispPc cx.pc b
    (s.putSc cx.sid h.dest.toNat 1 (res64 (if pcInvalid pc then 0 else pc)), [], .next)

end Sys2Proof.Machine
end

