-- ==== Sys2Proof/Machine/Memory.lean ====
section
/-! DEFINITION. The meanings of groups 0x8 and 0x9 but for tiles: loads, stores, prefetch, probe and cache maintenance (R329 to R336). -/
namespace Sys2Proof.Machine

/-! ### Shared operations -/

/-- The lane for which a once-per-fragment form makes its access. -/
def Cx.once (cx : Cx) : Nat := (lowest cx.act).getD 0

/-- A memory instruction must follow an access of one of its lanes that has not been performed, or reads or writes an image word
whose result is still due: it is not ready (R45, R69, R169, R170; assumption 102). -/
def State.mustWait (s : State) (cx : Cx) (b : MemBody) (lanes : List Nat) (atomic : Bool) (len : Nat) (rel : Bool) : Bool :=
  lanes.any fun l =>
    match cx.src.ea cx.sid l b atomic with
    | .error _ => false
    | .ok a => s.waitsFor cx.sid l a len rel

/-- Issue a memory instruction that accesses `len` bytes for each active lane, or once. -/
def State.issueMem (s : State) (legal : Bool) (h : Hdr) (b : MemBody) (us : List Use) (once : Bool) (len : Nat) (rel : Bool)
    (eff : State → Cx → State × List Hold × Go) : Out :=
  s.issue legal h us fun s cx =>
    if s.mustWait cx b (if once then [cx.once] else lanesOf cx.act) false len rel then (s, [], .stall) else eff s cx

/-- The value of a narrow load: zero-extended, or sign-extended when SX is 1, to 64 bits (R331). -/
def extend (sx : Bool) (size : Nat) (w : Word) : Dword :=
  if sx then dword (signed (8 * size) w.toNat) else w.zeroExtend 64

/-- What a load gives a vector destination, or a scalar: its words (R331). -/
def loadVal (b : MemBody) (scalar : Bool) (v : ReplyVal) : ReplyVal :=
  match v with
  | .words [w] =>
    let d := extend b.sx (memSize b) w
    if scalar then res64 d else res32 d
  | v => v

/-- One load at EA of a lane (R330). -/
def State.loadLane (s : State) (cx : Cx) (b : MemBody) (lane size : Nat) : State × ReplyVal :=
  match cx.src.ea cx.sid lane b false with
  | .error t => (s, .tok t)
  | .ok a =>
    s.load cx.sid lane a size (some ⟨lane, cx.pc, a, cx.act⟩)

/-- Reads of $event as an address (R77). -/
def memSpecials (b : MemBody) : List Operand := [b.base, b.index, b.data]

/-! ### Loads -/

/-- The effect of LD (R331). -/
def ldEff (h : Hdr) (b : MemBody) (s : State) (cx : Cx) : State × List Hold × Go :=
  let span := if b.size = 3 then 2 else 1
  let r := (lanesOf cx.act).foldl (fun (acc : State × List (Nat × ReplyVal)) l =>
    let (s, v) := acc.1.loadLane cx b l (memSize b)
    (s, acc.2 ++ [(l, loadVal b false v)])) (s, [])
  (((r.1.putLanes cx h.dest.toNat span r.2)).clearEvent cx.sid (memSpecials b), [], .next)

/-- LD (R331). -/
def execLd (h : Hdr) (b : MemBody) (s : State) : Out :=
  let span := if b.size = 3 then 2 else 1
  s.issueMem (legal (.ld h b)) h b (eaUses h b false ++ [vecDest h.dest span]) false (memSize b) false (ldEff h b)

/-- The effect of LDU: performed once, the value given to every active lane (R331). -/
def lduEff (h : Hdr) (b : MemBody) (s : State) (cx : Cx) : State × List Hold × Go :=
  let span := if b.size = 3 then 2 else 1
  let (s, v) := s.loadLane cx b cx.once (memSize b)
  let s := s.putLanes cx h.dest.toNat span ((lanesOf cx.act).map fun l => (l, loadVal b false v))
  (s.clearEvent cx.sid (memSpecials b), [], .next)

/-- LDU: performed once, the value given to every active lane (R331). -/
def execLdu (h : Hdr) (b : MemBody) (s : State) : Out :=
  let span := if b.size = 3 then 2 else 1
  s.issueMem (legal (.ldu h b)) h b (eaUses h b false ++ [vecDest h.dest span]) true (memSize b) false (lduEff h b)

/-- The effect of LDS (R331). -/
def ldsEff (h : Hdr) (b : MemBody) (s : State) (cx : Cx) : State × List Hold × Go :=
  let (s, v) := s.loadLane cx b cx.once (memSize b)
  let (s, hs) := s.putScalarDest cx h.dest (loadVal b true v)
  (s.clearEvent cx.sid (memSpecials b), hs, .next)

/-- LDS (R331). -/
def execLds (h : Hdr) (b : MemBody) (s : State) : Out :=
  s.issueMem (legal (.lds h b)) h b (eaUses h b false ++ scDest h.dest 1) true (memSize b) false (ldsEff h b)

/-- The parts of one lane of LDV: pairs of words, or one misalignment for all of them (R332). -/
def State.loadParts (s : State) (cx : Cx) (b : MemBody) (lane n : Nat) : State × List ReplyVal :=
  match cx.src.ea cx.sid lane b false with
  | .error t => (s, List.replicate n (.tok t))
  | .ok a =>
    if a.toNat % 16 != 0 then (s, List.replicate n (.bad 0x08 0x02 a))
    else
      (List.range n).foldl (fun (acc : State × List ReplyVal) i =>
        let (s, v) := acc.1.load cx.sid lane (a + BitVec.ofNat 64 (8 * i)) 8 (if i = 0 then some ⟨lane, cx.pc, a, cx.act⟩ else none)
        (s, acc.2 ++ [v])) (s, [])

/-- The effect of LDV (R332). -/
def ldvEff (h : Hdr) (b : MemBody) (s : State) (cx : Cx) : State × List Hold × Go :=
  let n := Check.vCount b
  let r := (lanesOf cx.act).foldl (fun (acc : State × List ((Nat × Nat) × ReplyVal)) l =>
    let (s, vs) := acc.1.loadParts cx b l (n / 2)
    (s, acc.2 ++ (vs.zipIdx).map fun v => ((l, v.2), v.1))) (s, [])
  let (s, vs) := r.1.settle cx.sid cx.pc (r.2.map fun x => (some x.1.1, x.2))
  let s := (r.2.zip vs).foldl (fun s x => s.putVec cx.sid (h.dest.toNat + 2 * x.1.1.2) 2 x.1.1.1 x.2.2) s
  (s.clearEvent cx.sid (memSpecials b), [], .next)

/-- LDV (R332). -/
def execLdv (h : Hdr) (b : MemBody) (s : State) : Out :=
  let n := Check.vCount b
  s.issueMem (legal (.ldv h b)) h b (eaUses h b false ++ [vecDest h.dest n]) false (4 * n) false (ldvEff h b)

/-- PREF.D: a request that changes no state; faults and poison are dropped (R333). -/
def execPrefD (h : Hdr) (b : MemBody) (s : State) : Out :=
  s.issue (legal (.prefD h b)) h (eaUses h b false) fun s cx => (s.clearEvent cx.sid (memSpecials b), [], .next)

/-- What PROBE reports of an address: WOK and CAUSE (R334). -/
def State.probeAt (s : State) (sid : Nat) (a : Dword) (size : Nat) : State × Word :=
  let mis := a.toNat % size != 0
  let who := s.whoOf sid
  match s.translate who .read a with
  | (s, r) =>
    let cause : Nat := if mis then 8 else match r with | .ok _ => 0 | .error c => c.toNat
    match s.translate who .write a with
    | (s, .ok _) => (s, BitVec.ofNat 32 (cause + 256 * b2n (!mis)))
    | (s, .error _) => (s, BitVec.ofNat 32 cause)

/-- The effect of PROBE (R334). -/
def probeEff (h : Hdr) (b : MemBody) (s : State) (cx : Cx) : State × List Hold × Go :=
  let r := (lanesOf cx.act).foldl (fun (acc : State × List (Nat × ReplyVal)) l =>
    match cx.src.ea cx.sid l b false with
    | .error t => (acc.1, acc.2 ++ [(l, .tok t)])
    | .ok a =>
      let (s, w) := acc.1.probeAt cx.sid a (memSize b)
      (s, acc.2 ++ [(l, .words [w])])) (s, [])
  ((r.1.putLanes cx h.dest.toNat 1 r.2).clearEvent cx.sid (memSpecials b), [], .next)

/-- PROBE (R334). -/
def execProbe (h : Hdr) (b : MemBody) (s : State) : Out :=
  s.issue (legal (.probe h b)) h (eaUses h b false ++ [vecDest h.dest 1]) (probeEff h b)

/-! ### Stores -/

/-- The release flag of a store's ORD. -/
def isRel (b : MemBody) : Bool := b.ord.getLsbD 1

/-- One store of a lane; `count`: latency samples count it when it is performed (R461). -/
def State.storeOne (s : State) (cx : Cx) (b : MemBody) (lane size : Nat) (a v : Dword) (count : Bool) : State × Eff :=
  s.store cx.sid ⟨lane, cx.pc, a, cx.act⟩ a size v (isRel b) b.scope count

/-- The first of consecutive 8-byte parts that may not be stored to. -/
def State.partFault (s : State) (sid : Nat) (a : Dword) : Nat → State × Option Eff
  | 0 => (s, none)
  | n + 1 =>
    match s.translate (s.whoOf sid) .write a with
    | (s, .error c) => (s, some (.bad c 0x02 a))
    | (s, .ok _) => s.partFault sid (a + 8) n

/-- One lane's stores: one of `size` bytes, or 8-byte parts at EA + 8i. Nothing is performed for a lane of which a part
faults or traps (R137, R140, R155). -/
def State.storeParts (s : State) (cx : Cx) (b : MemBody) (lane size : Nat) (a : Dword) (vs : List Dword) : State × Eff :=
  match vs with
  | [v] => s.storeOne cx b lane size a v true
  | _ =>
    match s.partFault cx.sid a vs.length with
    | (s, some e) => (s, e)
    | (s, none) =>
      let r := (vs.zipIdx).foldl (fun (acc : State × Eff) v =>
        if acc.2 = .done then acc.1.storeOne cx b lane size (a + BitVec.ofNat 64 (8 * v.2)) v.1 (v.2 == 0) else acc) (s, .done)
      (if r.2 = .done then r.1 else s, r.2)

/-- The stores of an instruction: for each lane an address, unless poisoned, then the data, unless poisoned (R330). -/
def State.storeLanes (s : State) (cx : Cx) (b : MemBody) (lanes : List Nat) (size : Nat)
    (addr : Dword → Except Dword Dword) (data : Nat → Except Word (List Dword)) : State × List Hold :=
  let s := if isRel b then s.showLanes cx.sid cx.act else s
  let r := lanes.foldl (fun (acc : State × List (Nat × Eff)) l =>
    match cx.src.ea cx.sid l b false with
    | .error t => (acc.1, acc.2 ++ [(l, .tok t)])
    | .ok a =>
      match data l with
      | .error t => (acc.1, acc.2 ++ [(l, .tok t)])
      | .ok vs =>
        match addr a with
        | .error a => (acc.1, acc.2 ++ [(l, .bad 0x08 0x02 a)])
        | .ok a =>
          let (s, e) := acc.1.storeParts cx b l size a vs
          (s, acc.2 ++ [(l, e)])) (s, [])
  let (s, hs) := r.1.settleEff cx.sid cx.pc r.2
  (s.clearEvent cx.sid (memSpecials b), hs)

/-- The data operand of a lane as a list of one value. -/
def Cx.datum (cx : Cx) (b : MemBody) (lane : Nat) : Except Word (List Dword) :=
  let v := cx.src.readOp cx.sid lane (b.size == 3) b.data
  match v.tok with
  | some t => .error t
  | none => .ok [v.v]

/-- ST (R335). -/
def execSt (h : Hdr) (b : MemBody) (s : State) : Out :=
  s.issueMem (legal (.st h b)) h b (eaUses h b true ++ opUse b.data (if b.size = 3 then 2 else 1) h.luc true) false (memSize b) (isRel b)
    fun s cx =>
    let (s, hs) := s.storeLanes cx b (lanesOf cx.act) (memSize b) .ok (cx.datum b)
    (s, hs, .next)

/-- STS (R335). -/
def execSts (h : Hdr) (b : MemBody) (s : State) : Out :=
  s.issueMem (legal (.sts h b)) h b (eaUses h b true ++ opUse b.data 1 h.luc true) true (memSize b) (isRel b) fun s cx =>
    let (s, hs) := s.storeLanes cx b [cx.once] (memSize b) .ok (cx.datum b)
    (s, hs, .next)

/-- The doublewords of consecutive registers of a lane, or the token of the first poisoned word. -/
def Cx.regPairs (cx : Cx) (d n lane : Nat) : Except Word (List Dword) :=
  let st := cx.src.strand cx.sid
  let ws := (List.range n).map fun i => st.readWord cx.src.tick (st.vecIx (d + i) lane)
  match ws.find? MWord.mark with
  | some w => .error w.data
  | none => .ok ((List.range (n / 2)).map fun i => join32 (ws.getD (2 * i) default).data (ws.getD (2 * i + 1) default).data)

/-- An address that must be aligned to 16 (R332). -/
def aligned16 (a : Dword) : Except Dword Dword := if a.toNat % 16 = 0 then .ok a else .error a

/-- STV (R335): a poisoned data word places a poison entry, and nothing is written for the lane (R330). -/
def execStv (h : Hdr) (b : MemBody) (s : State) : Out :=
  let n := Check.vCount b
  s.issueMem (legal (.stv h b)) h b (eaUses h b true ++ opUse b.data n h.luc true) false (4 * n) (isRel b) fun s cx =>
    let (s, hs) := s.storeLanes cx b (lanesOf cx.act) 8 aligned16 (cx.regPairs (Check.vecNum b.data) n)
    (s, hs, .next)

/-- STZ (R335). -/
def execStz (h : Hdr) (b : MemBody) (s : State) : Out :=
  s.issueMem (legal (.stz h b)) h b (eaUses h b true) false (memSize b) (isRel b) fun s cx =>
    let (s, hs) := s.storeLanes cx b (lanesOf cx.act) (memSize b) .ok fun _ => .ok [0]
    (s, hs, .next)

/-- STZ.LINE: sixteen 8-byte accesses over the whole line (R335). -/
def execStzLine (h : Hdr) (b : MemBody) (s : State) : Out :=
  s.issueMem (legal (.stzLine h b)) h b (eaUses h b true) false 4 (isRel b) fun s cx =>
    let (s, hs) := s.storeLanes cx b (lanesOf cx.act) 8 (fun a => .ok (a &&& 0xFFFFFFFFFFFFFF80))
      fun _ => .ok (List.replicate 16 0)
    (s, hs, .next)

/-! ### Cache maintenance (R336) -/

/-- Write back a line that a core's L1 holds as written: L2 and memory hold it so then (R227). -/
def State.cleanL1 (s : State) (k : Nat) (l : Loc) : State :=
  if s.oldLines.any fun o => o.core == k && o.loc == l.align lineBytes then s.lineClean l else s

/-- Write back what a core's L1, and at scopes that reach memory its cluster's L2, hold of a line; drop the cluster's copy of a
software-managed one (R336). -/
def State.cacheLine (s : State) (k : Nat) (scope : BitVec 3) (drop : Bool) (p : Place) : State :=
  let s := s.cleanL1 k p.loc
  if !p.sm || scope.toNat < 5 then s
  else
    let s := match s.smCopy (k / 128) p.loc with
      | some c => s.writeBack c
      | none => s
    if drop then s.dropCopy (k / 128) p.loc else s

/-- What lanes of a fragment have written on a line is seen by every agent. -/
def State.showLanesLine (s : State) (sid : Nat) (m : Lanes) (l : Loc) : State :=
  if s.lags.isEmpty then s
  else
    let at_ := (s.plainLoc l).align lineBytes
    { s with lags := s.lags.filter fun g => !(g.writer.1 == sid && m.getLsbD g.writer.2 && g.loc.align lineBytes == at_) }

/-- A maintenance form follows every earlier access of the fragment to the lines it names (R336): one is still to be performed. -/
def State.cacheWaits (s : State) (cx : Cx) (b : MemBody) : Bool :=
  let us := (s.unperformed cx.sid).filter fun x => 128 ≤ x.lane || cx.frag.mask.getLsbD x.lane
  !us.isEmpty && (lanesOf cx.act).any fun l =>
    match cx.src.ea cx.sid l b false with
    | .error _ => false
    | .ok a =>
      match (s.locate cx.sid a).2 with
      | none => false
      | some p => us.any fun x => (x.acq && x.place.ord != 2) || x.place.loc.align lineBytes == p.loc.align lineBytes

/-- The three forms: each lane's line; an address that does not translate does nothing; a poisoned one places a poison
entry (R330, R336). -/
def State.cacheOp (s : State) (cx : Cx) (b : MemBody) (drop : Bool) : State × List Hold :=
  let r := (lanesOf cx.act).foldl (fun (acc : State × List (Nat × Eff)) l =>
    match cx.src.ea cx.sid l b false with
    | .error t => (acc.1, acc.2 ++ [(l, .tok t)])
    | .ok a =>
      match acc.1.locate cx.sid a with
      | (s, some p) => ((s.showLanesLine cx.sid cx.frag.mask p.loc).cacheLine (s.coreOf cx.sid) b.scope drop p, acc.2)
      | (s, none) => (s, acc.2)) (s, [])
  let (s, hs) := r.1.settleEff cx.sid cx.pc r.2
  (s.clearEvent cx.sid (memSpecials b), hs)

/-- A maintenance form. -/
def State.cacheForm (s : State) (legal : Bool) (h : Hdr) (b : MemBody) (drop : Bool) : Out :=
  s.issue legal h (eaUses h b true) fun s cx =>
    if s.cacheWaits cx b then (s, [], .stall)
    else
      let (s, hs) := s.cacheOp cx b drop
      (s, hs, .next)

/-- CWB (R336). -/
def execCwb (h : Hdr) (b : MemBody) (s : State) : Out :=
  s.cacheForm (legal (.cwb h b)) h b false

/-- CFLUSH (R336). -/
def execCflush (h : Hdr) (b : MemBody) (s : State) : Out :=
  s.cacheForm (legal (.cflush h b)) h b true

/-- CINV: dirty bytes are written back before the line goes (R336). -/
def execCinv (h : Hdr) (b : MemBody) (s : State) : Out :=
  s.cacheForm (legal (.cinv h b)) h b true

end Sys2Proof.Machine
end

