-- ==== Sys2Proof/Machine/Tiles.lean ====
section
/-! DEFINITION. Tiles: descriptors (R338), footprints and failures (R177, R180), the tile table (R163, R164), the meanings of TDEF, TLD, TSTR,
TREL and TQRY (R337 to R340), and how their transfers end. -/
namespace Sys2Proof.Machine

/-! ### Descriptors (R338) -/

def tilePitch (d : Dword) : Nat := fld d 48 16
def tileRowBytes (d : Dword) : Nat := fld d 32 16
def tileRows (d : Dword) : Nat := fld d 26 6 + 1
def tileSoff (d : Dword) : Nat := fld d 0 20
def tileBytes (d : Dword) : Nat := tileRows d * tileRowBytes d

/-- Row size, row count and pitch within R177, pitch alignment aside. -/
def tileShapeOk (d : Dword) : Bool :=
  let n := tileRows d
  let b := tileRowBytes d
  b % 16 == 0 && 16 ≤ b && b ≤ 8192 && n * b ≤ 8192 && (n == 1 || b ≤ tilePitch d)

/-- A breach other than pitch alignment alone: cause 0x0D. -/
def tileBroken (d : Dword) (spad : Nat) : Bool :=
  fld d 20 6 != 0 || tileSoff d % 16 != 0 || spad < tileSoff d + tileBytes d || !tileShapeOk d

/-- The cause of a definition kept with BAD = 1 (R180, R338). -/
def tileDefect (d : Dword) (spad : Nat) : Option (BitVec 8) :=
  if tileBroken d spad then some 0x0D else if tilePitch d % 16 != 0 then some 0x0C else none

/-- The entry of a block's tile table; an unlisted entry is empty (R163). -/
def Block.tile (b : Block) (e : Nat) : TileEntry := (aget b.tiles e).getD ⟨.empty, 0, false⟩

def State.tileAt (s : State) (blk e : Nat) : TileEntry := (s.block blk).tile e

def State.setTile (s : State) (blk e : Nat) (t : TileEntry) : State :=
  s.modBlock blk fun b => { b with tiles := aputD ⟨.empty, 0, false⟩ b.tiles e t }

/-- Move an entry to a state, when it is not empty. -/
def State.tileState (s : State) (blk e : Nat) (st : TileState) : State :=
  let t := s.tileAt blk e
  if t.st == .empty then s else s.setTile blk e { t with st := st }

/-- The entry is filling or draining: what names it waits (R164). -/
def State.tileBusy (s : State) (blk e : Nat) : Bool :=
  let st := (s.tileAt blk e).st
  st == .filling || st == .draining

/-! ### Footprint (R177, R180) -/

/-- Generic addresses of a tile's words in address order: row r starts at address + r × P. -/
def tileAddrs (d a : Dword) : List Dword :=
  (List.range (tileRows d)).flatMap fun r =>
    (List.range (tileRowBytes d / 4)).map fun i => a + BitVec.ofNat 64 (r * tilePitch d + 4 * i)

/-- The 128-byte lines any row touches, in address order. -/
def tileLines (d a : Dword) : List Dword :=
  ((List.range (tileRows d)).flatMap fun r =>
    let lo := (a + BitVec.ofNat 64 (r * tilePitch d)).toNat
    let first := lo / 128
    (List.range ((lo + tileRowBytes d - 1) / 128 - first + 1)).map fun i => BitVec.ofNat 64 ((first + i) * 128)).eraseDups

/-- The device whose memory a location lies in: none for host memory. -/
def locDevice : Loc → Option (Option Nat)
  | .host _ => none
  | .rem d _ => some (some d)
  | _ => some none

/-- Where the lowest line of a tile lies in another device's memory that no copy in a cluster serves. -/
def tileRemote (ps : List Place) : Option Loc :=
  let p := ps.foldl (fun m x => if x.loc.off < m.loc.off then x else m) (ps.headD default)
  if p.loc.remote && !p.sm then some p.loc else none

/-- The places of a footprint's lines, or the cause of R180's first row that holds. One request carries the tile, by the station of its
lowest line alone (R465). -/
def State.tileLinePlaces (s : State) (who : Who) (kind : AccessKind) (ls : List Dword) :
    State × Except (BitVec 8) (List (Dword × Place)) :=
  let r := ls.foldl (fun (acc : State × List (Dword × Except (BitVec 8) Place)) l =>
    let (t, p) := { acc.1 with downStns := [] }.translate who kind l
    ({ t with downStns := s.downStns }, acc.2 ++ [(l, p)])) (s, [])
  let good := r.2.filterMap fun x => match x.2 with | .ok p => some (x.1, p) | .error _ => none
  let devs := good.map fun x => locDevice x.2.loc
  if devs.any fun d => d.isNone || d != devs.headD none then (r.1, .error 0x0D)
  else
    match r.2.findSome? fun x => match x.2 with | .error c => some c | .ok _ => none with
    | some c => (r.1, .error c)
    | none =>
      match tileRemote (good.map (·.2)) with
      | some l => (r.1, if (r.1.stationOf l).isNone then .error 0x17 else .ok good)
      | none => (r.1, .ok good)

/-- The places of a tile's words: a tile that straddles page kinds is performed at the home of its lines (R167). -/
def State.tilePlaces (s : State) (who : Who) (kind : AccessKind) (d a : Dword) :
    State × Except (BitVec 8) (List (Dword × Place)) :=
  if a.toNat % 16 != 0 then (s, .error 0x0C)
  else
    let ls := tileLines d a
    if 64 < ls.length then (s, .error 0x0B)
    else
      match s.tileLinePlaces who kind ls with
      | (s, .error c) => (s, .error c)
      | (s, .ok ps) =>
        let mixed := ps.any fun p => p.2.sm != (ps.headD default).2.sm || p.2.ord != (ps.headD default).2.ord
        (s, .ok ((tileAddrs d a).filterMap fun w =>
          (ps.find? fun p => p.1 == w &&& 0xFFFFFFFFFFFFFF80).map fun p =>
            let q := placeAdd p.2 (w.toNat % 128)
            (w, if mixed then { q with sm := false } else q)))

/-! ### The scratchpad side -/

/-- The locations of a tile's words in its block's partition. -/
def State.tileSpad (s : State) (blk : Nat) (d : Dword) : List Loc :=
  let a := tileSoff d / 4
  let z := min ((tileSoff d + tileBytes d + 3) / 4) ((s.block blk).spadBytes / 4)
  (List.range (z - a)).map fun i => .spad blk (4 * (a + i))

/-- Write words into a tile's rows. -/
def State.fillTile (s : State) (blk : Nat) (d : Dword) (ws : List MWord) : State :=
  ((s.tileSpad blk d).zip ws).foldl (fun s x => s.putW x.1 15 x.2) s

/-- Give every word of a tile one token (R180). -/
def State.poisonTile (s : State) (blk : Nat) (d : Dword) (t : Word) : State :=
  (s.tileSpad blk d).foldl (fun s l => s.putW l 15 ⟨t, true⟩) s

/-! ### Meanings -/

def tileNo (b : MemBody) : Nat := (b.off.extractLsb' 0 6).toNat

/-- EA of a tile form: BASE + (INDEX << SHIFT) (R337). -/
def Cx.tileEa (cx : Cx) (b : MemBody) : Except Word Dword := cx.src.ea cx.sid cx.once { b with off := 0 } false

/-- Place poison entries for one effect. -/
def State.poisonEffect (s : State) (cx : Cx) (e : Eff) : State × List Hold :=
  match e with
  | .trap c a => (s, (lanesOf cx.act).map fun l => ⟨l, c, a⟩)
  | e =>
    let (s, hs) := s.settleEff cx.sid cx.pc [(cx.once, e)]
    (s, hs.flatMap fun h => (lanesOf cx.act).map fun l => { h with lane := l })

/-- Consecutive doubleword stores of the fragment, once; a store that traps ends them and holds every active lane. -/
def State.storeDwords (s : State) (cx : Cx) (a : Dword) (ds : List Dword) : State × List Hold :=
  let r := (ds.zipIdx).foldl (fun (acc : State × List (Nat × Eff)) d =>
    if acc.2.any fun e => match e.2 with | .trap .. => true | _ => false then acc
    else
      let at_ := a + BitVec.ofNat 64 (8 * d.2)
      let (s, e) := acc.1.store cx.sid ⟨cx.once, cx.pc, at_, cx.act⟩ at_ 8 d.1 false 0 false
      (s, acc.2 ++ [(cx.once, e)])) (s, [])
  let (s, hs) := r.1.settleEff cx.sid cx.pc r.2
  (s, hs.flatMap fun h => (lanesOf cx.act).map fun l => { h with lane := l })

/-- TDEF (R338). -/
def execTdef (h : Hdr) (b : MemBody) (s : State) : Out :=
  s.issue (legal (.tdef h b)) h (opUse b.data 1 h.luc true) fun s cx =>
    let blk := (s.strand cx.sid).blk
    if s.tileBusy blk (tileNo b) then (s, [], .stall)
    else
      let d := cx.src.readOp cx.sid cx.once true b.data
      match d.tok with
      | some t =>
        let (s, hs) := s.poisonEffect cx (.tok t)
        (s, hs, .next)
      | none =>
        (s.setTile blk (tileNo b) ⟨.ready, d.v, (tileDefect d.v (s.block blk).spadBytes).isSome⟩, [], .next)

/-- Read the words of a tile's memory side for a strand, with its held bytes on top (R339). -/
def State.readTile (s : State) (sid : Nat) (ps : List (Dword × Place)) : State × List MWord :=
  ps.foldl (fun (acc : State × List MWord) p =>
    let s := acc.1.drainAt sid p.2.loc
    let (s, w) := s.readW (s.whoOf sid) p.2
    let (d, m, hm) := (s.strand sid).heldOver p.2.loc w.data
    (s, acc.2 ++ [if w.mark && m != 15 then w else ⟨d, hm⟩])) (s, [])

/-- A token for a tile's failure (R128). -/
def State.tileToken (s : State) (cx : Cx) (cause : BitVec 8) (addr : Dword) : State × Word :=
  s.record cx.sid (dataRec cause 0x03 cx.pc addr (some cx.once))

/-- A tile transaction with another device leaves as one request; none without a path (R189, R465). -/
def State.sendTile (s : State) (t : TileOp) : Option State :=
  match tileRemote t.places with
  | some l => s.sendTo l (.tile t)
  | none => some s

/-- The tile fill of an issued TLD. -/
def State.startFill (s : State) (cx : Cx) (b : MemBody) (d a : Dword) (ws : List MWord) (ps : List Place) : State :=
  let blk := (s.strand cx.sid).blk
  let op : TileOp := ⟨cx.sid, cx.idx, blk, tileNo b, true, cx.pc, a, b.scope, d, ws, ps⟩
  let s := s.tileState blk (tileNo b) .filling
  (({ s with tileOps := s.tileOps ++ [op] } : State).sendTile op).getD { s with tileOps := s.tileOps ++ [op] }

/-- A tile access must follow an access of the fragment that has not been performed (R169, R170). -/
def State.tileWaits (s : State) (cx : Cx) (ps : List Place) (rel : Bool) : Bool :=
  let us := s.unperformed cx.sid
  !us.isEmpty && ps.any fun p => us.any (mustFollow 128 p rel)

/-- TLD (R339): the memory side is read at issue as one event; the rows are written when the fill ends. -/
def execTld (h : Hdr) (b : MemBody) (s : State) : Out :=
  s.issue (legal (.tld h b)) h (eaUses h b false) fun s cx =>
    let blk := (s.strand cx.sid).blk
    let e := s.tileAt blk (tileNo b)
    let words (s : State) (w : MWord) : List MWord := (s.tileSpad blk e.desc).map fun _ => w
    if s.tileBusy blk (tileNo b) then (s, [], .stall)
    else
      match cx.tileEa b with
      | .error t =>
        if e.st == .empty then
          let (s, hs) := s.poisonEffect cx (.tok t)
          (s, hs, .next)
        else (s.startFill cx b e.desc 0 (words s ⟨t, true⟩) [], [], .next)
      | .ok a =>
        if e.st == .empty then
          let (s, hs) := s.poisonEffect cx (.bad 0x0E 0x03 a)
          (s, hs, .next)
        else
          let fail (s : State) (c : BitVec 8) : State × List Hold × Go :=
            let (s, t) := s.tileToken cx c a
            (s.startFill cx b e.desc a (words s ⟨t, true⟩) [], [], .next)
          match tileDefect e.desc (s.block blk).spadBytes with
          | some c => fail s c
          | none =>
            match s.tilePlaces (s.whoOf cx.sid) .read e.desc a with
            | (s, .error c) => fail s c
            | (s, .ok ps) =>
              if s.tileWaits cx (ps.map (·.2)) false then (s, [], .stall)
              else
                let (s, ws) := s.readTile cx.sid ps
                (s.startFill cx b e.desc a ws (if (tileRemote (ps.map (·.2))).isSome then ps.map (·.2) else []), [], .next)

/-- Hold a tile store in the locket as one entry group (R138); a trap when it does not fit or hits a live-in register. -/
def State.holdTile (s : State) (cx : Cx) (b : MemBody) (rows : Nat) (ws : List ((Dword × Place) × MWord)) : State × Eff :=
  let a := (ws.headD default).1.1
  if ws.any fun w => s.hitsLiveIn cx.sid w.1.2.loc 4 then (s, .trap 0x4D a)
  else
    let group := ((s.strand cx.sid).locket.foldl (fun n e => max n (e.tile.getD 0)) 0) + 1
    let e : LkEntry := { (default : LkEntry) with
      pc := cx.pc, lane := cx.once, tag := s.tick, rel := b.ord.getLsbD 1, scope := b.scope, tile := some group
      row := rows == 1 && ws.length == 32 && a.toNat % 128 == 0 }
    let r := ws.foldl (fun (st : Option Strand) w =>
      match st with
      | none => none
      | some st => st.holdWord ((s.setStrand cx.sid st).lkRoom cx.sid) { e with line := w.1.1 } w.1.2 15 w.2)
      (some (s.strand cx.sid))
    match r with
    | some st => (s.setStrand cx.sid st, .done)
    | none => (s, .trap 0x4C a)

/-- TSTR (R340): the rows are read at issue; the memory side is written as one event when the drain ends, or held. -/
def execTstr (h : Hdr) (b : MemBody) (s : State) : Out :=
  s.issue (legal (.tstr h b)) h (eaUses h b true) fun s cx =>
    let blk := (s.strand cx.sid).blk
    let e := s.tileAt blk (tileNo b)
    let poison (s : State) (x : Eff) : State × List Hold × Go :=
      let (s, hs) := s.poisonEffect cx x
      (s, hs, .next)
    if s.tileBusy blk (tileNo b) then (s, [], .stall)
    else
      match cx.tileEa b with
      | .error t => poison s (.tok t)
      | .ok a =>
        if e.st == .empty then poison s (.bad 0x0E 0x03 a)
        else
          match tileDefect e.desc (s.block blk).spadBytes with
          | some c => poison s (.bad c 0x03 a)
          | none =>
            match s.tilePlaces (s.whoOf cx.sid) .write e.desc a with
            | (s, .error c) => poison s (.bad c 0x03 a)
            | (s, .ok ps) =>
             if s.tileWaits cx (ps.map (·.2)) (b.ord.getLsbD 1) then (s, [], .stall)
             else
              let s := if b.ord.getLsbD 1 then s.showLanes cx.sid cx.frag.mask else s
              let (s, ws) := s.readTile cx.sid ((s.tileSpad blk e.desc).map fun l => (0, ⟨l, 1, false⟩))
              match ws.find? MWord.mark with
              | some w => poison s (.tok w.data)
              | none =>
                let open_ := (s.strand cx.sid).regionOpen
                let op : TileOp := ⟨cx.sid, cx.idx, blk, tileNo b, false, cx.pc, a, b.scope, e.desc,
                  if open_ then [] else ws, if open_ then [] else ps.map (·.2)⟩
                let begin_ (s : State) : State :=
                  { s.tileState blk (tileNo b) .draining with tileOps := s.tileOps ++ [op] }
                if open_ then
                  match s.holdTile cx b (tileRows e.desc) (ps.zip ws) with
                  | (s, .done) => (begin_ s, [], .next)
                  | (s, x) => poison s x
                else (begin_ s, [], .next)

/-- TREL makes the entry empty (R163, R340). -/
def execTrel (h : Hdr) (b : MemBody) (s : State) : Out :=
  s.issue (legal (.trel h b)) h [] fun s cx =>
    let blk := (s.strand cx.sid).blk
    if s.tileBusy blk (tileNo b) then (s, [], .stall)
    else (s.setTile blk (tileNo b) ⟨.empty, 0, false⟩, [], .next)

/-- The code of a tile's state (R338). -/
def tileStateCode : TileState → Nat
  | .empty => 0
  | .filling => 1
  | .ready => 2
  | .draining => 3

/-- What TQRY reads of an entry: the descriptor with STATE and BAD filled in; an empty entry reads as 0 (R338). -/
def tileWord (e : TileEntry) : Dword :=
  if e.st == .empty then 0
  else setFld e.desc 20 6 (16 * tileStateCode e.st + b2n e.bad)

/-- TQRY issues in every state of the entry (R338). -/
def execTqry (h : Hdr) (b : MemBody) (s : State) : Out :=
  s.issue (legal (.tqry h b)) h (scDest h.dest 1) fun s cx =>
    let e := s.tileAt (s.strand cx.sid).blk (tileNo b)
    let (s, hs) := s.putScalarDest cx h.dest (res64 (tileWord e))
    (s, hs, .next)

/-! ### How transfers end (R163, R180, R339, R340) -/

/-- Take a transfer off the list, and its request to another device with it. -/
def State.dropTileOp (s : State) (t : TileOp) : State :=
  { s with
    tileOps := s.tileOps.erase t
    outReqs := s.outReqs.filter fun q => q.what != .tile t }

/-- The entry of a transfer that is under way is ready again. -/
def State.tileDone (s : State) (t : TileOp) : State :=
  if s.tileOps.contains t then (s.dropTileOp t).tileState t.blk t.entry .ready else s.dropTileOp t

/-- A fill ends: the rows are written and the entry is ready (R163, R339). -/
def State.fillDone (s : State) (t : TileOp) : State := (s.fillTile t.blk t.desc t.data).tileDone t

/-- The words of a tile row as doublewords. -/
def wordPairs : List MWord → List Dword
  | a :: b :: r => join32 a.data b.data :: wordPairs r
  | _ => []

/-- The tile is one row of 128 bytes on a post window's own boundary. -/
def tileIsPost (t : TileOp) : Bool :=
  t.places.length == 32 && (t.places.headD default).loc.off % 128 == 0 && tileRows t.desc == 1

/-- The post window at a location of another device's map, which is as this one's (R378, R410). -/
def State.awayWindow (s : State) (l : Loc) : Option Nat :=
  match l with
  | .rem _ pa => (s.physLoc pa).bind postWindow
  | _ => none

/-- A transfer fails after issue: a load's tile takes the token; a store places a poison entry and writes nothing (R180). -/
def State.tileFail (s : State) (t : TileOp) (cause : BitVec 8) : State :=
  let (s, tok) := s.record t.sid (dataRec cause 0x03 t.pc t.addr (((s.strand t.sid).frag? t.frag).bind fun f => lowest f.mask))
  if t.load then (s.poisonTile t.blk t.desc tok).tileDone t
  else
    let (s, hs) := s.poisonEntries t.sid t.pc [(0, tok)]
    let lanes := match (s.strand t.sid).frag? t.frag with | some f => f.mask | none => 0
    let s := if hs.isEmpty then s else s.hold t.sid t.frag t.pc ((lanesOf lanes).map fun l => ⟨l, 0x4C, t.addr⟩)
    s.tileDone t

/-- A tile store leaves for another device (R189, R463, R465): the entry is ready, and the memory is written as its home performs the
request. -/
def State.drainAway (s : State) (t : TileOp) (l : Loc) : State :=
  match (s.tileDone t).sendTo l (.tile t) with
  | some s => s
  | none => s.tileFail t 0x17

/-- Write the memory side of a tile store here: one row of 128 bytes into a post window posts a packet, and what else meets a window is
discarded and counted, once for each (R406). -/
def State.writeTile (s : State) (t : TileOp) : State :=
  let qs := (t.places.filterMap fun p => postWindow p.loc).eraseDups
  let s := if tileIsPost t && !qs.isEmpty then s.post ⟨qs.headD 0, false, s.did, wordPairs t.data⟩ else qs.foldl State.dropPost s
  (t.places.zip t.data).foldl (fun (s : State) (x : Place × MWord) =>
    if (postWindow x.1.loc).isSome then s else s.writeW (s.whoOf t.sid) x.1 15 x.2) s

/-- A drain ends: the memory side is written as one event (R163, R340). -/
def State.drainDone (s : State) (t : TileOp) : State :=
  match tileRemote t.places with
  | some l => s.drainAway t l
  | none => (s.writeTile t).tileDone t

/-- TILE_FILL_COMPLETE (R163). -/
def execTileFillComplete (t : TileOp) (s : State) : Out := .next (s.fillDone t)

/-- TILE_DRAIN_COMPLETE (R163). -/
def execTileDrainComplete (t : TileOp) (s : State) : Out := .next (s.drainDone t)

/-- TILE_LOCK_TIMEOUT: a home lock was not granted within 100 µs (R180). -/
def execTileLockTimeout (t : TileOp) (s : State) : Out :=
  .next (s.tileFail t 0x3D)

end Sys2Proof.Machine
end

