-- ==== Sys2Proof/Machine/Homes.lean ====
section
/-! DEFINITION. Homes (R185): where an address is served, how requests leave for another device (R189, R465), and forming the operation
packets of group 0xA (R341 to R343). -/
namespace Sys2Proof.Machine

/-! ### Homes (R185) -/

/-- Packets a slice's request queue holds (R186). -/
def homeQueue : Nat := 512

/-- Packets in the queues of the homes of a list of packets, that list among them, are no more than each holds (R186). -/
def State.homesHold (s : State) (ps : List Packet) : Bool :=
  ps.all fun p => ((s.packets ++ ps).filter fun q => s.homeOf q.place.loc == s.homeOf p.place.loc).length ≤ homeQueue

/-- The request queue of a location's home is full (R186). -/
def State.homeFull (s : State) (l : Loc) : Bool :=
  homeQueue ≤ (s.packets.filter fun p => s.homeOf p.place.loc == s.homeOf l).length

/-! ### Requests to another device (R189, R465) -/

/-- The image words of a scalar destination. -/
def Strand.scalarWords (st : Strand) (d : BitVec 8) : List Nat :=
  let i := if d = specDEADLINE then st.ctlIx ctlDLINE else st.scIx d.toNat
  [i, i + 1]

/-- The answer to an arrival is on its way to its destination (R346). -/
def State.answerArrival (s : State) (a : Arrival) (v : ReplyVal) : State :=
  match aget s.strands a.sid with
  | none => s
  | some st =>
    { s with replies := s.replies ++ [⟨a.sid, a.frag, a.lane, a.pc, st.scalarWords a.dest, a.tag, v, a.va, a.act, a.place.loc⟩] }

/-- Give a packet to its home: a local request queue, or a station of the fabric; with every path down the requester takes
0x17 (R465). -/
def State.sendPacket (s : State) (p : Packet) : State :=
  if p.place.loc.remote then
    match s.sendTo p.place.loc (.packet p) with
    | some s => s
    | none =>
      match p.src with
      | .strand sid frag lane pc dest tag =>
        { s with replies := s.replies ++ [⟨sid, frag, lane, pc, dest, tag, .bad 0x17 0x0C p.va, p.va, p.act, p.place.loc⟩] }
      | _ => s.replyTo p (.bad 0x17 0x0C p.va)
  else { s with packets := s.packets ++ [p] }

/-- A request fails: its lane receives poison in the return slot, or for an effect without a reply in the locket; a tile fails as a
whole (R180, R189). -/
def State.failReq (s : State) (q : OutReq) (c : BitVec 8) : State :=
  let s := { s with outReqs := s.outReqs.erase q }
  match q.what with
  | .tile t => s.tileFail t c
  | .store w =>
    (match w.sid with
     | some sid => s.lateEntry sid w.tag w.lane w.pc c w.origin w.va
     | none => s)
  | .arrival a => s.answerArrival a (.bad c 0x0C a.va)
  | .home o => s.lateEntry o.sid o.tag 0 o.pc c o.origin o.va
  | .packet p =>
    match p.src, p.noreply with
    | .strand sid _ lane pc _ tag, true => s.lateEntry sid tag lane pc c 0x0C p.va
    | _, _ => s.replyTo p (.bad c 0x0C p.va)

/-! ### Forming packets (R341, R342) -/

/-- What a form of group 0xA is: performed once, the number of operands, an extension packet, no reply, the read-only
routine that needs no write permission, and CAS4's operands. -/
structure AtomForm where
  once : Bool
  ops : Nat
  ext : Bool
  noreply : Bool
  readOnly : Bool
  four : Bool

/-- The routine that an instruction of group 0xA names. -/
def rtnOf (b : MemBody) : BitVec 8 := b.off.extractLsb' 12 8

/-- The reply to a scalar is four words: that of routine 0x19 (R188). -/
def AtomForm.fourWords (f : AtomForm) (b : MemBody) : Bool := f.four || (f.once && rtnOf b == 0x19)

/-- Registers of DATA that a form reads, as offsets from C: vectors, in words; scalars. -/
def AtomForm.vecOffs (f : AtomForm) (wide : Bool) : List Nat :=
  List.range (if wide then 2 * f.ops else f.ops) ++ (if f.ext then (List.range 8).map (4 + ·) else [])
def AtomForm.scOffs (f : AtomForm) : List Nat :=
  List.range f.ops ++ (if f.four then [2, 3] else if f.ext then [2, 3, 4, 5] else [])

/-- The operands of a lane's packet: OP0, OP1 and the extension; or the first poisoned word's token. -/
def State.packetOps (s : State) (sid lane : Nat) (b : MemBody) (f : AtomForm) :
    Except Word (Dword × Dword × List Dword) :=
  let wide := b.size == 3
  match b.data with
  | .sc n =>
    let vs := f.scOffs.map fun i => (i, s.readOp sid lane true (.sc (n + BitVec.ofNat 6 i)))
    (match vs.findSome? fun v => v.2.tok with
     | some t => .error t
     | none =>
       let g (i : Nat) : Dword := ((vs.find? fun v => v.1 == i).map fun v => v.2.v).getD 0
       .ok (g 0, g 1, if f.four then [g 2, g 3, 0, 0] else if f.ext then [g 2, g 3, g 4, g 5] else []))
  | .vec n =>
    let st := s.strand sid
    let ws := (f.vecOffs wide).map fun i => (i, st.readWord s.tick (st.vecIx (n.toNat + i) lane))
    (match ws.find? fun w => w.2.mark with
     | some w => .error w.2.data
     | none =>
       let g (i : Nat) : Word := ((ws.find? fun w => w.1 == i).map fun w => w.2.data).getD 0
       let pair (i : Nat) : Dword := join32 (g i) (g (i + 1))
       .ok (if wide then pair 0 else join32 (g 0) 0, if wide then pair 2 else join32 (g 1) 0,
         if f.ext then [pair 4, pair 6, pair 8, pair 10] else []))
  | _ => .ok (0, 0, [])

/-- The image words a reply to a lane fills (R342, R188): for $deadline the doubleword that holds it. -/
def replyWords (st : Strand) (f : AtomForm) (b : MemBody) (d : BitVec 8) (lane : Nat) : List Nat :=
  let wide := b.size == 3
  if f.noreply then []
  else if f.once then
    if d = specDEADLINE then [st.ctlIx ctlDLINE, st.ctlIx ctlDLINE + 1]
    else (List.range (if f.fourWords b then 4 else 2)).map fun i => st.scIx d.toNat + i
  else if wide then [st.vecIx d.toNat lane, st.vecIx (d.toNat + 1) lane] else [st.vecIx d.toNat lane]

/-- The footprint of a routine at an address: first byte and length (R343). -/
def footprint (rtn : Nat) (wide : Bool) (a : Nat) : Nat × Nat :=
  if rtn = 0x19 || rtn = 0x1A then (a, 16)
  else if rtn = 0x1B then (a, 8)
  else if rtn = 0x1C then (a / 128 * 128, 128)
  else (a, if wide then 8 else 4)

/-- Two footprints share a byte. -/
def fpMeet (x y : Nat × Nat) : Bool := x.1 < y.1 + y.2 && y.1 < x.1 + x.2

/-- The lanes of duplicate sets among lanes with their footprints (R343). -/
def duplicates (fps : List (Nat × (Nat × Nat))) : List Nat :=
  (fps.filter fun x => fps.any fun y => y.1 != x.1 && fpMeet x.2 y.2).map (·.1)

/-- What becomes of one lane: a packet, a value for its destination and whether a poison entry goes with it, or a trap. -/
inductive LaneOp where
  | send (p : Packet)
  | stop (entry : Bool) (v : ReplyVal)
  | trap (cause : BitVec 8) (addr : Dword)
  deriving DecidableEq, Repr

/-- Translate for a packet: read and write permission, or read alone (R155). -/
def State.packetPlace (s : State) (who : Who) (readOnly : Bool) (a : Dword) : State × Except (BitVec 8) Place :=
  match s.translate who .read a with
  | (s, .error c) => (s, .error c)
  | (s, .ok p) =>
    if readOnly then (s, .ok p)
    else s.translate who .write a

/-- Settle the lanes that send nothing: poison entries, then destination tokens, but for the lanes that found no room for their
entry, whose trap changes nothing else (R148, R155, R342, R343). -/
def State.stopLanes (s : State) (cx : Cx) (dest : Nat → List Nat) (deadline : Bool)
    (xs : List (Nat × Bool × ReplyVal)) : State × List Hold :=
  let rs := xs.map fun x => (some x.1, x.2.2)
  let (s, vs) := s.settle cx.sid cx.pc rs
  let s := s.shareTokens cx.sid s.tick rs vs
  let ys := xs.zip vs
  let (s, hs) := s.poisonEntries cx.sid cx.pc (ys.filterMap fun y =>
    match y.1.2.1, y.2.2 with
    | true, .tok t => some (y.1.1, t)
    | _, _ => none)
  let s := ys.foldl (fun s y =>
    match y.2.2 with
    | .tok t =>
      if deadline || hs.any (fun h => h.lane == y.1.1) then s
      else (dest y.1.1).foldl (fun s i => s.wrImg cx.sid i ⟨t, true⟩) s
    | _ => s) s
  (s, if deadline && !xs.isEmpty then hs ++ (lanesOf cx.act).map fun l => ⟨l, 0x47, 0⟩ else hs)

/-- The uses of DATA. -/
def dataUses (h : Hdr) (b : MemBody) (f : AtomForm) : List Use :=
  match b.data with
  | .vec n => (f.vecOffs (b.size == 3)).map fun i => ⟨.vec, n.toNat + i, 1, false, h.luc, true, 15⟩
  | .sc n => f.scOffs.map fun i => ⟨.sc, n.toNat + i, 1, false, h.luc, true, 15⟩
  | _ => []

/-- The uses of a reply's destination. -/
def replyUses (h : Hdr) (b : MemBody) (f : AtomForm) : List Use :=
  if f.noreply then []
  else if f.once then scDest h.dest (if f.fourWords b then 2 else 1)
  else [vecDest h.dest (if b.size = 3 then 2 else 1)]

/-- The lanes of a form: one for the whole fragment, or each active lane. -/
def Cx.atomLanes (cx : Cx) (f : AtomForm) : List Nat := if f.once then [cx.once] else lanesOf cx.act

/-- The lanes of duplicate sets among the lanes of an instruction whose addresses are not poisoned (R343). -/
def Cx.atomDups (cx : Cx) (b : MemBody) (f : AtomForm) : List Nat :=
  duplicates ((cx.atomLanes f).filterMap fun l =>
    match cx.src.ea cx.sid l b true with
    | .ok a => some (l, footprint (rtnOf b).toNat (b.size == 3) a.toNat)
    | .error _ => none)

/-- The packet of a lane, to its place. -/
def Cx.packet (cx : Cx) (st : Strand) (h : Hdr) (b : MemBody) (f : AtomForm) (lane : Nat) (a : Dword) (p : Place)
    (o : Dword × Dword × List Dword) : Packet :=
  let dest := replyWords st f b h.dest lane
  ⟨.strand cx.sid cx.idx lane cx.pc dest cx.src.tick, rtnOf b, a, p, o.1, o.2.1, b.scope, b.size == 3, f.noreply,
    b.ord.getLsbD 0, b.ord.getLsbD 1, f.ext,
    match dest with | w :: _ => st.wordVa w &&& 0x00FFFFFFFFFFFFFF | [] => 0, o.2.2, cx.act, none⟩

/-- What becomes of a lane: poison of its address, of its operands, a duplicate, a place that may not be reached, or a
packet; the strand's registers are as `st` has them, and `dups` are the lanes of duplicate sets (R155, R342, R343). -/
def State.atomLane (s : State) (cx : Cx) (st : Strand) (h : Hdr) (b : MemBody) (f : AtomForm) (dups : List Nat)
    (lane : Nat) : State × LaneOp :=
  match cx.src.ea cx.sid lane b true, cx.src.packetOps cx.sid lane b f with
  | .error t, _ => (s, .stop true (.tok t))
  | .ok _, .error t => (s, .stop true (.tok t))
  | .ok a, .ok o =>
    if dups.contains lane then (s, .stop f.noreply (.bad 0x30 0x02 a))
    else
      match s.packetPlace (s.whoOf cx.sid) f.readOnly a with
      | (s, .error c) => (s, .stop true (.bad c 0x02 a))
      | (s, .ok p) =>
        let (_, len) := footprint (rtnOf b).toNat (b.size == 3) a.toNat
        let at_ := if len = 128 then p.loc.align 128 else p.loc
        if st.regionOpen && !f.readOnly && s.hitsLiveIn cx.sid at_ len then (s, .trap 0x4D a)
        else (s, .send (cx.packet st h b f lane a p o))

/-- What becomes of every lane. -/
def State.atomOps (s : State) (cx : Cx) (h : Hdr) (b : MemBody) (f : AtomForm) : State × List (Nat × LaneOp) :=
  let dups := cx.atomDups b f
  (cx.atomLanes f).foldl (fun (acc : State × List (Nat × LaneOp)) l =>
    let (t, o) := acc.1.atomLane cx (s.strand cx.sid) h b f dups l
    (t, acc.2 ++ [(l, o)])) (s, [])

/-- The packets, and the lanes that send none. -/
def sentPackets (l : List (Nat × LaneOp)) : List Packet := l.filterMap fun x => match x.2 with | .send p => some p | _ => none
def stoppedLanes (l : List (Nat × LaneOp)) : List (Nat × Bool × ReplyVal) :=
  l.filterMap fun x => match x.2 with | .stop e v => some (x.1, e, v) | _ => none

/-- The lanes that send one. -/
def sentLanes (l : List (Nat × LaneOp)) : List Nat := l.filterMap fun x => match x.2 with | .send _ => some x.1 | _ => none

/-- The lanes that take a trap. -/
def trappedLanes (l : List (Nat × LaneOp)) : List Hold :=
  l.filterMap fun x => match x.2 with | .trap c a => some ⟨x.1, c, a⟩ | _ => none

/-- What a fragment's release waits for and shows (R172). -/
def State.released (s : State) (cx : Cx) (b : MemBody) : State := if isRel b then s.showLanes cx.sid cx.act else s

/-- The effect of an instruction of group 0xA (R342): packets leave for the lanes that may send, and the words of their return
slots are due from then on (R45, R71). -/
def atomEff (h : Hdr) (b : MemBody) (f : AtomForm) (s : State) (cx : Cx) : State × List Hold × Go :=
  let r := s.atomOps cx h b f
  let ps := sentPackets r.2
  if s.mustWait cx b (cx.atomLanes f) true (if b.size = 3 then 8 else 4) (isRel b) || !r.1.homesHold ps then (s, [], .stall)
  else
    let dest := replyWords (s.strand cx.sid) f b h.dest
    let (t, hs) := r.1.stopLanes cx dest (f.once && h.dest == specDEADLINE && !f.noreply) (stoppedLanes r.2)
    let t := (t.clearEvent cx.sid (memSpecials b)).released cx b
    let t := ps.foldl State.sendPacket t
    ((t.awaitWords cx.sid ((sentLanes r.2).flatMap dest) cx.src.tick).endTag cx.sid cx.src.tick, hs ++ trappedLanes r.2, .next)

/-- The register uses of a form. -/
def atomUses (h : Hdr) (b : MemBody) (f : AtomForm) : List Use := eaUses h b true ++ dataUses h b f ++ replyUses h b f

/-- An instruction of group 0xA. -/
def State.atomic (s : State) (i : Instr) (h : Hdr) (b : MemBody) (f : AtomForm) : Out :=
  s.issue (legal i) h (atomUses h b f) (atomEff h b f)

/-! ### Meanings of group 0xA -/

def execAtom (h : Hdr) (b : MemBody) (s : State) : Out := s.atomic (.atom h b) h b ⟨false, 1, false, false, false, false⟩
def execAtoms (h : Hdr) (b : MemBody) (s : State) : Out := s.atomic (.atoms h b) h b ⟨true, 1, false, false, false, false⟩
def execRed (h : Hdr) (b : MemBody) (s : State) : Out := s.atomic (.red h b) h b ⟨false, 1, false, true, false, false⟩
def execReds (h : Hdr) (b : MemBody) (s : State) : Out := s.atomic (.reds h b) h b ⟨true, 1, false, true, false, false⟩
def execCas (h : Hdr) (b : MemBody) (s : State) : Out := s.atomic (.cas h b) h b ⟨false, 2, false, false, false, false⟩
def execCass (h : Hdr) (b : MemBody) (s : State) : Out := s.atomic (.cass h b) h b ⟨true, 2, false, false, false, false⟩
def execCas2 (h : Hdr) (b : MemBody) (s : State) : Out := s.atomic (.cas2 h b) h b ⟨false, 2, false, false, false, false⟩
def execCas4 (h : Hdr) (b : MemBody) (s : State) : Out := s.atomic (.cas4 h b) h b ⟨true, 2, true, false, false, true⟩
def execEnq (h : Hdr) (b : MemBody) (s : State) : Out := s.atomic (.enq h b) h b ⟨false, 2, false, false, false, false⟩
def execChase (h : Hdr) (b : MemBody) (s : State) : Out := s.atomic (.chase h b) h b ⟨false, 2, false, false, true, false⟩
def execCred (h : Hdr) (b : MemBody) (s : State) : Out := s.atomic (.cred h b) h b ⟨false, 2, false, false, false, false⟩
def isChase (b : MemBody) : Bool := b.off.extractLsb' 12 8 == 0x1B
def execOpk (h : Hdr) (b : MemBody) (s : State) : Out := s.atomic (.opk h b) h b ⟨false, 2, false, false, isChase b, false⟩
def execOpkScalar (h : Hdr) (b : MemBody) (s : State) : Out :=
  s.atomic (.opkScalar h b) h b ⟨true, 2, false, false, isChase b, false⟩
def execOpkx (h : Hdr) (b : MemBody) (s : State) : Out := s.atomic (.opkx h b) h b ⟨false, 2, true, false, isChase b, false⟩
def execOpkxScalar (h : Hdr) (b : MemBody) (s : State) : Out :=
  s.atomic (.opkxScalar h b) h b ⟨true, 2, true, false, isChase b, false⟩

end Sys2Proof.Machine
end

