-- ==== Sys2Proof/Machine/Routines.lean ====
section
/-! DEFINITION. The routines of the homes (R186 to R188), installed routines (R479), and replies landing in their return slots (R71). An
event acts on the packet it carries, which leaves its request queue. -/
namespace Sys2Proof.Machine

/-! ### Shared operations -/

/-- A packet leaves the request queue; a request to another device has then been performed at its home, and one that asks for no
reply is over (R189). -/
def State.takePacket (s : State) (p : Packet) : State :=
  { s with
    packets := s.packets.erase p
    outReqs :=
      if p.noreply then s.outReqs.filter fun q => q.what != .packet p
      else s.outReqs.map fun q => if q.what == .packet p then { q with done := true } else q }

/-- The width of a built-in routine (R341): 8 bytes for the odd numbers up to 0x13, and from 0x18 on. -/
def rtnWide (n : Nat) : Bool := if n ≤ 0x13 then n % 2 == 1 else 0x18 ≤ n

/-- Windows of scratchpads and host memory admit routines 0x00 to 0x13 only; register blocks and other on-chip windows
have no home and admit none (R185). -/
def homeAdmits (l : Loc) (low : Bool) : Bool :=
  match l with
  | .mem _ => true
  | .rem _ _ => true
  | .host _ => low
  | .spad _ _ => low
  | .core _ o => low && 0x180000 ≤ o && o < 0x240000
  | .creg _ _ => false
  | .dreg _ => false

/-- The cause of a refusal at the home: the routine not permitted, an EXT bit or a reply width that is not the routine's, a
misaligned ADDR (R185, R187). -/
def homeRefuses (p : Packet) (low ext : Bool) (align : Nat) (mis : BitVec 8) : Option (BitVec 8) :=
  if !homeAdmits p.place.loc low then some 0x31
  else if p.ext != ext || p.retw != rtnWide p.rtn.toNat then some 0x34
  else if p.place.loc.off % align != 0 then some mis
  else none

/-- The cluster that a packet acts with: its issuing strand's (R30). -/
def State.packetCluster (s : State) (p : Packet) : Option Nat :=
  match p.src with
  | .strand sid _ _ _ _ _ => s.clusterOf sid
  | _ => none

/-- A packet's operation is performed at the home of its line. -/
def State.homeLine (s : State) (p : Packet) : State := s.homeTouch (s.packetCluster p) p.place .modified

/-- The word of the sending strand's own image that a location holds: the kinds of its fields hold for the strand's own packets (R5,
R75). -/
def State.ownTarget (s : State) (p : Packet) (l : Loc) : Option (Nat × Nat) :=
  match p.src with
  | .strand sid _ lane _ _ _ => s.ownImage ⟨0, false, none, none, 0, some (sid, lane)⟩ l
  | _ => none

/-- The words of a target: values, or what a marked word gives the reply (R130, R188). -/
def State.targetWords (s : State) (l : Loc) (n : Nat) (addr : Dword) : Except ReplyVal (List Word) :=
  let ws := s.getWords l n
  match ws.find? MWord.mark with
  | some w => .error (markedVal w.data addr)
  | none => .ok (ws.map MWord.data)

/-- The words that a packet's routine finds at a location; a poisoned operand comes before a poisoned target (R130, R188). -/
def State.packetWords (s : State) (p : Packet) (l : Loc) (n : Nat) : Except ReplyVal (List Word) :=
  match p.optok with
  | some t => .error (markedVal t p.va)
  | none =>
    match s.targetWords l n p.va with
    | .error v => .error v
    | .ok ws => .ok ((ws.zipIdx).map fun w =>
        match s.ownTarget p (l.add (4 * w.2)) with
        | some (sid, i) => w.1 &&& ((s.strand sid).ownKinds i).1
        | none => w.1)

/-- Write the words that a packet's routine leaves at a location. -/
def State.putTarget (s : State) (p : Packet) (l : Loc) (ws : List Word) : State :=
  (ws.zipIdx).foldl (fun s w =>
    let a := l.add (4 * w.2)
    match s.ownTarget p a with
    | some (sid, i) =>
      let m := ((s.strand sid).ownKinds i).2
      if m = 0 then s else s.putW a 15 ⟨(w.1 &&& m) ||| (((s.strand sid).word i).data &&& ~~~m), false⟩
    | none => s.putW a 15 ⟨w.1, false⟩) s

/-- Perform a routine on words at ADDR: refusals first, then a poisoned target, then the effect on the old words: new
words, or a cause with nothing written. The reply is the old words. -/
def State.rmw (s : State) (p : Packet) (low ext : Bool) (n align : Nat) (f : List Word → Except (BitVec 8) (List Word)) : Out :=
  let s := (s.takePacket p).homeLine p
  match homeRefuses p low ext align 0x34 with
  | some c => .next (s.replyTo p (.bad c 0x06 p.va))
  | none =>
    match s.packetWords p p.place.loc n with
    | .error v => .next (s.replyTo p v)
    | .ok old =>
      match f old with
      | .error c => .next (s.replyTo p (.bad c 0x06 p.va))
      | .ok new => .next ((s.putTarget p p.place.loc new).replyTo p (.words old))

/-- A routine on one word or doubleword: w as a 64-bit number, zero-extended. -/
def State.rmwInt (s : State) (p : Packet) (f : Dword → Dword) : Out :=
  if rtnWide p.rtn.toNat then
    s.rmw p true false 2 8 fun ws =>
      let r := f (join32 (ws.getD 0 0) (ws.getD 1 0))
      .ok [loW r, hiW r]
  else s.rmw p true false 1 4 fun ws => .ok [loW (f (join32 (ws.getD 0 0) 0))]

/-- A 64-bit number as signed or unsigned in the packet's width. -/
def packetNum (p : Packet) (sg : Bool) (d : Dword) : Int :=
  let n := if rtnWide p.rtn.toNat then 64 else 32
  if sg then signed n d.toNat else (d.toNat % 2 ^ n : Nat)

/-- The lesser and the greater of the target and OP0. -/
def packetLeast (p : Packet) (sg : Bool) (w : Dword) : Dword := if packetNum p sg w ≤ packetNum p sg p.op0 then w else p.op0
def packetMost (p : Packet) (sg : Bool) (w : Dword) : Dword := if packetNum p sg w ≤ packetNum p sg p.op0 then p.op0 else w

/-! ### Built-in routines (R188) -/

/-- Routines 0x00 and 0x01. -/
def execAddRoutine (p : Packet) (s : State) : Out := s.rmwInt p fun w => w + p.op0
/-- Routines 0x02 and 0x03. -/
def execSignedMinRoutine (p : Packet) (s : State) : Out := s.rmwInt p (packetLeast p true)
/-- Routines 0x04 and 0x05. -/
def execSignedMaxRoutine (p : Packet) (s : State) : Out := s.rmwInt p (packetMost p true)
/-- Routines 0x06 and 0x07. -/
def execUnsignedMinRoutine (p : Packet) (s : State) : Out := s.rmwInt p (packetLeast p false)
/-- Routines 0x08 and 0x09. -/
def execUnsignedMaxRoutine (p : Packet) (s : State) : Out := s.rmwInt p (packetMost p false)
/-- Routines 0x0A and 0x0B. -/
def execAndRoutine (p : Packet) (s : State) : Out := s.rmwInt p fun w => w &&& p.op0
/-- Routines 0x0C and 0x0D. -/
def execOrRoutine (p : Packet) (s : State) : Out := s.rmwInt p fun w => w ||| p.op0
/-- Routines 0x0E and 0x0F. -/
def execXorRoutine (p : Packet) (s : State) : Out := s.rmwInt p fun w => w ^^^ p.op0
/-- Routines 0x10 and 0x11. -/
def execSwapRoutine (p : Packet) (s : State) : Out := s.rmwInt p fun _ => p.op0
/-- Routines 0x12 and 0x13. -/
def execCasRoutine (p : Packet) (s : State) : Out :=
  s.rmwInt p fun w => if packetNum p false w = packetNum p false p.op0 then p.op1 else w

/-- A sum of two patterns of a float format, to nearest even; none when invalid (R113). -/
def floatSum (t x y : Nat) : Option Nat :=
  (floatFmt t).encode 0 false (sumVals false [(floatFmt t).decode x, (floatFmt t).decode y])

/-- F32 add of two words. -/
def addF32 (x y : Word) : Option Word := (floatSum 0 x.toNat y.toNat).map (BitVec.ofNat 32)

/-- The sums of both halves of two words. -/
def addHalves (t : Nat) (x y : Word) : Option Word :=
  match floatSum t (fld x 0 16) (fld y 0 16), floatSum t (fld x 16 16) (fld y 16 16) with
  | some a, some b => some (BitVec.ofNat 32 (a + 65536 * b))
  | _, _ => none

/-- A float routine on one word. -/
def State.rmwFloat (s : State) (p : Packet) (f : Word → Option Word) : Out :=
  s.rmw p false false 1 4 fun ws =>
    match f (ws.getD 0 0) with
    | some w => .ok [w]
    | none => .error 0x20

/-- Routine 0x14. -/
def execF32AddRoutine (p : Packet) (s : State) : Out := s.rmwFloat p fun w => addF32 w (loW p.op0)
/-- Routine 0x15. -/
def execF16PairAddRoutine (p : Packet) (s : State) : Out := s.rmwFloat p fun w => addHalves 1 w (loW p.op0)
/-- Routine 0x16. -/
def execB16PairAddRoutine (p : Packet) (s : State) : Out := s.rmwFloat p fun w => addHalves 2 w (loW p.op0)

/-- Routine 0x18. -/
def execTwoWordCasRoutine (p : Packet) (s : State) : Out :=
  s.rmw p false false 2 8 fun ws =>
    .ok (if join32 (ws.getD 0 0) (ws.getD 1 0) = p.op0 then [loW p.op1, hiW p.op1] else ws)

/-- Routine 0x19. -/
def execFourWordCasRoutine (p : Packet) (s : State) : Out :=
  s.rmw p false true 4 16 fun ws =>
    let n0 := p.extw.getD 0 0
    let n1 := p.extw.getD 1 0
    .ok (if join32 (ws.getD 0 0) (ws.getD 1 0) = p.op0 && join32 (ws.getD 2 0) (ws.getD 3 0) = p.op1
      then [loW n0, hiW n0, loW n1, hiW n1] else ws)

/-- The translation of a routine's separate access, in the requester's context (R186). For a request of another device an invalid
descriptor, or a page that is no longer mapped in a context that is switched out, gives 0x3E (R440). -/
def State.sepPlace (s : State) (p : Packet) (kind : AccessKind) (a : Dword) : State × Except (BitVec 8) Place :=
  if a.toNat % 8 != 0 then (s, .error 0x08)
  else
    match p.src with
    | .fabric _ _ _ c =>
      if !s.ctxValid c then (s, .error 0x3E)
      else
        match s.translate (s.whoSender p) kind a with
        | (s, .error e) => (s, .error (if e = 0x01 && (s.ctxIn c).isNone then 0x3E else e))
        | r => r
    | _ => s.translate (s.whoSender p) kind a

/-- A routine's separate write: with the scope instances of the strand that sent the packet, whose cluster gives up its copy of a
software-managed line; to another device's memory a request, false where no path leads there (R30, R186, R465). -/
def State.sepWrite (s : State) (p : Packet) (a : Dword) (q : Place) (v : Dword) : State × Bool :=
  let sid := match p.src with | .strand i _ _ _ _ _ => some i | _ => none
  (s.homeTouch (s.packetCluster p) q .modified).writeOut (s.whoSender p) sid ⟨0, 0, a, 0⟩ a 8 q v false

/-- Routine 0x1A: the tail is swapped and the new node is linked; a fault of the link's write leaves the tail swapped
(R186). -/
def execListEnqueueRoutine (p : Packet) (s : State) : Out :=
  let s := (s.takePacket p).homeLine p
  match homeRefuses p false false 16 0x36 with
  | some c => .next (s.replyTo p (.bad c 0x06 p.va))
  | none =>
    match s.packetWords p p.place.loc 2 with
    | .error v => .next (s.replyTo p v)
    | .ok ws =>
      let old := join32 (ws.getD 0 0) (ws.getD 1 0)
      let s := s.putTarget p p.place.loc [loW p.op0, hiW p.op0]
      if old = 0 then .next ((s.putTarget p (p.place.loc.add 8) [loW p.op0, hiW p.op0]).replyTo p (.words ws))
      else
        let a := old + p.op1
        match s.sepPlace p .write a with
        | (s, .error c) => .next (s.replyTo p (.bad c 0x06 a))
        | (s, .ok q) =>
          match s.sepWrite p a q p.op0 with
          | (s, true) => .next (s.replyTo p (.words ws))
          | (s, false) => .next (s.replyTo p (.bad 0x17 0x06 a))

/-- Follow links from `a`, n times, stopping at 0. -/
def State.chase (s : State) (p : Packet) (a : Dword) : Nat → State × ReplyVal
  | 0 => (s, res64 a)
  | n + 1 =>
    if a = 0 then (s, res64 a)
    else
      match s.sepPlace p .read (a + p.op1) with
      | (s, .error c) => (s, .bad c 0x06 (a + p.op1))
      | (s, .ok q) =>
        match (s.homeTouch (s.packetCluster p) q .shared).readPart (s.whoSender p) default (a + p.op1) 8 q with
        | (s, .words ws) => s.chase p (join32 (ws.getD 0 0) (ws.getD 1 0)) n
        | (s, v) => (s, v)

/-- Routine 0x1B. -/
def execPointerChaseRoutine (p : Packet) (s : State) : Out :=
  let s := (s.takePacket p).homeLine p
  match homeRefuses p false false 8 0x34 with
  | some c => .next (s.replyTo p (.bad c 0x06 p.va))
  | none =>
    if let some t := p.optok then .next (s.replyTo p (markedVal t p.va))
    else if p.op0 = 0 then .next (s.replyTo p (.bad 0x34 0x06 p.va))
    else if 16 < p.op0.toNat then .next (s.replyTo p (.bad 0x35 0x06 p.va))
    else
      let (s, v) := s.chase p p.va p.op0.toNat
      .next (s.replyTo p v)

/-- Routine 0x1C: two sums and a contributor mask in words 30 and 31 of the line; an invalid sum or a contributor whose bit
is set changes nothing. -/
def execContributorReductionRoutine (p : Packet) (s : State) : Out :=
  let s := (s.takePacket p).homeLine p
  let refuse (c : BitVec 8) : Out := .next (s.replyTo p (.bad c 0x06 p.va))
  match homeRefuses p false false 8 0x34 with
  | some c => refuse c
  | none =>
    if 104 < p.place.loc.off % 128 then refuse 0x34
    else
      let mloc := (p.place.loc.align 128).add 120
      match s.packetWords p p.place.loc 2, s.packetWords p mloc 2 with
      | .error v, _ => .next (s.replyTo p v)
      | _, .error v => .next (s.replyTo p v)
      | .ok ws, .ok ms =>
        let mask := join32 (ms.getD 0 0) (ms.getD 1 0)
        let k := fld p.op1 0 6
        let has := fld p.op1 6 1 == 1
        if has && mask.getLsbD k then refuse 0x37
        else
          match addF32 (ws.getD 0 0) (loW p.op0), addF32 (ws.getD 1 0) (hiW p.op0) with
          | some x, some y =>
            let s := s.putTarget p p.place.loc [x, y]
            let now := mask ||| (1#64 <<< k)
            let s := if has then s.putTarget p mloc [loW now, hiW now] else s
            .next (s.replyTo p (.words ms))
          | _, _ => refuse 0x20

/-! ### Installed routines (R479) -/

/-- A routine's table entry: as the clasps cache it, else from memory, and then cached. DESIGN CHOICE: one cache for all clasps, and an
entry once read stays in it until CRTAB is written (assumption 112). -/
def State.routineEntry (s : State) (rtn : Nat) : State × Dword × Dword :=
  match s.crCache.find? fun e => e.1 == rtn with
  | some e => (s, e.2)
  | none =>
    let base := s.regF rCRTAB 12 40 * 4096 + 16 * (rtn - 0x80)
    let e := ((s.getD64 (.mem base)).1, (s.getD64 (.mem (base + 8))).1)
    ({ s with crCache := (rtn, e) :: s.crCache }, e)

/-- The routine is installed: CREN, IVAL, no reserved bit, and a valid system context. -/
def State.installed (s : State) (w : Dword) : Bool :=
  s.regF rCRTAB 0 1 == 1 && fld w 63 1 == 1 && fld w 60 1 == 0 && fld w 0 48 == 0
    && s.ctxValid (fld w 48 12) && s.ctxSys (fld w 48 12)

/-- The doubleword at +0x18 of a packet (R187). -/
def packetCtl (p : Packet) : Dword :=
  mk64 [(61, p.scope.toNat), (60, b2n p.retw), (59, b2n p.noreply), (58, b2n p.acq), (57, b2n p.rel), (56, b2n p.ext),
    (0, fld p.rslot 0 56)]

/-- The strand on which a clasp runs a body: V 8, S 16, A 0; s0 to s7 from the packet, every other register 0; its entry
must be a marked PAD within that budget. -/
def claspStrand (now : Nat) (p : Packet) (body : Dword) (ictx : Nat) : Strand :=
  let st : Strand := { (default : Strand) with
    ctx := ictx, blk := 2 ^ 64, vRegs := 8, sRegs := 16, tiles := 0, life := .resident
    splits := [(0, .frag { Frag.fresh now 1 body none with due := some ⟨body, true, 1, 0, 1, none⟩ })]
    clasp := some ⟨p, ictx, none, 0⟩ }
  let vals := [fld p.va 0 56, p.op0.toNat, p.op1.toNat, (packetCtl p).toNat] ++ (List.range 4).map fun i => (p.extw.getD i 0).toNat
  (vals.zipIdx).foldl (fun st v => st.setDw (st.scIx v.2) (BitVec.ofNat 64 v.1))
    (st.setCtl ctlBUDGET (mk64 [(0, 1), (8, 16), (16, 0)]))

/-- INSTALLED_ROUTINE: routines 0x80 to 0xFF start their body; any other number is not installed. -/
def execInstalledRoutine (p : Packet) (s : State) : Out :=
  let s := (s.takePacket p).homeLine p
  let refuse (s : State) (c : BitVec 8) : Out := .next (s.replyTo p (.bad c 0x06 p.va))
  if p.rtn.toNat < 0x80 then refuse s 0x32
  else if !homeAdmits p.place.loc false then refuse s 0x31
  else if let some t := p.optok then .next (s.replyTo p (markedVal t p.va))
  else
    let (s, body, w) := s.routineEntry p.rtn.toNat
    if !s.installed w then refuse s 0x32
    else if p.retw != (fld w 61 1 == 1) || p.ext != (fld w 62 1 == 1)
        || p.place.loc.off % (if p.retw then 8 else 4) != 0 then refuse s 0x34
    else
      let sid := s.nextStrand
      let st := claspStrand s.clock p body (fld w 48 12)
      let s := { s with nextStrand := sid + 1, strands := aput s.strands sid st }
      .next (if pcInvalid body then s.claspEnd sid claspFault else s)

/-- The meaning of a packet's routine (R188). -/
def State.performPacket (p : Packet) (s : State) : Out :=
  match p.rtn.toNat with
  | 0x00 => execAddRoutine p s
  | 0x01 => execAddRoutine p s
  | 0x02 => execSignedMinRoutine p s
  | 0x03 => execSignedMinRoutine p s
  | 0x04 => execSignedMaxRoutine p s
  | 0x05 => execSignedMaxRoutine p s
  | 0x06 => execUnsignedMinRoutine p s
  | 0x07 => execUnsignedMinRoutine p s
  | 0x08 => execUnsignedMaxRoutine p s
  | 0x09 => execUnsignedMaxRoutine p s
  | 0x0A => execAndRoutine p s
  | 0x0B => execAndRoutine p s
  | 0x0C => execOrRoutine p s
  | 0x0D => execOrRoutine p s
  | 0x0E => execXorRoutine p s
  | 0x0F => execXorRoutine p s
  | 0x10 => execSwapRoutine p s
  | 0x11 => execSwapRoutine p s
  | 0x12 => execCasRoutine p s
  | 0x13 => execCasRoutine p s
  | 0x14 => execF32AddRoutine p s
  | 0x15 => execF16PairAddRoutine p s
  | 0x16 => execB16PairAddRoutine p s
  | 0x18 => execTwoWordCasRoutine p s
  | 0x19 => execFourWordCasRoutine p s
  | 0x1A => execListEnqueueRoutine p s
  | 0x1B => execPointerChaseRoutine p s
  | 0x1C => execContributorReductionRoutine p s
  | _ => execInstalledRoutine p s

/-! ### What replies of other devices' homes say (R189, R190) -/

/-- The home of another device performs routines on the line that ADDR names as this device does; what the others do there lies in
that device's own translation and tables (assumption 61). -/
def onOneLine (p : Packet) : Bool := p.rtn.toNat ≤ 0x19 || p.rtn == 0x1C

/-- What the reply to a packet says of another device's memory, where its home is taken to have performed it only now: the words as
they were, where nothing else has been seen of the line since the packet left, and the routine's effect on them (R190). -/
def State.learn (s : State) (p : Packet) (fresh : Bool) (v : ReplyVal) : State :=
  match v with
  | .words ws =>
    if p.rtn = 0x1A then s.putD64 p.place.loc p.op0
    else if !onOneLine p then s
    else
      let at_ := if p.rtn = 0x1C then (p.place.loc.align 128).add 120 else p.place.loc
      match (if fresh then s.putWords at_ (ws.map fun w => ⟨w, false⟩) else s).performPacket { p with src := .device 0 } with
      | .next t => t
      | _ => s
  | _ => s

/-! ### Replies (R71, R128, R130) -/

/-- The words of a return slot that a reply still has to write: a later instruction has written the others (R85). -/
def Strand.slotDue (st : Strand) (r : Reply) : List (Nat × Nat) :=
  (r.dest.zipIdx).filter fun d => aget st.pend d.1 == some r.tag

/-- The cause of a reply that is poison. -/
def replyCause : ReplyVal → Option (BitVec 8)
  | .words _ => none
  | .tok t => some (tokCause t)
  | .bad c _ _ => some c

/-- Write a reply's words into its return slot: a reply shorter than the slot is zero-extended. Each word of it that is discarded poisoned
is counted (R85, R447). -/
def State.landWords (s : State) (r : Reply) : State :=
  let due := (s.strand r.sid).slotDue r
  let put (s : State) (g : Nat → MWord) : State := due.foldl (fun s d => s.wrImg r.sid d.1 (g d.2)) s
  let s := match replyCause r.val with
    | some c => (List.range (r.dest.length - due.length)).foldl (fun s _ => s.countUp (s.coreOf r.sid) c) s
    | none => s
  if due.isEmpty then s
  else
    match r.val with
    | .words ws => put s fun i => ⟨ws.getD i 0, false⟩
    | .tok t => put s fun _ => ⟨t, true⟩
    | .bad c o a =>
      let (s, t) := s.sharedToken r.sid r.tag (dataRec c o r.pc a (some r.lane))
      put s fun _ => ⟨t, true⟩

/-- A poisoned reply for $deadline writes nothing and holds the lanes that were active with its instruction, wherever they are, unless a
later instruction has written $deadline (R85, R256; assumption 102). -/
def State.landDeadline (s : State) (r : Reply) : State :=
  match r.val with
  | .words _ => s.landWords r
  | v =>
    if ((s.strand r.sid).slotDue r).isEmpty then s.landWords { r with val := v }
    else
      let s := s.modStrand r.sid fun st => { st with pend := (st.pend.filter fun x => x.2 != r.tag) }
      s.holdLate r.sid r.pc ((lanesOf r.act).map fun l => ⟨l, 0x47, 0⟩)

/-- The request that a reply from another device answers. -/
def answers (r : Reply) (q : OutReq) : Bool :=
  match q.what with
  | .packet p => p.src == .strand r.sid r.frag r.lane r.pc r.dest r.tag
  | _ => false

/-- A result that was due lands: its words, or what a poisoned one means for $deadline. -/
def State.deliver (s : State) (r : Reply) : State :=
  (if r.dest.head? == some ((s.strand r.sid).ctlIx ctlDLINE) then s.landDeadline r else s.landWords r).endTag r.sid r.tag

/-- A reply from a home lands, which profiling may sample (R461). -/
def State.land (s : State) (r : Reply) : State :=
  (s.deliver r).sample r.sid ⟨r.lane, r.pc, r.va, r.act⟩ r.at_ true

/-- REPLY_LAND (R71). -/
def execReplyLand (r : Reply) (s : State) : Out :=
  let q := s.outReqs.find? (answers r)
  let s := { s with replies := s.replies.erase r, outReqs := s.outReqs.eraseP (answers r) }
  let s := match q with
    | some x =>
      (match x.done, x.what with
       | false, .packet p => s.learn p x.fresh r.val
       | _, _ => s)
    | none => s
  match aget s.strands r.sid with
  | none => .next s
  | some _ => .next (s.land r)

end Sys2Proof.Machine
end

