-- ==== Sys2Proof/Machine/Sync.lean ====
section
/-! DEFINITION. Barriers, waits and signals (R344 to R349): named barriers (R52), barrier objects (R181 to R184), condition monitors (R191),
the deadline timer (R80), SIGNAL and FENCE. -/
namespace Sys2Proof.Machine

/-! ### Named barriers (R52, R344) -/

/-- A fragment's wait ends: it goes on at its PC, in the table or, of a strand that is Halted or Out, in the area that holds it
(R28, R61). -/
def State.wake (s : State) (sid i : Nat) : State :=
  s.modStrand sid fun st => st.onTable fun st =>
    match st.frag? i with
    | some f => st.goto s.clock i [⟨f.mask, f.pc, f.due⟩] none
    | none => st

def State.barrier (s : State) (blk n : Nat) : Barrier := (aget (s.block blk).bars n).getD default
def State.setBarrier (s : State) (blk n : Nat) (b : Barrier) : State :=
  s.modBlock blk fun k => { k with bars := aput k.bars n b }

/-- End the waits of a block's fragments at barrier n. -/
def State.wakeBarrier (s : State) (blk n : Nat) : State :=
  ((s.block blk).strands).foldl (fun s sid =>
    (s.strand sid).frags.foldl (fun s f => if f.2.wait == .barrier n then s.wake sid f.1 else s) s) s

/-- Complete the phase when every expected arrival has been counted: the phase bit flips, the arrived count returns to 0,
and strands that arrived and have retired are no longer expected (R52, R344). -/
def State.tryPhase (s : State) (blk n : Nat) : State :=
  let b := s.barrier blk n
  if b.expect = 0 || b.arrived != b.expect then s
  else
    let gone := (b.who.filter fun sid => (s.strand sid).life == .retired).length
    (s.setBarrier blk n ⟨b.phase + 1, b.expect - gone, 0, []⟩).wakeBarrier blk n

/-- A strand arrives at barrier n: once in each phase; a divergent arrival is reported (R52, R462). -/
def State.barArrive (s : State) (sid idx n : Nat) (pc : Dword) : State :=
  let st := s.strand sid
  let b := s.barrier st.blk n
  if b.who.contains sid then s
  else
    let mask := match st.frag? idx with | some f => f.mask | none => 0
    let s := s.setBarrier st.blk n { b with arrived := b.arrived + 1, who := b.who ++ [sid] }
    let s := s.modStrand sid fun st => { st with barSeen := aput st.barSeen n b.phase }
    let waits := s.barWatched st.blk n
    let s := s.tryPhase st.blk n
    if st.liveLanes &&& ~~~mask != 0 then s.barrierCheck sid 1 n pc mask waits else s

/-- The phase in which the strand last arrived at n has not completed. -/
def State.barWaits (s : State) (sid n : Nat) : Bool :=
  let st := s.strand sid
  match aget st.barSeen n with
  | some p => p == (s.barrier st.blk n).phase
  | none => false

/-- The barrier an instruction names. -/
def barNo (b : AluBody) : Nat := (Check.immOf b).toNat % 16

/-- An arrival is a release at block scope: it waits for the fragment's accesses, and what they wrote is seen (R344). -/
def State.arriveAt (s : State) (cx : Cx) (n : Nat) : State :=
  (s.showLanes cx.sid cx.frag.mask).barArrive cx.sid cx.idx n cx.pc

/-- BAR.ARR (R344). -/
def execBarArr (h : Hdr) (b : AluBody) (s : State) : Out :=
  s.issue (legal (.barArr h b)) h [] fun s cx =>
    if !s.allDone cx.sid cx.frag.mask then (s, [], .stall) else (s.arriveAt cx (barNo b), [], .next)

/-- BAR.WAIT (R344). -/
def execBarWait (h : Hdr) (b : AluBody) (s : State) : Out :=
  s.issue (legal (.barWait h b)) h [] fun s cx =>
    (s, [], if s.barWaits cx.sid (barNo b) then .block (.barrier (barNo b)) else .next)

/-- BAR.SYNC: BAR.ARR, then BAR.WAIT (R344). -/
def execBarSync (h : Hdr) (b : AluBody) (s : State) : Out :=
  s.issue (legal (.barSync h b)) h [] fun s cx =>
    if !s.allDone cx.sid cx.frag.mask then (s, [], .stall)
    else
      let s := s.arriveAt cx (barNo b)
      (s, [], if s.barWaits cx.sid (barNo b) then .block (.barrier (barNo b)) else .next)

/-- Barrier counts when a strand retires (R52): not arrived in the current phase, the expected count falls at once. -/
def State.barRetire (s : State) (sid : Nat) (contained : Bool) : State :=
  let st := s.strand sid
  (List.range 16).foldl (fun s n =>
    let b := s.barrier st.blk n
    if b.expect = 0 then s
    else
      let waits := s.barWatched st.blk n
      let s := if b.who.contains sid then s else s.setBarrier st.blk n { b with expect := b.expect - 1 }
      let s := s.tryPhase st.blk n
      if contained then s.barrierCheck sid 3 n st.exited.1 st.exited.2 waits
      else if b.who.contains sid then s else s.barrierCheck sid 2 n st.exited.1 st.exited.2 waits) s

/-! ### Barrier objects (R181 to R184) -/

/-- The page kinds and alignment an object may have (R184). -/
def objPlaceOk (p : Place) : Bool := p.loc.off % 16 == 0 && !p.sm && p.ord != 2

/-- The object's two doublewords; or what an operation on it returns: 0x39 when it is invalid, its token when it is
marked. -/
def State.objRead (s : State) (p : Place) (addr : Dword) : Except ReplyVal (Dword × Dword) :=
  if !objPlaceOk p then .error (.bad 0x39 0x06 addr)
  else
    match s.targetWords p.loc 4 addr with
    | .error v => .error v
    | .ok ws =>
      let d0 := join32 (ws.getD 0 0) (ws.getD 1 0)
      let d1 := join32 (ws.getD 2 0) (ws.getD 3 0)
      if fld d0 48 16 = 0 || fld d0 1 31 != 0 || fld d1 56 8 != 0 || fld d1 24 8 != 0 then .error (.bad 0x39 0x06 addr)
      else .ok (d0, d1)

/-- Write an object's counts, flipping its phase when both are 0 (R182: TryFlip). -/
def State.objWrite (s : State) (p : Place) (d0 d1 : Dword) (arr : Nat) (bytes : Int) : State :=
  let flip := arr = 0 && bytes = 0
  let arr := if flip then fld d0 48 16 else arr
  let by' : Nat := if flip then fld d1 32 24 else (bytes % 2 ^ 24).toNat
  let d0 := setFld d0 32 16 arr
  let d0 := if flip then setFld d0 0 1 (1 - fld d0 0 1) else d0
  (s.putD64 p.loc d0).putD64 (p.loc.add 8) (setFld d1 0 24 by')

/-- PENDBYTES is within its range (R181). -/
def bytesIn (n : Int) : Bool := -(2 ^ 23 : Int) ≤ n && n < 2 ^ 23

/-- Mark both doublewords with cause 0x3A (R184). -/
def State.objPoison (s : State) (p : Place) (t : Word) : State := (s.markD64 p.loc t).markD64 (p.loc.add 8) t

/-- Arrive(obj, e) (R182): the phase before, or what the arrival returns; every case of R184 gives 0x39 (R346). -/
def State.objArrive (s : State) (p : Place) (addr : Dword) (e : Nat) : State × ReplyVal :=
  match s.objRead p addr with
  | .error v => (s, v)
  | .ok (d0, d1) =>
    let bytes := signed 24 (fld d1 0 24) + e
    if fld d0 32 16 = 0 then (s, .bad 0x39 0x06 addr)
    else if !bytesIn bytes then (s.objPoison p (mkTok 0x3A 0x06 0xFFFF), .bad 0x39 0x06 addr)
    else (s.objWrite p d0 d1 (fld d0 32 16 - 1) bytes, .words [BitVec.ofNat 32 (fld d0 0 1), 0])

/-- Complete(obj, n) (R182): an operation on an invalid or marked object is not performed. -/
def State.objComplete (s : State) (p : Place) (addr : Dword) (n : Nat) (origin : BitVec 8) : State :=
  match s.objRead p addr with
  | .error _ => s
  | .ok (d0, d1) =>
    let bytes := signed 24 (fld d1 0 24) - n
    if !bytesIn bytes then s.objPoison p (mkTok 0x3A origin 0xFFFF)
    else s.objWrite p d0 d1 (fld d0 32 16) bytes

/-! ### Results of waits -/

/-- Give a scalar destination a result after the instruction has issued: a poisoned one for $deadline writes nothing and
holds the fragment's lanes (R256). -/
def State.lateScalar (s : State) (sid frag : Nat) (pc : Dword) (d : BitVec 8) (v : ReplyVal) : State :=
  let st := s.strand sid
  if d = specDEADLINE then
    match v, st.frag? frag with
    | .words ws, _ => s.putDeadline sid (join32 (ws.getD 0 0) (ws.getD 1 0))
    | _, some f => s.hold sid frag pc ((lanesOf f.mask).map fun l => ⟨l, 0x47, 0⟩)
    | _, none => s
  else
    let lane := (st.frag? frag).bind fun f => lowest f.mask
    let (s, v) := s.settle1 sid pc lane v
    s.putSc sid d.toNat 1 v

/-! ### OBJ.ARR (R346) -/

/-- EA and a scalar of a once-per-fragment form: poisoned, or both values. -/
def Cx.eaData (cx : Cx) (b : MemBody) : Except Word (Dword × Dword) :=
  match cx.src.ea cx.sid cx.once b false with
  | .error t => .error t
  | .ok a =>
    let d := cx.src.readOp cx.sid cx.once true b.data
    match d.tok with
    | some t => .error t
    | none => .ok (a, d.v)

/-- The uses of the address and DATA of a form of R345. -/
def syncUses (h : Hdr) (b : MemBody) (eats : Bool) : List Use := eaUses h b eats ++ opUse b.data 1 h.luc eats

/-- A result at once, and a poison entry with the same token when one is due (R346). -/
def State.syncStop (s : State) (cx : Cx) (d : BitVec 8) (entry : Bool) (v : ReplyVal) : State × List Hold × Go :=
  let (s, v) := s.settle1 cx.sid cx.pc (some cx.once) v
  let (s, hs) := s.putScalarDest cx d v
  match entry, v with
  | true, .tok t =>
    let (s, hs') := s.poisonEntries cx.sid cx.pc [(cx.once, t)]
    (s, hs ++ hs'.flatMap fun h => (lanesOf cx.act).map fun l => { h with lane := l }, .next)
  | _, _ => (s, hs, .next)

/-- OBJ.ARR: the arrival leaves for the object's home as a release, and its destination is due from then on (R346). -/
def execObjArr (h : Hdr) (b : MemBody) (s : State) : Out :=
  s.issue (legal (.objArr h b)) h (syncUses h b true ++ scDest h.dest 1) fun s cx =>
    if !s.allDone cx.sid cx.act then (s, [], .stall) else
    let s := (s.clearEvent cx.sid (memSpecials b)).showLanes cx.sid cx.act
    match cx.eaData b with
    | .error t => s.syncStop cx h.dest true (.tok t)
    | .ok (a, e) =>
      match s.packetPlace (s.whoOf cx.sid) false a with
      | (s, .error c) => s.syncStop cx h.dest true (.bad c 0x02 a)
      | (s, .ok p) =>
        if 0x7FFFFF < e.toNat then s.syncStop cx h.dest false (.bad 0x39 0x06 a)
        else if (s.strand cx.sid).regionOpen && s.hitsLiveIn cx.sid p.loc 16 then (s, holdAll cx.act 0x4D a, .next)
        else
          let tag := cx.src.tick
          let arr : Arrival := ⟨cx.sid, cx.idx, cx.once, cx.pc, tag, h.dest, a, p, e, b.scope, cx.act⟩
          let due (s : State) : State := s.awaitWords cx.sid ((s.strand cx.sid).scalarWords h.dest) tag
          if p.loc.remote then
            match s.sendTo p.loc (.arrival arr) with
            | some s => (due s, [], .next)
            | none => s.syncStop cx h.dest true (.bad 0x17 0x0C a)
          else (due { s with arrivals := s.arrivals ++ [arr] }, [], .next)

/-- What an operation on an object finds at its home, on behalf of a strand (R169, R185). -/
def State.objTouch (s : State) (sid : Nat) (p : Place) : State :=
  (s.homeTouch (s.clusterOf sid) p .modified).checkSpad (p.loc.add 8)

/-- BARRIER_OBJECT_ARRIVE: the arrival is performed at the object's home, and the reply lands (R182, R346). -/
def execBarrierObjectArrive (a : Arrival) (s : State) : Out :=
  let s := { s with arrivals := s.arrivals.erase a }
  let (s, v) := (s.objTouch a.sid a.place).objArrive a.place a.va a.bytes.toNat
  match aget s.strands a.sid with
  | none => .next s
  | some st => .next (s.land ⟨a.sid, a.frag, a.lane, a.pc, st.scalarWords a.dest, a.tag, v, a.va, a.act, a.place.loc⟩)

/-! ### Condition monitors (R191, R346, R347) -/

/-- Monitors of one home (R191). -/
def monitorLimit : Nat := 256

/-- The home has a free monitor. -/
def State.monitorFree (s : State) (l : Loc) : Bool :=
  decide ((s.monitors.filter fun m => m.held && s.homeOf m.place.loc == s.homeOf l).length < monitorLimit)

/-- Free a monitor; a park that waits at that home takes it (R144, R191). -/
def State.freeMonitor (s : State) (m : Monitor) : State :=
  let ms := s.monitors.erase m
  match m.held, ms.findIdx? fun x => !x.held && x.watch == .state3 && s.homeOf x.place.loc == s.homeOf m.place.loc with
  | true, some i => { s with monitors := ms.modify i fun x => { x with held := true } }
  | _, _ => { s with monitors := ms }

/-- The word a monitor watches: a value, or what a marked word gives. -/
def State.watched (s : State) (m : Monitor) : Except ReplyVal Dword :=
  match m.watch with
  | .cmp _ _ false _ =>
    (match s.targetWords m.place.loc 1 m.va with
     | .ok ws => .ok (join32 (ws.getD 0 0) 0)
     | .error v => .error v)
  | _ =>
    match s.targetWords m.place.loc 2 m.va with
    | .ok ws => .ok (join32 (ws.getD 0 0) (ws.getD 1 0))
    | .error v => .error v

/-- A watcher's word is read at its home: every agent sees from then on what it holds (R169, R191). -/
def State.watchRead (s : State) (m : Monitor) : State := s.homeTouch (s.clusterOf m.sid) m.place .shared

/-- The comparison of a watcher holds of a value (R346, R347). -/
def watchHolds (w : Watch) (d : Dword) : Bool :=
  match w with
  | .cmp cc sx wide v =>
    let n := if wide then 64 else 32
    let num (x : Dword) : Int := if sx then signed n x.toNat else (x.toNat % 2 ^ n : Nat)
    (match cc.toNat with
     | 0 => num d == num v
     | 1 => num d != num v
     | 2 => num v ≤ num d
     | _ => num d < num v)
  | .phase p => (fld d 0 1 == 1) != p
  | .state3 => fld d 0 2 == 3

/-- What the destination receives: the word, extended (R347). -/
def watchResult (w : Watch) (d : Dword) : ReplyVal :=
  match w with
  | .cmp _ sx false _ => res64 (if sx then (loW d).signExtend 64 else (loW d).zeroExtend 64)
  | _ => res64 d

/-- Register a watcher for the issuing fragment: the comparison is tested at registration; an evictable one takes a
monitor (R191, R346, R347). -/
def State.watch (s : State) (cx : Cx) (d : BitVec 8) (m : Monitor) : State × List Hold × Go :=
  let s := s.watchRead m
  match s.watched m with
  | .error v => s.syncStop cx d false v
  | .ok w =>
    if watchHolds m.watch w then s.syncStop cx d false (watchResult m.watch w)
    else if m.held && !s.monitorFree m.place.loc then s.syncStop cx d false (.bad 0x38 0x06 m.va)
    else ({ s with monitors := s.monitors ++ [m] }, [], .block (if m.held then .monitor else .obj))

/-- OBJ.WAIT, without or with .EV (R346). -/
def State.objWait (s : State) (i : Instr) (h : Hdr) (b : MemBody) (ev : Bool) : Out :=
  s.issue (legal i) h (syncUses h b false ++ scDest h.dest 1) fun s cx =>
    if !s.allDone cx.sid cx.act then (s, [], .stall) else
    let s := s.clearEvent cx.sid (memSpecials b)
    match cx.eaData b with
    | .error t => s.syncStop cx h.dest false (.tok t)
    | .ok (a, p) =>
      match s.translate (s.whoOf cx.sid) .read a with
      | (s, .error c) => s.syncStop cx h.dest false (.bad c 0x02 a)
      | (s, .ok pl) =>
        let s := s.objTouch cx.sid pl
        match s.objRead pl a with
        | .error v => s.syncStop cx h.dest false v
        | .ok _ => s.watch cx h.dest ⟨cx.sid, cx.idx, ev, a, pl, .phase (p.getLsbD 0), h.dest⟩

/-- OBJ.WAIT (R346). -/
def execObjWait (h : Hdr) (b : MemBody) (s : State) : Out := s.objWait (.objWait h b) h b false

/-- OBJ.WAIT.EV (R346). -/
def execObjWaitEv (h : Hdr) (b : MemBody) (s : State) : Out := s.objWait (.objWaitEv h b) h b true

/-- Register the wait of WAITC or JOIN on a word of `size` bytes at an address (R347, R362). -/
def State.waitWord (s : State) (cx : Cx) (d : BitVec 8) (a : Dword) (size : Nat) (w : Watch) : State × List Hold × Go :=
  if a.toNat % size != 0 then s.syncStop cx d false (.bad 0x08 0x02 a)
  else
    match s.translate (s.whoOf cx.sid) .read a with
    | (s, .error c) => s.syncStop cx d false (.bad c 0x02 a)
    | (s, .ok pl) => s.watch cx d ⟨cx.sid, cx.idx, true, a, pl, w, d⟩

/-- WAITC (R347). -/
def execWaitc (h : Hdr) (b : MemBody) (s : State) : Out :=
  s.issue (legal (.waitc h b)) h (syncUses h b false ++ scDest h.dest 1) fun s cx =>
    if !s.allDone cx.sid cx.act then (s, [], .stall) else
    let s := s.clearEvent cx.sid (memSpecials b)
    match cx.eaData b with
    | .error t => s.syncStop cx h.dest false (.tok t)
    | .ok (a, v) => s.waitWord cx h.dest a (memSize b) (.cmp b.var b.sx (b.size == 3) v)

/-- End a wait: the monitor is freed, the destination written, the fragment goes on. -/
def State.endWait (s : State) (m : Monitor) (v : ReplyVal) : State :=
  let s := s.freeMonitor m
  let pc := match (s.strand m.sid).frag? m.frag with | some f => pcPlus f.pc (-1) | none => 0
  (s.lateScalar m.sid m.frag pc m.dest v).wake m.sid m.frag

/-- MONITOR_MATCH: the watched word satisfies its watcher, or is poisoned (R191, R347); a park's wait is over and it
replays at its next issue (R144). -/
def execMonitorMatch (m : Monitor) (s : State) : Out :=
  if !s.monitors.contains m then .fault .noSubject
  else
    let s := s.watchRead m
    match m.watch with
    | .state3 =>
      if watchHolds .state3 (s.getD64 m.place.loc).1 then .next (s.freeMonitor m) else .next s
    | _ =>
      match s.watched m with
      | .error v => .next (s.endWait m v)
      | .ok w => .next (if watchHolds m.watch w then s.endWait m (watchResult m.watch w) else s)

/-! ### The deadline timer (R80) -/

/-- Fire the timer: DLF is set, $deadline is 0, and the strand's evictable waits on words end with the words as last
read. -/
def State.fireDeadline (s : State) (sid : Nat) : State :=
  let s := s.modStrand sid fun st =>
    { (st.setCtl ctlEVENT (st.ctl ctlEVENT ||| 1)).setCtl ctlDLINE 0 with due := false }
  (s.monitors.filter fun m => m.sid == sid && m.held && m.watch != .state3).foldl (fun s m =>
    let s := s.watchRead m
    s.endWait m (match s.watched m with | .ok w => watchResult m.watch w | .error v => v)) s

/-- DEADLINE_FIRE: at once while the strand holds its slot; a Slotless strand's wait has ended, and it fires at
readmission. -/
def execDeadlineFire (sid : Nat) (s : State) : Out :=
  match aget s.strands sid with
  | none => .fault .noSubject
  | some st => .next (if st.life == .slotless then s.modStrand sid fun st => { st with due := true } else s.fireDeadline sid)

/-! ### SIGNAL and FENCE (R348, R349) -/

/-- SIGNAL sends routine 0x01 with no reply, as a release (R348). -/
def execSignal (h : Hdr) (b : MemBody) (s : State) : Out :=
  s.issue (legal (.signal h b)) h (syncUses h b true) fun s cx =>
    if !s.allDone cx.sid cx.act then (s, [], .stall) else
    let s := (s.clearEvent cx.sid (memSpecials b)).showLanes cx.sid cx.act
    let stop (s : State) (e : Eff) : State × List Hold × Go :=
      let (s, hs) := s.settleEff cx.sid cx.pc [(cx.once, e)]
      (s, hs.flatMap fun h => (lanesOf cx.act).map fun l => { h with lane := l }, .next)
    match cx.eaData b with
    | .error t => stop s (.tok t)
    | .ok (a, v) =>
      if a.toNat % 8 != 0 then stop s (.bad 0x08 0x02 a)
      else
        match s.packetPlace (s.whoOf cx.sid) false a with
        | (s, .error c) => stop s (.bad c 0x02 a)
        | (s, .ok p) =>
          let pk : Packet := ⟨.strand cx.sid cx.idx cx.once cx.pc [] cx.src.tick, 0x01, a, p, v, 0, b.scope, true, true, false, true,
            false, 0, [], cx.act, none⟩
          if !s.homesHold [pk] then (s, [], .stall)
          else if (s.strand cx.sid).regionOpen && s.hitsLiveIn cx.sid p.loc 8 then (s, holdAll cx.act 0x4D a, .next)
          else (s.sendPacket pk, [], .next)

/-- The kind and scope of a FENCE. -/
def fenceKind (b : AluBody) : Nat := fld b.var 0 3
def fenceScope (b : AluBody) : Nat := fld b.var 4 3

/-- FENCE waits for what the fragment's lanes have still to perform; .FULL and .REL make what they wrote seen (R172); .REC at strand
scope or wider keeps the strand's commands from the records that its engines hold (R176, R349). -/
def execFence (h : Hdr) (b : AluBody) (s : State) : Out :=
  s.issue (legal (.fence h b)) h [] fun s cx =>
    let k := s.coreOf cx.sid
    if !s.allDone cx.sid cx.frag.mask then (s, [], .stall)
    else if fenceKind b = 4 then
      (if fenceScope b = 0 then s
        else
          { s with
            recCache := s.recCache.map fun r =>
              if r.engine = 2 * k || r.engine = 2 * k + 1 || r.engine = 1024 then { r with barred := cx.sid :: r.barred } else r },
        [], .next)
    else if (fenceKind b = 0 || fenceKind b = 2) && fenceScope b != 0 then (s.showLanes cx.sid cx.frag.mask, [], .next)
    else (s, [], .next)

end Sys2Proof.Machine
end

