-- ==== Sys2Proof/Machine/Region.lean ====
section
/-! DEFINITION. Regions and commit (R139 to R146, R350, R351), the commit park and its end (R144), and taking a held trap (R149, R150). -/
namespace Sys2Proof.Machine

/-! ### Shared operations -/

/-- The requirement of R139: the issuing fragment holds every lane that has not exited and is not held, and a region is, or
is not, open. -/
def regionUse (st : Strand) (f : Frag) (wantOpen : Bool) : Bool :=
  st.fragLanes &&& ~~~f.mask == 0 && st.regionOpen == wantOpen

/-- The issuing fragment breaks the requirement. -/
def State.misuse (s : State) (wantOpen : Bool) : Bool :=
  match s.issuer with
  | some (sid, _, f) => !regionUse (s.strand sid) f wantOpen
  | none => false

/-- A live-set record: LIVEV in four doublewords, LIVES, LIVEX (R223). -/
structure LiveSet where
  v : List Dword
  s : Dword
  x : Dword
  deriving DecidableEq, Repr

/-- Registers a live set names. -/
def LiveSet.vecs (l : LiveSet) : List Nat := (List.range 256).filter fun k => fld (l.v.getD (k / 64) 0) (k % 64) 1 == 1
def LiveSet.scs (l : LiveSet) : List Nat := (List.range 64).filter fun n => fld l.s n 1 == 1
def LiveSet.preds (l : LiveSet) : List Nat := (List.range 15).filter fun n => fld l.x n 1 == 1
def LiveSet.tiles (l : LiveSet) : List Nat := (List.range 16).filter fun t => fld l.x (16 + t) 1 == 1

/-- LIVEX bit 15 or one of bits 63..32 is set (R351). -/
def LiveSet.reserved (l : LiveSet) : Bool := fld l.x 15 1 == 1 || fld l.x 32 32 != 0

/-- The set names a register beyond the budget (R351). -/
def LiveSet.over (l : LiveSet) (st : Strand) : Bool :=
  let b := st.ctl ctlBUDGET
  l.vecs.any (fun k => decide (8 * fld b 0 6 ≤ k)) || l.scs.any (fun n => decide (fld b 8 7 ≤ n))
    || l.tiles.any (fun t => decide (fld b 16 5 ≤ t))

/-- Read the live-set record at sL: the set, or the token of a poisoned operand or read (R351). -/
def State.readLiveSet (s : State) (cx : Cx) (o : Operand) : State × Except Word LiveSet :=
  let a := cx.src.readOp cx.sid cx.once true o
  match a.tok with
  | some t => (s, .error t)
  | none =>
    match s.loadDwords cx.sid cx.once a.v 6 with
    | (s, .ok ds) => (s, .ok ⟨ds.take 4, ds.getD 4 0, ds.getD 5 0⟩)
    | (s, .error v) =>
      match s.settle1 cx.sid cx.pc (some cx.once) v with
      | (s, .tok t) => (s, .error t)
      | (s, _) => (s, .error 0)

/-- Write the region state of an opening: start, number, live-in set (R139, R141). -/
def Strand.openRegion (st : Strand) (start : Dword) (rid : Nat) (l : LiveSet) : Strand :=
  let st := st.setCtl ctlRSTART start
  let st := (l.v.zipIdx).foldl (fun st d => st.setCtl (ctlLIVEV + 8 * d.2) d.1) st
  let st := (st.setCtl ctlLIVES l.s).setCtl ctlLIVEX l.x
  let st := (st.setRstate 48 16 rid).setRstate 20 4 0
  ((st.setRstate 0 1 1).setRstate 1 1 (b2n (st.tstate == 1))).setRstate 2 1 0

/-! ### RGN.OPEN (R139, R351) -/

/-- RGN.OPEN: what stops it holds every lane of the fragment (assumption 120). -/
def execRgnOpen (h : Hdr) (b : AluBody) (s : State) : Out :=
  let bad := s.misuse false
  s.issue (legal (.rgnOpen h b)) h (if bad then [] else opUse b.a 1 h.lua true) fun s cx =>
    if bad then (s, holdAll cx.frag.mask 0x4B 0, .next)
    else
      match s.readLiveSet cx b.a with
      | (s, .error _) => (s, holdAll cx.frag.mask 0x47 0, .next)
      | (s, .ok l) =>
        if l.reserved then (s, holdAll cx.frag.mask 0x4B 0, .next)
        else if l.over (s.strand cx.sid) then (s, holdAll cx.frag.mask 0x46 0, .next)
        else
          (s.modStrand cx.sid fun st => st.openRegion cx.nextPc (fld (Check.immOf b) 0 16) l, [], .next)

/-! ### COMMIT (R142, R143) -/

/-- The image words of accumulator elements of a tile in row-major order: the token of each poisoned live element. -/
def Strand.tileToks (st : Strand) (t : Nat) : List Word :=
  (List.range 1024).filterMap fun e =>
    let i := e / 32
    let j := e % 32
    let lv (w : ImgWord) : Option Word := if w.live && w.mark then some w.data else none
    (lv (st.word (accLo st t i j))).or ((lv (st.word (accLo st t i j + 1))).or (lv (st.word (accHi st t i j))))

/-- A word is live, of a predicate word the bit of some lane that has not exited (R81, R84). -/
def Strand.liveAt (st : Strand) (i : Nat) : Bool :=
  (st.word i).live &&
    (match aget st.deadBits i with
     | none => true
     | some d => maskWord st.liveLanes ((i - st.predIx 0 0) % 4) &&& ~~~d != 0)

/-- The marked live words among image words. -/
def Strand.poisonedAt (st : Strand) (is : List Nat) : List Nat := is.filter fun i => st.liveAt i && (st.word i).mark

/-- The words of a tile's elements. -/
def Strand.tileWords (st : Strand) (t : Nat) : List Nat :=
  (List.range 1024).flatMap fun e =>
    [accLo st t (e / 32) (e % 32), accLo st t (e / 32) (e % 32) + 1, accHi st t (e / 32) (e % 32)]

/-- The tiles of a set that a search reads (R142). -/
def Strand.searchTiles (st : Strand) (l : LiveSet) : List Nat := l.tiles.filter fun t => st.accMode t != 0

/-- The register words a search reads: vectors, scalars and predicates of the set, non-exited lanes only (R142). -/
def Strand.searchWords (st : Strand) (l : LiveSet) : List Nat :=
  let m := st.liveLanes
  (l.vecs.flatMap fun k => (lanesOf m).map fun x => st.vecIx k x)
    ++ (l.scs.flatMap fun n => [st.scIx n, st.scIx n + 1])
    ++ (l.preds.flatMap fun n => ((List.range 4).filter fun q => maskWord m q != 0).map fun q => st.predIx n q)

/-- The token of the held trap, when one is held (R126, R148). -/
def Strand.trapTok (st : Strand) : Option Word :=
  if st.tstate = 1 then
    some (mkTok (BitVec.ofNat 8 (fld (st.ctl ctlTSTAT) 24 8)) 0x0E (fld (st.ctl ctlTSTAT) 48 16))
  else none

/-- Every live poison of the search, in the order of R142; registers are not searched when the set could not be read. -/
def Strand.livePoison (st : Strand) (l : Except Word LiveSet) : List Word :=
  let regs := match l with
    | .error t => [t]
    | .ok l => (st.poisonedAt (st.searchWords l)).map (fun i => (st.word i).data)
        ++ ((st.searchTiles l).flatMap st.tileToks)
  regs ++ st.trapTok.toList ++ st.locket.filterMap entryTok

/-- Note what a COMMIT found as consumed (R136). -/
def State.eatFound (s : State) (sid : Nat) (l : Except Word LiveSet) : State :=
  match l with
  | .error _ => s
  | .ok l =>
    let st := s.strand sid
    (st.poisonedAt (st.searchWords l ++ (st.searchTiles l).flatMap st.tileWords)).foldl (fun s i => s.eatWord sid i) s

/-- Something of the strand is in flight: accesses, commands, tiles or replies. -/
def State.inFlight (s : State) (sid : Nat) : Bool :=
  !(s.unperformed sid).isEmpty || s.copyQ.any (fun c => c.sid == sid) || s.gatherQ.any (fun c => c.sid == sid)
    || s.collQ.any (fun c => c.sid == sid) || s.tileOps.any (fun t => t.sid == sid) || s.replies.any (fun r => r.sid == sid)

/-- An earlier instruction of the strand has not completed (R142 step 1). -/
def State.earlierPending (s : State) (sid : Nat) : Bool := !(s.strand sid).pend.isEmpty || s.inFlight sid

/-- The address and place of an image word of a strand. -/
def Strand.wordPlace (st : Strand) (i : Nat) : Place :=
  let o := (st.base.toNat + 4 * i) - st.base.toNat / 65536 * 65536
  ⟨.mem (st.frames.getD (o / 65536) 0 * 65536 + o % 65536), 1, false⟩

/-- The token's record counts as the strand's own (R144). -/
def Strand.ownRecord (st : Strand) (t : Word) : Bool :=
  let slot := tokRecord t % 256
  let d := st.dw (st.recIx slot)
  tokRecord t != 0xFFFF && fld d 48 16 == tokRecord t && fld d 24 8 == (tokCause t).toNat
    && fld d 16 8 == (tokOrigin t).toNat && (st.recState slot == 1 || st.recState slot == 2)

/-- Set the STATE of a record. -/
def Strand.setRecState (st : Strand) (slot v : Nat) : Strand :=
  st.setDw (st.recIx slot) (setFld (st.dw (st.recIx slot)) 0 2 v)

/-- Clear DEFTRAP where a trap is held: a region that the handler of a trap runs leaves it as it is (R149). -/
def Strand.endTrap (st : Strand) : Strand := if st.tstate = 1 then st.clearTrap else st

/-- Park on a token (R144): pin its record or a new one, post a fault queue entry, wait for STATE 3. DESIGN CHOICE: with every slot
pinned no record can be made, and the park uses slot 255, which RECORD 0xFFFF gives (assumption 103). -/
def State.park (s : State) (cx : Cx) (t : Word) : State :=
  let (s, t) :=
    if (s.strand cx.sid).ownRecord t then (s, t)
    else s.record cx.sid (RecInfo.mk (tokCause t) (tokOrigin t) cx.pc 0 none none true false)
  let slot := tokRecord t % 256
  let s := s.modStrand cx.sid fun st => ((st.setRecState slot 2).setRstate 8 8 slot).setRstate 2 1 1
  let st := s.strand cx.sid
  let r := st.recWords slot
  let va := st.wordVa (st.recIx slot)
  let s := s.fqPost 1 (fqEntry 1 st.ctx (tokOrigin t) (tokCause t) (r.getD 1 0) (r.getD 2 0) va r)
  let pl := st.wordPlace (st.recIx slot)
  let s := { s with monitors := s.monitors ++ [Monitor.mk cx.sid cx.idx (s.monitorFree pl.loc) va pl .state3 0] }
  s.modStrand cx.sid fun st =>
    match st.frag? cx.idx with
    | some f => st.setFrag cx.idx { Frag.fresh s.clock f.mask cx.pc f.grp with wait := .commitPark }
    | none => st

/-- The destination of a COMMIT: written only once the region has closed, so that live-in protection does not apply. -/
def commitUses (h : Hdr) (b : CtlBody) : List Use :=
  opUse b.a 1 h.lua true ++ (if h.dest.toNat < 0x40 then [⟨.sc, h.dest.toNat, 1, false, false, false, 15⟩] else [])

/-- What a COMMIT gives its destination. -/
def State.commitDest (s : State) (cx : Cx) (d : BitVec 8) (v : Dword) : State := (s.putScalarDest cx d (res64 v)).1

/-- Nothing was found: release, close, and with .R reopen at the next unit (R142, R143). -/
def State.commitRelease (s : State) (cx : Cx) (d : BitVec 8) (reopen : Bool) : State :=
  let s := s.release cx.sid
  let s := s.modStrand cx.sid fun st =>
    let st := st.closeRegion.setRstate 20 4 0
    if reopen then (st.setCtl ctlRSTART cx.nextPc).setRstate 0 1 1 else st
  s.commitDest cx d 0

/-- Poison was found in recovery mode (R142): every non-exited lane goes on at the recovery PC as one fragment, after the
checks of a transfer. -/
def State.commitRecover (s : State) (cx : Cx) (h : Hdr) (b : CtlBody) (toks : List Word) : State :=
  let s := s.dropLocket cx.sid
  let all := (s.strand cx.sid).liveLanes
  let s := s.modStrand cx.sid fun st => (st.closeRegion).endTrap
  let v := mk64 [(0, (toks.headD 0).toNat), (32, min 0xFFFF toks.length)]
  let s := s.commitDest cx h.dest v
  let s := s.modStrand cx.sid fun st => st.rejoinAll s.clock all cx.pc
  let t := dispPc cx.pc b
  match s.checkTarget cx.sid t ⟨cx.pc, true, 0, 0⟩ with
  | (s, .ok due) => s.modStrand cx.sid fun st =>
      st.goto s.clock 0 [⟨all, t, if due then some ⟨cx.pc, true, 0, 0, all, none⟩ else none⟩] none
  | (s, .error c) => s.hold cx.sid 0 cx.pc (holdAll all c t)

/-- COMMIT in all its forms: what stops it holds every lane of the fragment (assumption 120). -/
def State.commit (s : State) (i : Instr) (h : Hdr) (b : CtlBody) (parks reopen : Bool) : Out :=
  let bad := s.misuse true
  s.issue (legal i) h (if bad then [] else commitUses h b) fun s cx =>
    if bad then (s, holdAll cx.frag.mask 0x4B 0, .next)
    else if s.earlierPending cx.sid then (s, [], .stall)
    else
      let s := s.drainStrand cx.sid
      let (s, l) := s.readLiveSet cx b.a
      let res := match l with | .ok l => l.reserved | .error _ => false
      let ovr := match l with | .ok l => l.over (s.strand cx.sid) | .error _ => false
      if res then (s, holdAll cx.frag.mask 0x4B 0, .next)
      else if ovr then (s, holdAll cx.frag.mask 0x46 0, .next)
      else
        match (s.strand cx.sid).livePoison l with
        | [] => (s.commitRelease cx h.dest reopen, [], .next)
        | t :: ts =>
          let s := s.eatFound cx.sid l
          if !parks then (s.commitRecover cx h b (t :: ts), [], .own)
          else if (s.strand cx.sid).rstate 20 4 = 15 then ((s.dropLocket cx.sid).contain cx.sid 0x54 0 cx.pc none, [], .own)
          else ((s.dropLocket cx.sid).park cx t, [], .own)

/-- COMMIT, recovery mode (R142). -/
def execCommit (h : Hdr) (b : CtlBody) (s : State) : Out := s.commit (.commit h b) h b false false
/-- COMMIT.PARK (R142). -/
def execCommitPark (h : Hdr) (b : CtlBody) (s : State) : Out := s.commit (.commitPark h b) h b true false
/-- COMMIT.R, recovery mode (R143). -/
def execCommitR (h : Hdr) (b : CtlBody) (s : State) : Out := s.commit (.commitR h b) h b false true
/-- COMMIT.R.PARK (R143). -/
def execCommitRPark (h : Hdr) (b : CtlBody) (s : State) : Out := s.commit (.commitRPark h b) h b true true

/-- RGN.DROP (R143). -/
def execRgnDrop (h : Hdr) (b : CtlBody) (s : State) : Out :=
  let bad := s.misuse true
  s.issue (legal (.rgnDrop h b)) h [] fun s cx =>
    if bad then (s, holdAll cx.frag.mask 0x4B 0, .next)
    else ((s.dropLocket cx.sid).modStrand cx.sid fun st => st.closeRegion.setRstate 20 4 0, [], .next)

/-! ### Ends of parks and held traps -/

/-- The pinned record of a parked strand has STATE 3 (R144). -/
def Strand.parkServed (st : Strand) : Bool := st.rstate 2 1 == 1 && st.recState (st.rstate 8 8) == 3

/-- COMMIT_PARK_END: the region replays from its start (R144). -/
def execCommitParkEnd (sid : Nat) (s : State) : Out :=
  match aget s.strands sid with
  | none => .fault .noSubject
  | some st =>
    if !st.parkServed then .next s
    else
      let s := (s.monitors.filter fun m => m.sid == sid && m.watch == .state3).foldl State.freeMonitor s
      .next (s.modStrand sid fun st =>
        let all := st.liveLanes
        let st := (st.setRecState (st.rstate 8 8) 0).endTrap
        let st := ((st.setRstate 2 1 0).setRstate 1 1 0).setRstate 0 1 1
        let st := st.setRstate 20 4 (st.rstate 20 4 + 1)
        st.rejoinAll s.clock all (st.ctl ctlRSTART))

/-- HELD_TRAP_TAKEN (R149, R150). -/
def execHeldTrapTaken (sid : Nat) (s : State) : Out :=
  match aget s.strands sid with
  | none => .fault .noSubject
  | some st => .next (if st.trapDue then s.takeTrap sid else s)

end Sys2Proof.Machine
end

