-- ==== Sys2Proof/Machine/Engines.lean ====
section
/-! DEFINITION. Engine commands (R352 to R356): their issue, tensor shape records (R353), what each engine does with a command, the
collective combination, and AQRY. -/
namespace Sys2Proof.Machine

/-! ### Issue (R352) -/

/-- The value of a command's source: a scalar, or 0. -/
def Cx.asySrc (cx : Cx) (o : Operand) : Src := cx.src.readOp cx.sid cx.once true o

/-- Which sources a command has: A, the object B, and C (R355). -/
def cmdReads (b : AsyBody) : EngOp → Bool × Bool × Bool
  | .copy => (true, true, !b.tv)
  | .copyFrom => (false, true, true)
  | .fill => (true, true, !b.tv)
  | .pref => (true, false, false)
  | _ => (true, true, true)

/-- A source that a command has, or 0. -/
def Cx.cmdSrc (cx : Cx) (used : Bool) (o : Operand) : Src := if used then cx.asySrc o else .ok 0

/-- The uses of a command's sources. -/
def cmdUses (h : Hdr) (b : AsyBody) (op : EngOp) : List Use :=
  let r := cmdReads b op
  (if r.1 then opUse b.a 1 h.lua true else []) ++ (if r.2.1 then opUse b.b 1 h.lub true else [])
    ++ if r.2.2 then opUse b.c 1 h.luc true else []

/-- The number of an engine: copy and gather engine of a core, and the collective engine. -/
def State.engineOf (s : State) (c : Cmd) : Nat :=
  let k := s.coreOf c.sid
  match c.op with
  | .gather => 2 * k + 1
  | .scatter => 2 * k + 1
  | .coll => 1024
  | _ => 2 * k

/-- The engine's queue, and its room (R352). -/
def State.queueFull (s : State) (sid : Nat) (op : EngOp) : Bool :=
  let k := s.coreOf sid
  match op with
  | .coll => 256 ≤ s.collQ.length
  | .gather => 32 ≤ (s.gatherQ.filter fun c => s.coreOf c.sid == k).length
  | .scatter => 32 ≤ (s.gatherQ.filter fun c => s.coreOf c.sid == k).length
  | _ => 32 ≤ (s.copyQ.filter fun c => s.coreOf c.sid == k).length

def State.pushCmd (s : State) (c : Cmd) : State :=
  match c.op with
  | .coll => { s with collQ := s.collQ ++ [c] }
  | .gather => { s with gatherQ := s.gatherQ ++ [c] }
  | .scatter => { s with gatherQ := s.gatherQ ++ [c] }
  | _ => { s with copyQ := s.copyQ ++ [c] }

def State.dropCmd (s : State) (c : Cmd) : State :=
  { s with copyQ := s.copyQ.erase c, gatherQ := s.gatherQ.erase c, collQ := s.collQ.erase c }

/-- Origin of an engine's faults (R354). -/
def engOrigin (op : EngOp) : BitVec 8 := if op == .coll then 0x08 else 0x07

/-- The tile operand is the source. -/
def tileSource : EngOp → Bool
  | .copyFrom => true
  | .scatter => true
  | _ => false

/-- Issue a command (R176, R352, R355): a full queue, a busy tile or an access of the fragment that has still to be performed makes
the fragment wait; poison is not issued. -/
def State.command (s : State) (i : Instr) (h : Hdr) (b : AsyBody) (op : EngOp) : Out :=
  s.issue (legal i) h (cmdUses h b op) fun s cx =>
    let r := cmdReads b op
    let va := cx.cmdSrc r.1 b.a
    let vb := cx.cmdSrc r.2.1 b.b
    let vc := cx.cmdSrc r.2.2 b.c
    let blk := (s.strand cx.sid).blk
    let t := b.tile.toNat
    if s.queueFull cx.sid op || (b.tv && s.tileBusy blk t) || !s.allDone cx.sid cx.frag.mask then (s, [], .stall)
    else
      let s := s.showLanes cx.sid cx.frag.mask
      match (va.tok.or (vb.tok.or vc.tok)) with
      | some k =>
        let (s, hs) := s.poisonEffect cx (.tok k)
        (s, hs, .next)
      | none =>
        if b.tv && (s.tileAt blk t).st == .empty then
          let (s, hs) := s.poisonEffect cx (.bad 0x0E (engOrigin op) 0)
          (s, hs, .next)
        else
          let s := if b.tv then s.tileState blk t (if tileSource op then .draining else .filling) else s
          (s.pushCmd ⟨op, cx.sid, cx.idx, cx.pc, va.v, vb.v, vc.v, r.2.1 && b.b != .zero, if b.tv then some t else none, b.scope,
            b.var, none⟩,
            [], .next)

def execAcopy (h : Hdr) (b : AsyBody) (s : State) : Out :=
  s.command (.acopy h b) h b (if b.var.getLsbD 0 then .copyFrom else .copy)
def execAgath (h : Hdr) (b : AsyBody) (s : State) : Out := s.command (.agath h b) h b .gather
def execAscat (h : Hdr) (b : AsyBody) (s : State) : Out := s.command (.ascat h b) h b .scatter
def execAcoll (h : Hdr) (b : AsyBody) (s : State) : Out := s.command (.acoll h b) h b .coll
def execAfill (h : Hdr) (b : AsyBody) (s : State) : Out := s.command (.afill h b) h b .fill
def execAcopyt (h : Hdr) (b : AsyBody) (s : State) : Out := s.command (.acopyt h b) h b .copyT
def execApref (h : Hdr) (b : AsyBody) (s : State) : Out := s.command (.apref h b) h b .pref

/-- AQRY (R355). -/
def execAqry (h : Hdr) (b : AsyBody) (s : State) : Out :=
  s.issue (legal (.aqry h b)) h (scDest h.dest 1) fun s cx =>
    let n (q : List Cmd) : Nat := min 255 (q.filter fun c => c.sid == cx.sid).length
    let v := mk64 [(0, n s.copyQ), (8, n s.gatherQ), (16, n s.collQ)]
    let (s, hs) := s.putScalarDest cx h.dest (res64 v)
    (s, hs, .next)

/-! ### Tensor shape records (R353) -/

/-- A view: base, element bytes, the extents and strides as the record has them, and the rank. -/
structure View where
  base : Dword
  es : Nat
  ext : List Nat
  str : List Dword
  rank : Nat
  deriving DecidableEq, Repr

/-- The view a record's doublewords describe; none when it is invalid. -/
def parseView (d : List Dword) : Option View :=
  let form := d.getD 1 0
  let es := 2 ^ fld form 0 2
  let rank := fld form 4 2 + 1
  let base := d.getD 0 0
  let ext := [fld (d.getD 2 0) 0 32, fld (d.getD 2 0) 32 32, fld (d.getD 3 0) 0 32, fld (d.getD 3 0) 32 32]
  let str := [0, d.getD 4 0, d.getD 5 0, d.getD 6 0]
  let tag := fld base 56 8
  let dims := (List.range 4).all fun i =>
    if i < rank then ext.getD i 0 != 0 else ext.getD i 0 == 0 && (i == 0 || str.getD i 0 == 0)
  if form &&& ~~~0x33#64 != 0 || d.getD 7 0 != 0 || !(tag == 0 || tag == 0xFD || tag == 0xFE)
      || base.toNat % es != 0 || !dims then none
  else some ⟨base, es, ext, str, rank⟩

/-- The extent of a dimension, 1 at or beyond the rank. -/
def View.n (v : View) (i : Nat) : Nat := if i < v.rank then v.ext.getD i 0 else 1

/-- Elements and bytes of a view. -/
def View.count (v : View) : Nat := v.n 0 * v.n 1 * v.n 2 * v.n 3
def View.bytes (v : View) : Nat := v.es * v.count

/-- The address of an element. -/
def View.at (v : View) (i0 i1 i2 i3 : Nat) : Dword :=
  v.base + BitVec.ofNat 64 (i0 * v.es) + BitVec.ofNat 64 i1 * v.str.getD 1 0 + BitVec.ofNat 64 i2 * v.str.getD 2 0
    + BitVec.ofNat 64 i3 * v.str.getD 3 0

/-- The coordinates of element k, dimension 0 fastest. -/
def View.addr (v : View) (k : Nat) : Dword :=
  v.at (k % v.n 0) (k / v.n 0 % v.n 1) (k / (v.n 0 * v.n 1) % v.n 2) (k / (v.n 0 * v.n 1 * v.n 2))

/-- The element with coordinates 0 and 1 exchanged. -/
def View.addrT (v : View) (k : Nat) : Dword :=
  v.at (k / v.n 1 % v.n 0) (k % v.n 1) (k / (v.n 0 * v.n 1) % v.n 2) (k / (v.n 0 * v.n 1 * v.n 2))

/-- Limit of a command (R353). -/
def viewLimit : Nat := 0x7FFFFF

/-- How a command fails: a cause, with ADDR of its record, or a token of a marked record word. -/
inductive CmdFail where
  | cause (c : BitVec 8) (addr : Dword)
  | token (t : Word)
  deriving DecidableEq, Repr

/-- Records that an engine's cache holds (R176). -/
def engineRecords : Nat := 64

/-- Read a record through the engine's cache (R176, R353): a cached copy that memory no longer equals may still be used, but not by
a strand that has fenced since; a full cache loses its oldest record (assumption 13). -/
def State.readRecord (s : State) (c : Cmd) (va : Dword) : State × Except CmdFail View :=
  if va.toNat % 64 != 0 then (s, .error (.cause 0x14 va))
  else
    match s.translate (s.whoOf c.sid) .read va with
    | (s, .error k) => (s, .error (.cause k va))
    | (s, .ok p) =>
      let r := (List.range 16).foldl (fun (acc : State × List MWord) i =>
        let (s, w) := acc.1.readW (s.whoOf c.sid) (placeAdd p (4 * i))
        (s, acc.2 ++ [w])) (s, [])
      let s := r.1
      let eng := s.engineOf c
      let ctx := (s.strand c.sid).ctx
      let mine (x : RecCopy) : Bool := x.engine == eng && x.ctx == ctx && x.va == va
      let keep (x : RecCopy) (l : List RecCopy) : List RecCopy :=
        keepFirst (fun y => y.engine == eng) engineRecords (x :: l.filter fun y => !mine y)
      let held := s.recCache.find? mine
      let (s, ws) := match held with
        | some x =>
          if x.words = r.2 || (!x.barred.contains c.sid && Config.choice s.tick va.toNat % 2 = 0) then (s, x.words)
          else ({ s with recCache := keep ⟨eng, ctx, va, r.2, []⟩ s.recCache }, r.2)
        | none => ({ s with recCache := keep ⟨eng, ctx, va, r.2, []⟩ s.recCache }, r.2)
      match ws.find? MWord.mark with
      | some w => (s, .error (.token w.data))
      | none =>
        match parseView ((List.range 8).map fun i => join32 (ws.getD (2 * i) default).data (ws.getD (2 * i + 1) default).data) with
        | none => (s, .error (.cause 0x14 va))
        | some v => (s, if viewLimit < v.bytes then .error (.cause 0x15 va) else .ok v)

/-! ### Moving elements (R354) -/

/-- What a source element gives: bytes, with a token when a word of it is marked; or unreadable, or of an index out of range, with the
address of the access that says so. -/
inductive Elem where
  | val (d : Dword) (tok : Option Word)
  | unread (a : Dword)
  | index (a : Dword)
  deriving DecidableEq, Repr

/-- An engine reads one element through a generic address. -/
def State.readEl (s : State) (who : Who) (a : Dword) (es : Nat) : State × Elem :=
  if a.toNat % es != 0 then (s, .unread a)
  else
    match s.translate who .read a with
    | (s, .error _) => (s, .unread a)
    | (s, .ok p) =>
      let p0 : Place := { p with loc := p.loc.align 4 }
      let (s, lo) := s.readW who p0
      if es = 8 then
        let (s, hi) := s.readW who (placeAdd p0 4)
        (s, .val (join32 lo.data hi.data) (pairTok lo hi))
      else
        (s, .val (BitVec.ofNat 64 (lo.data.toNat / 2 ^ (8 * (a.toNat % 4)) % 2 ^ (8 * es)))
          (if lo.mark then some lo.data else none))

/-- The words of destinations to be marked when every element has been written: word place, element address, token. -/
abbrev Marks := List (Place × Dword × Word)

/-- Note a mark for each word that an element covers. -/
def addMarks (ms : Marks) (p : Place) (a : Dword) (es : Nat) (t : Word) : Marks :=
  let p0 : Place := { p with loc := p.loc.align 4 }
  let ps := if es = 8 then [p0, placeAdd p0 4] else [p0]
  ms ++ ps.map fun q => (q, a, t)

/-- Words that an engine writes: here at once, and to another device's memory as a request; false where no path leads there (R189). -/
def State.engineWrite (s : State) (c : Cmd) (a : Dword) (p : Place) (ws : List (Loc × Nat × MWord)) : State × Bool :=
  if goesOut (s.whoOf c.sid) p then
    s.sendStore ⟨some c.sid, 0, c.pc, a, s.tick, engOrigin c.op, { p with loc := p.loc.align 4 }, ws, false, []⟩
  else (ws.foldl (fun s w => s.writeW (s.whoOf c.sid) { p with loc := w.1 } w.2.1 w.2.2) s, true)

/-- Write the marks: the lowest-addressed poisoned element of a word decides. -/
def State.putMarks (s : State) (c : Cmd) (ms : Marks) : State :=
  ms.foldl (fun s m =>
    let best := ms.foldl (fun (best : Dword × Word) x =>
      if x.1 == m.1 && x.2.1.toNat < best.1.toNat then x.2 else best) m.2
    (s.engineWrite c best.1 m.1 [(m.1.loc, 15, ⟨best.2, true⟩)]).1) s

/-- Tokens of a command's faults, one record for each cause, and the first element that could not be written (R128). -/
structure Toks where
  src : Option Word
  idx : Option Word
  dst : Option Dword
  deriving DecidableEq, Repr

/-- An element could not be written. -/
def Toks.unwritten (t : Toks) (a : Dword) : Toks := { t with dst := some (t.dst.getD a) }

/-- The token of a fault of a command, whose record names the faulting access (R129; assumption 121). -/
def State.cmdTok (s : State) (c : Cmd) (cause : BitVec 8) (addr : Dword) : State × Word :=
  s.record c.sid (dataRec cause (engOrigin c.op) c.pc addr none)

/-- One element goes from a source to a destination. -/
def State.moveEl (s : State) (c : Cmd) (acc : Marks × Toks) (e : Elem) (a : Dword) (es : Nat) : State × Marks × Toks :=
  if a.toNat % es != 0 then (s, acc.1, acc.2.unwritten a)
  else
    match s.translate (s.whoOf c.sid) .write a with
    | (s, .error _) => (s, acc.1, acc.2.unwritten a)
    | (s, .ok p) =>
      match e with
      | .val d t =>
        let (s, sent) := if (regAt p.loc).isSome then (s.writeBytes (s.whoOf c.sid) a es p d, true)
          else s.engineWrite c a p (partWords (p.loc.align 4) a es d)
        (s, match t with | some t => addMarks acc.1 p a es t | none => acc.1, if sent then acc.2 else acc.2.unwritten a)
      | .unread x =>
        (match acc.2.src with
         | some t => (s, addMarks acc.1 p a es t, acc.2)
         | none =>
           let (s, t) := s.cmdTok c 0x1B x
           (s, addMarks acc.1 p a es t, { acc.2 with src := some t }))
      | .index x =>
        match acc.2.idx with
        | some t => (s, addMarks acc.1 p a es t, acc.2)
        | none =>
          let (s, t) := s.cmdTok c 0x1A x
          (s, addMarks acc.1 p a es t, { acc.2 with idx := some t })

/-! ### The collective combination (R356) -/

/-- The combination of two elements; none when invalid. -/
def combineOp (op : Nat) (w x : Nat) : Option Nat :=
  let f (t : Nat) : Option Nat := floatSum t w x
  match op with
  | 0 => some x
  | 1 => f 0
  | 2 => f 1
  | 3 => f 2
  | 4 => (floatFmt 0).encode 0 false (maxE ((floatFmt 0).decode w) ((floatFmt 0).decode x))
  | _ => some ((w + x) % 2 ^ 32)

/-- The element size an op takes; none for any (R356). -/
def combineSize (op : Nat) : Option Nat :=
  match op with
  | 0 => none
  | 2 => some 2
  | 3 => some 2
  | _ => some 4

/-- The token of an invalid combination: the home writes no record (R356). -/
def combineTok : Word := mkTok 0x20 0x08 0xFFFF

/-- Combine one element into its place, as one step at its home, on behalf of a cluster: a poisoned w keeps its token, a poisoned s
gives its own, in each word of the element (R131). -/
def State.combineAt (s : State) (clu : Option Nat) (op : Nat) (p : Place) (es : Nat) (x : Nat) (tok : Option Word) : State :=
  let p0 := p.loc.align 4
  let sh := 8 * (p.loc.off % 4)
  let s := s.homeTouch clu p .modified
  let w := s.getW p0
  let mark (t : Word) : State := if es = 8 then s.markD64 p0 t else s.putW p0 15 ⟨t, true⟩
  match (if es = 8 then pairTok w (s.getW (p0.add 4)) else if w.mark then some w.data else none).or tok with
  | some t => mark t
  | none =>
    if es = 8 then s.putD64 p0 (BitVec.ofNat 64 x)
    else
      match combineOp op (w.data.toNat / 2 ^ sh % 2 ^ (8 * es)) x with
      | none => mark combineTok
      | some r => s.putW p0 ((2 ^ es - 1) * 2 ^ (p.loc.off % 4)) ⟨BitVec.ofNat 32 (r % 2 ^ (8 * es) * 2 ^ sh), false⟩

/-- COLLECTIVE_COMBINE: one element combination at the element's home (R356). -/
def execCollectiveCombine (op : BitVec 3) (p : Place) (esize : Nat) (sv : MWord) (s : State) : Out :=
  .next (s.combineAt none op.toNat p esize (sv.data.toNat % 2 ^ (8 * esize)) (if sv.mark then some sv.data else none))

/-- An engine's operation is performed at a home (R354, R356). -/
def State.homeOp (s : State) (clu : Option Nat) (p : Place) (va : Dword) (origin : BitVec 8) (op : HomeOp) : State :=
  match op with
  | .combine o es x tok => s.combineAt clu o p es x tok
  | .complete n => (s.homeTouch clu p .modified).objComplete p va n origin
  | .mark t => (s.homeTouch clu p .modified).objPoison p t

/-- An engine's operation goes to its home: performed there at once where that is on this device, and sent to another device; false
where no path leads there (R189, R465). -/
def State.toHome (s : State) (c : Cmd) (va : Dword) (p : Place) (op : HomeOp) : State × Bool :=
  if p.loc.remote then
    match (s.giveUp (s.clusterOf c.sid) p).sendTo p.loc (.home ⟨c.sid, c.pc, s.tick, engOrigin c.op, va, p, op⟩) with
    | some s => (s, true)
    | none => (s, false)
  else (s.homeOp (s.clusterOf c.sid) p va (engOrigin c.op) op, true)

/-- One element of a collective command. -/
def State.combineEl (s : State) (c : Cmd) (acc : Toks) (e : Elem) (a : Dword) (es : Nat) : State × Toks :=
  if a.toNat % es != 0 then (s, acc.unwritten a)
  else
    match s.packetPlace (s.whoOf c.sid) false a with
    | (s, .error _) => (s, acc.unwritten a)
    | (s, .ok p) =>
      let put (s : State) (acc : Toks) (x : Nat) (t : Option Word) : State × Toks :=
        match s.toHome c a p (.combine (fld c.var 0 3) es x t) with
        | (s, true) => (s, acc)
        | (s, false) => (s, acc.unwritten a)
      match e with
      | .val d t => put s acc d.toNat t
      | .unread x =>
        (match acc.src with
         | some t => put s acc 0 (some t)
         | none =>
           let (s, t) := s.cmdTok c 0x1B x
           put s { acc with src := some t } 0 (some t))
      | .index _ => (s, acc)

/-! ### Performing a command -/

/-- What a command moves: element size, and for each element its source and destination address; `pat` is AFILL's pattern,
`idx` marks elements whose index is out of range. -/
structure Moves where
  es : Nat
  count : Nat
  src : Nat → Option Dword
  dst : Nat → Option Dword
  pat : Option Dword

/-- The address of byte k of a tile's rows through the block window. -/
def tileWin (d : Dword) (k : Nat) : Dword := 0xFE00000000000000 + BitVec.ofNat 64 (tileSoff d + k)

/-- A view and a tile entry match (R355). -/
def tileMatches (v : View) (d : Dword) : Bool :=
  v.n 0 * v.es == tileRowBytes d && v.n 1 * v.n 2 * v.n 3 == tileRows d

/-- Two views have the same element size and extents (R355, R373). -/
def sameShape (v w : View) : Bool := v.es == w.es && v.ext == w.ext && v.rank == w.rank

/-- Two views are of transposed shape. -/
def transShape (v w : View) : Bool :=
  v.es == w.es && v.rank == w.rank && 2 ≤ v.rank && v.ext.getD 0 0 == w.ext.getD 1 0 && v.ext.getD 1 0 == w.ext.getD 0 0
    && v.ext.drop 2 == w.ext.drop 2

/-- The records a command reads: its source view's address and its destination view's. -/
def cmdRecs (c : Cmd) : Option Dword × Option Dword :=
  match c.op with
  | .copy => (some c.a, if c.tile.isSome then none else some c.c)
  | .copyFrom => (none, some c.c)
  | .gather => (some c.a, none)
  | .scatter => (none, some c.a)
  | .coll => (some c.a, some c.c)
  | .fill => (none, if c.tile.isSome then none else some c.c)
  | .copyT => (some c.a, some c.c)
  | .pref => (some c.a, none)

/-- A record that a command may lack. -/
def State.optRecord (s : State) (c : Cmd) (va : Option Dword) : State × Except CmdFail (Option View) :=
  match va with
  | none => (s, .ok none)
  | some a =>
    match s.readRecord c a with
    | (s, .ok v) => (s, .ok (some v))
    | (s, .error e) => (s, .error e)

/-- The checks of a command with its records read (R354 to R356, R373), in order; none when it may proceed. -/
def cmdCheck (c : Cmd) (sv wv : Option View) (tile : Option TileEntry) : Option (BitVec 8) :=
  let bad := match tile with | some t => t.bad | none => false
  let d := (tile.map TileEntry.desc).getD 0
  let whole (v : Option View) : Bool := match v with | some v => tileMatches v d | none => false
  let rows (v : Option View) : Bool := match v with
    | some v => v.rank == 2 && v.n 0 * v.es == tileRowBytes d | none => false
  let both (f : View → View → Bool) : Bool := match sv, wv with | some v, some w => f v w | _, _ => false
  let shape := match c.op with
    | .copy => if tile.isSome then whole sv else both sameShape
    | .copyFrom => whole wv
    | .gather => rows sv
    | .scatter => rows wv
    | .coll => both sameShape
    | .fill => true
    | .copyT => both transShape
    | .pref => true
  if bad then some 0x0D
  else if !shape then some 0x14
  else if c.op == .coll then
    match combineSize (fld c.var 0 3) with
    | some n => if (wv.map View.es) == some n then none else some 0x15
    | none => none
  else none

/-- An element of W of a collective command lies in another device's memory, and SCOPE does not reach it (R356). -/
def State.collScope (s : State) (c : Cmd) (wv : Option View) : Bool :=
  match c.op, wv with
  | .coll, some v =>
    c.scope.toNat < 6 && (List.range v.count).any fun k =>
      match (s.translate (s.whoOf c.sid) .write (v.addr k)).2 with
      | .ok p => p.loc.remote
      | .error _ => false
  | _, _ => false

/-- An index of AGATH or ASCAT: its value, or an unreadable source (R355). -/
def State.readIndex (s : State) (c : Cmd) (i : Nat) : State × Elem :=
  s.readEl (s.whoOf c.sid) (c.c + BitVec.ofNat 64 (4 * i)) 4

/-- Put a poison entry of a command into its strand's locket; a full locket holds the fragment's lanes (R137). -/
def State.cmdEntry (s : State) (c : Cmd) (t : Word) : State :=
  let (s, hs) := s.poisonEntries c.sid c.pc [(0, t)]
  if hs.isEmpty then s
  else
    match (s.strand c.sid).frag? c.frag with
    | some f => s.hold c.sid c.frag c.pc ((lanesOf f.mask).map fun l => ⟨l, 0x4C, 0⟩)
    | none => s

/-- The object a command names: its place; or the cause for which the command fails without it (R354). -/
def State.cmdObject (s : State) (c : Cmd) : State × Except (BitVec 8) (Option Place) :=
  if !c.hasObj then (s, .ok none)
  else
    match s.packetPlace (s.whoOf c.sid) false c.b with
    | (s, .error k) => (s, .error k)
    | (s, .ok p) =>
      match s.objRead p c.b with
      | .error (.bad 0x39 _ _) => (s, .error 0x39)
      | _ => (s, .ok (some p))

/-- A command ends: it leaves its queue, and its tile is ready again. -/
def State.cmdDone (s : State) (c : Cmd) : State :=
  let s := s.dropCmd c
  match c.tile with
  | some t => s.tileState (s.strand c.sid).blk t .ready
  | none => s

/-- Elements of the destination of a command. -/
def cmdElems (c : Cmd) (sv wv : Option View) (d : Dword) : Nat × Nat :=
  match c.op, sv, wv with
  | .fill, _, none => (8, tileBytes d / 8)
  | _, some v, _ => (v.es, match c.op with | .gather => tileBytes d / v.es | _ => v.count)
  | _, none, some w => (w.es, match c.op with | .scatter => tileBytes d / w.es | _ => w.count)
  | _, none, none => (1, 0)

/-- Element k's source value and destination address; a destination of none is not written (R355). -/
def State.element (s : State) (c : Cmd) (sv wv : Option View) (d : Dword) (es k : Nat) : State × Elem × Option Dword :=
  let who := s.whoOf c.sid
  let from_ (a : Dword) (dest : Option Dword) : State × Elem × Option Dword :=
    let (s, e) := s.readEl who a es
    (s, e, dest)
  let sa (g : View → Nat → Dword) : Dword := match sv with | some v => g v k | none => 0
  let wa (g : View → Nat → Dword) : Dword := match wv with | some v => g v k | none => 0
  match c.op with
  | .copy => from_ (sa View.addr) (some (if wv.isSome then wa View.addr else tileWin d (k * es)))
  | .copyFrom => from_ (tileWin d (k * es)) (some (wa View.addr))
  | .copyT => from_ (sa View.addr) (some (match wv with | some w => w.addrT k | none => 0))
  | .coll => from_ (sa View.addr) (some (wa View.addr))
  | .fill => (s, .val c.a none, some (if wv.isSome then wa View.addr else tileWin d (k * es)))
  | .pref => (s, .unread 0, none)
  | .gather =>
    let row := k * es / tileRowBytes d
    let dest := some (tileWin d (k * es))
    (match s.readIndex c row, sv with
     | (s, .val i none), some v => if v.n 1 ≤ i.toNat then (s, .index (c.c + BitVec.ofNat 64 (4 * row)), dest)
         else
           let (s, e) := s.readEl who (v.at (k - row * (tileRowBytes d / es)) i.toNat 0 0) es
           (s, e, dest)
     | (s, .val _ (some t)), _ => (s, .val 0 (some t), dest)
     | (s, _), _ => (s, .unread (c.c + BitVec.ofNat 64 (4 * row)), dest))
  | .scatter =>
    let row := k * es / tileRowBytes d
    match s.readIndex c row, wv with
    | (s, .val i none), some w => if w.n 1 ≤ i.toNat then (s, .index (c.c + BitVec.ofNat 64 (4 * row)), none)
        else
          let (s, e) := s.readEl who (tileWin d (k * es)) es
          (s, e, some (w.at (k - row * (tileRowBytes d / es)) i.toNat 0 0))
    | (s, .val _ (some t)), _ => (s, .val 0 (some t), none)
    | (s, _), _ => (s, .unread (c.c + BitVec.ofNat 64 (4 * row)), none)

/-- A poison entry for rows that ASCAT did not write: an index out of range, an unreadable or a marked index word. -/
def State.missedRow (s : State) (c : Cmd) (e : Elem) : State :=
  match e with
  | .index a =>
    let (s, t) := s.cmdTok c 0x1A a
    s.cmdEntry c t
  | .unread a =>
    let (s, t) := s.cmdTok c 0x1B a
    s.cmdEntry c t
  | .val _ (some t) => s.cmdEntry c t
  | .val _ none => s

/-- Two rows are missed for one reason. -/
def Elem.sameMiss : Elem → Elem → Bool
  | .index _, .index _ => true
  | .unread _, .unread _ => true
  | .val _ t, .val _ u => t == u
  | _, _ => false

/-- A command fails whole (R354): nothing is written, the object takes the token, one poison entry enters the locket. -/
def State.cmdFail (s : State) (c : Cmd) (obj : Option Place) (f : CmdFail) : State :=
  let (s, t) := match f with
    | .token t => (s, t)
    | .cause k a => s.cmdTok c k a
  let s := match obj with
    | some p => (s.toHome c c.b p (.mark t)).1
    | none => s
  (s.cmdEntry c t).cmdDone c

/-- Requests of a command are under way to other devices: those under its number. -/
def State.cmdOut (s : State) (c : Cmd) (tag : Nat) : Bool :=
  s.outReqs.any fun q => !q.done &&
    match q.what with
    | .store w => w.sid == some c.sid && w.tag == tag && engineOrigin w.origin
    | .home o => o.sid == c.sid && o.tag == tag
    | _ => false

/-- All the writes of a command have been performed: it Completes its object with the destination's byte count, and ends (R354). -/
def State.cmdComplete (s : State) (c : Cmd) (obj : Option Place) (n : Nat) : State :=
  (match obj with
   | some p => (s.toHome c c.b p (.complete n)).1
   | none => s).cmdDone c

/-- Move every element of a command that passed its checks; it Completes its object once all of them have been performed. -/
def State.cmdPerform (s : State) (c : Cmd) (sv wv : Option View) (d : Dword) (obj : Option Place) : State :=
  let (es, n) := cmdElems c sv wv d
  let comb := c.op == .coll
  let r := (List.range n).foldl (fun (acc : State × Marks × Toks × List Elem) k =>
    let (s, e, dest) := acc.1.element c sv wv d es k
    match dest with
    | none => (s, acc.2.1, acc.2.2.1, if acc.2.2.2.any e.sameMiss then acc.2.2.2 else acc.2.2.2 ++ [e])
    | some a =>
      if comb then
        let (s, ts) := s.combineEl c acc.2.2.1 e a es
        (s, acc.2.1, ts, acc.2.2.2)
      else
        let (s, ms, ts) := s.moveEl c (acc.2.1, acc.2.2.1) e a es
        (s, ms, ts, acc.2.2.2)) (s, [], ⟨none, none, none⟩, [])
  let s := r.1.putMarks c r.2.1
  let s := r.2.2.2.foldl (fun s e => s.missedRow c e) s
  let s := match r.2.2.1.dst with
    | some a =>
      let (s, t) := s.cmdTok c 0x1C a
      s.cmdEntry c t
    | none => s
  if s.cmdOut c s.tick then (s.dropCmd c).pushCmd { c with sent := some (s.tick, obj, es * n) } else s.cmdComplete c obj (es * n)

/-- Perform a command (R354). -/
def State.performCmd (s : State) (c : Cmd) : State :=
  let blk := (s.strand c.sid).blk
  let tile := c.tile.map fun t => s.tileAt blk t
  let d := (tile.map TileEntry.desc).getD 0
  if c.op == .pref then s.cmdDone c
  else
    match s.cmdObject c with
    | (s, .error k) =>
      let (s, t) := s.cmdTok c k c.b
      (s.cmdEntry c t).cmdDone c
    | (s, .ok obj) =>
      match s.optRecord c (cmdRecs c).1 with
      | (s, .error f) => s.cmdFail c obj f
      | (s, .ok sv) =>
        match s.optRecord c (cmdRecs c).2 with
        | (s, .error f) => s.cmdFail c obj f
        | (s, .ok wv) =>
          match cmdCheck c sv wv tile with
          | some k => s.cmdFail c obj (.cause k 0)
          | none =>
            if s.collScope c wv then s.cmdFail c obj (.cause 0x14 0) else s.cmdPerform c sv wv d obj

/-- A command goes on: it does what it does, or where its writes have been sent it Completes its object once all of them have been
performed. -/
def State.runCmd (s : State) (c : Cmd) : State :=
  match c.sent with
  | none => s.performCmd c
  | some (tag, obj, n) => if s.cmdOut c tag then s else s.cmdComplete c obj n

/-- ENGINE_COMPLETE (R354). -/
def execEngineComplete (c : Cmd) (s : State) : Out :=
  .next (if (aget s.strands c.sid).isNone then s.dropCmd c else s.runCmd c)

/-! ### Requests at another device's home (R189) -/

/-- A store of a lane is over: the tokens of its instruction's late faults may go. -/
def State.endStore (s : State) (w : RemStore) : State := match w.sid with | some sid => s.endTag sid w.tag | none => s

/-- Words of a store of this device are performed at their places in another device's memory; post windows take none as memory. -/
def State.performStore (s : State) (w : RemStore) : State :=
  let s := w.words.foldl (fun s x => if (s.awayWindow x.1).isSome then s else s.putW x.1 x.2.1 x.2.2) s
  match w.sid with
  | some sid => s.countReqs sid w.reqs w.place.loc
  | none => s

/-- A home of another device performs a request of this one: a packet on the line it names, an arrival, a store, or a tile store as one
access. A post that the other device's table refuses, a whole row of a tile store, fails with 0x3C (R178, R189, R410; assumptions
61 and 95). -/
def State.serveRemote (s : State) (q : OutReq) : Out :=
  let s := s.staleReqs q.what.target
  let refused (row : Bool) : Bool :=
    match q.what.target, s.awayWindow q.what.target with
    | .rem d _, some n => row && s.postRefusedBy d n
    | _, _ => false
  let done := { s with outReqs := s.outReqs.filter fun x => x.id != q.id }
  let fail (s : State) : State := (s.outReqs.find? fun x => x.id == q.id).elim s fun x => s.failReq x 0x3C
  match q.what with
  | .packet p => if onOneLine p then s.performPacket p else .next s
  | .store w => .next (if refused w.row then fail s else (done.performStore w).endStore w)
  | .arrival a =>
    let (t, v) := (done.homeTouch none a.place .modified).objArrive a.place a.va a.bytes.toNat
    .next (t.answerArrival a v)
  | .home o => .next ((done.homeOp none o.place o.va o.origin o.op).endTag o.sid o.tag)
  | .tile t =>
    if t.load then .next s
    else if refused (tileIsPost t) then .next (fail s)
    else .next ((t.places.zip t.data).foldl (fun (s : State) (x : Place × MWord) =>
      if (s.awayWindow x.1.loc).isSome then s else s.putW x.1.loc 15 x.2) done)

/-- Requests that a home of another device may perform now. -/
def State.servable (s : State) : List OutReq :=
  s.outReqs.filter fun q => !q.done &&
    (match q.what with
     | .packet p => onOneLine p
     | .store _ => true
     | .arrival _ => true
     | .home _ => true
     | .tile t => !t.load)

end Sys2Proof.Machine
end

