-- ==== Sys2Proof/Machine/Grids.lean ====
section
/-! DEFINITION. Launch records and grids: validation (R357, R424), acceptance and its journal entries (R409, R452), rejection and
completion (R358), sending Halo messages (R466), cancelling (R363). -/
namespace Sys2Proof.Machine

/-! ### Accesses of a context -/

/-- The place of an address in a context's translation. -/
def State.ctxPlace (s : State) (ctx : Nat) (kind : AccessKind) (a : Dword) : State × Option Place :=
  match s.translate (s.whoCtx ctx) kind a with
  | (s, .ok p) => (s, some p)
  | (s, .error _) => (s, none)

/-- Read an aligned word in a context's translation; none when it cannot be read or is poisoned. -/
def State.ctxWord (s : State) (ctx : Nat) (a : Dword) : State × Option Word :=
  match s.ctxPlace ctx .read a with
  | (s, none) => (s, none)
  | (s, some p) =>
    let w := s.getW p.loc
    (s, if w.mark then none else some w.data)

/-- Consecutive words; none when one of them is. -/
def State.ctxWords (s : State) (ctx : Nat) (a : Dword) : Nat → State × Option (List Word)
  | 0 => (s, some [])
  | n + 1 =>
    match s.ctxWord ctx a with
    | (s, none) => (s, none)
    | (s, some w) =>
      match s.ctxWords ctx (a + 4) n with
      | (s, some r) => (s, some (w :: r))
      | (s, none) => (s, none)

/-- Words as doublewords. -/
def pairUp : List Word → List Dword
  | a :: b :: r => join32 a b :: pairUp r
  | _ => []

/-- Write doublewords; the first that cannot be written is logged with the address of the whole (R358). -/
def State.ctxWriteAll (s : State) (ctx : Nat) (a : Dword) (ds : List Dword) : State :=
  let r := (ds.zipIdx).foldl (fun (acc : State × Bool) d =>
    let (s, ok) := acc.1.ctxWrite ctx (a + BitVec.ofNat 64 (8 * d.2)) d.1
    (s, acc.2 && ok)) (s, true)
  if r.2 then r.1 else r.1.report ctx r.1.did 0x5B a

/-! ### Descriptors (R375, R376, R430) -/

/-- Doublewords of a descriptor. -/
def dPTROOT : Nat := 1
def dIPOOL : Nat := 4
def dIPCFG : Nat := 5
def dSAVEB : Nat := 6
def dSAVESZ : Nat := 7
def dGANG : Nat := 8
def dGMEM : Nat := 9
def dCRUN : Nat := 10

/-- The descriptor of a context in memory. -/
def State.descMem (s : State) (c : Nat) : List Dword :=
  (List.range 16).map fun i => (s.getD64 (.mem ((s.reg rDCTXB).toNat + 128 * c + 8 * i))).1

/-- A descriptor that may be switched in: VALID, its own index, no reserved bit set (R376). -/
def descOk (c : Nat) (d : List Dword) : Bool :=
  let g (i : Nat) : Dword := d.getD i 0
  let f := g 0
  fld f 63 1 == 1 && fld f 0 12 == c && fld f 12 32 == 0
    && fld (g dPTROOT) 0 12 == 0 && fld (g dPTROOT) 52 12 == 0
    && fld (g dIPCFG) 7 9 == 0 && fld (g dIPCFG) 32 32 == 0
    && fld (g dGANG) 16 16 == 0 && fld (g dGANG) 42 21 == 0
    && ((List.range 5).all fun i => g (11 + i) == 0)

/-- Bytes of an image slot, and slots of the pool (R430). -/
def State.slotBytes (s : State) (c : Nat) : Nat := 4096 * fld (s.desc c dIPCFG) 0 7
def State.slotCount (s : State) (c : Nat) : Nat := fld (s.desc c dIPCFG) 16 16

/-! ### Validation (R357) -/

/-- The budget word of a record, and the image it needs (R65, R75). -/
def rcdBUDGET (r : List Dword) : Dword := r.getD 5 0
def rcdImage (r : List Dword) : Nat := imageBytes (8 * fld (rcdBUDGET r) 0 6) (fld (rcdBUDGET r) 16 5)

def budgetOk (b : Dword) : Bool :=
  b &&& ~~~0x001F7F3F#64 == 0 && 1 ≤ fld b 0 6 && fld b 0 6 ≤ 32 && 1 ≤ fld b 8 7 && fld b 8 7 ≤ 64 && fld b 16 5 ≤ 16

/-- The parts of R357's list that the record alone decides. -/
def recordOk (pod : Bool) (r : List Dword) : Bool :=
  let g (i : Nat) : Dword := r.getD i 0
  g 3 &&& 0xFFFC0C0000E0F0E0#64 == 0 && fld (g 4) 32 32 == 0 && fld (g 8) 32 32 == 0
    && ((List.range 4).all fun i => g (12 + i) == 0)
    && 1 ≤ rcdW r && rcdW r ≤ 16 && 1 ≤ rcdH r && rcdH r ≤ 8 && rcdW r * rcdH r ≤ 24
    && 1 ≤ rcdN r && rcdN r * (rcdW r * rcdH r) < 2 ^ 32
    && 1 ≤ rcdSPB r && rcdSPB r ≤ 16 && rcdSPKIB r ≤ 768 && budgetOk (rcdBUDGET r)
    && !pcInvalid (g 0) && (g 6).toNat % 8 == 0 && (g 7).toNat % 8 == 0 && (g 9).toNat % 8 == 0 && (g 11).toNat % 32 == 0
    && (if pod then rcdSPAN r == 2 && g 9 != 0 else rcdSPAN r ≤ 1 && g 9 == 0)

/-- The members that the words of a share table name, with their shares, in ascending order (R424). -/
def shareMembers : Option Nat → List Word → Option (List (Nat × Nat))
  | _, [] => some []
  | prev, w :: r =>
    let d := fld w 0 10
    let later := match prev with | some p => decide (p < d) | none => true
    if fld w 10 6 = 0 && 1 ≤ fld w 16 16 && later then (shareMembers (some d) r).map fun l => (d, fld w 16 16) :: l
    else none

/-- Read a share table in a context's translation (R424). -/
def State.shareTable (s : State) (ctx : Nat) (a : Dword) : State × Option (List (Nat × Nat)) :=
  match s.ctxWords ctx a 2 with
  | (s, some [m, z]) =>
    if z != 0 || m.toNat = 0 || 1024 < m.toNat then (s, none)
    else
      match s.ctxWords ctx (a + 8) m.toNat with
      | (s, some ws) => (s, shareMembers none ws)
      | (s, none) => (s, none)
  | (s, _) => (s, none)

/-- A record is valid for a context (R357, R376, R420, R424). -/
def State.recordValid (s : State) (ctx : Nat) (pod : Bool) (r : List Dword) : State × Bool :=
  if !recordOk pod r || !descOk ctx ((List.range 16).map fun i => if i = dCRUN then 0 else s.desc ctx i)
      || s.slotBytes ctx < rcdImage r then (s, false)
  else if pod then
    match s.shareTable ctx (r.getD 9 0) with
    | (s, t) => (s, t.isSome)
  else (s, true)

/-- The range of a member under R425: its first neighbourhood and how many. -/
def dealRange (n : Nat) (ms : List (Nat × Nat)) (dev : Nat) : Nat × Nat :=
  let t := (ms.map (·.2)).sum
  let before := ((ms.filter fun m => m.1 < dev).map (·.2)).sum
  let own := ((ms.filter fun m => m.1 == dev).map (·.2)).sum
  (n * before / t, n * (before + own) / t - n * before / t)

/-! ### Journal entries of launches (R452) -/

/-- An entry for a launch. -/
def State.jLaunch (s : State) (g : Grid) (state cause blocks : Nat) : State :=
  s.journal { kind := 1, state := state, ctx := g.ctx, src := g.src, queue := g.queue, note := 0, cause := cause,
              lseq := some g.lseq, grid := g.rcd.getD 2 0, lowCount := g.seq, highCount := blocks, aux := 0 }

/-- The accepted entry, and the grid that carries its number. -/
def State.jAccept (s : State) (g : Grid) (va : Dword) : State × Grid :=
  let g := { g with lseq := if s.regF rJSTAT 0 1 = 1 then (s.reg rJTAIL).toNat else 0 }
  (s.journal { kind := 1, state := 1, ctx := g.ctx, src := g.src, queue := g.queue, note := 0, cause := 0,
               lseq := none, grid := g.rcd.getD 2 0, lowCount := g.seq, highCount := 0, aux := va }, g)

/-! ### Completion and rejection (R358) -/

/-- The 16-bit counts of a pod grid's record, four in a doubleword (R427). -/
def causeHalves (cs : List (Nat × Nat)) : List Dword :=
  (List.range 32).map fun i =>
    mk64 ((List.range 4).map fun j => (16 * j, min 0xFFFF ((aget cs (4 * i + j)).getD 0)))

/-- What completion writes: the state, the blocks, the events and the first of them. -/
structure Ending where
  cstate : Nat
  blocks : Nat
  events : Nat
  first : Dword
  causes : List (Nat × Nat)
  pod : Bool

/-- The completion record (R358, R427). -/
def State.writeCrec (s : State) (ctx : Nat) (r : List Dword) (e : Ending) : State :=
  let a := r.getD 11 0
  if a = 0 then s
  else
    let s := s.ctxWriteAll ctx a [mk64 [(0, e.cstate), (32, min 0xFFFFFFFF e.events)], BitVec.ofNat 64 e.blocks, e.first,
      BitVec.ofNat 64 s.ptime]
    if e.pod then s.ctxWriteAll ctx (a + 32) (causeHalves e.causes) else s

/-- The DONE add: skipped and logged when it cannot be made (R358). -/
def State.addDone (s : State) (ctx : Nat) (r : List Dword) : State :=
  let a := r.getD 6 0
  if a = 0 then s
  else
    match s.ctxAdd ctx a 1 with
    | (s, some _) => s
    | (s, none) => s.report ctx s.did 0x5B a

/-- The journal state and cause of an ending (R452). -/
def Ending.journal (e : Ending) : Nat × Nat :=
  if e.cstate = 1 then (3, 0) else if e.cstate = 2 then (4, 0) else if e.cstate = 3 then (5, fld e.first 0 7) else (5, 0x5B)

/-- End a launch: record, final journal entry, DONE, and for a rejection the report (R358, R452). `ctx` makes the writes. -/
def State.endLaunch (s : State) (ctx : Nat) (g : Grid) (e : Ending) : State :=
  let s := s.writeCrec ctx g.rcd e
  let s := s.jLaunch g e.journal.1 e.journal.2 e.blocks
  let s := s.addDone ctx g.rcd
  if e.cstate = 4 then s.report ctx s.did 0x5B 0 else s

/-- Reject a launch (R358). -/
def State.reject (s : State) (ctx : Nat) (g : Grid) : State := s.endLaunch ctx g ⟨4, 0, 0, 0, [], false⟩

/-! ### Grids and the pool (R411) -/

/-- Records of the pending pool (R411). -/
def poolLimit : Nat := 4096
def State.poolRoom (s : State) : Bool := s.pool.length < poolLimit

/-- A grid that has not begun, of neighbourhoods `first` to `first + count − 1`. -/
def Grid.fresh (ctx : Nat) (r : List Dword) (cls queue src seq : Nat) : Grid :=
  { (default : Grid) with ctx := ctx, rcd := r, cls := cls, queue := queue, src := src, seq := seq, count := rcdN r }

/-- Put a grid into the pool. A range of none is complete at once, and needs no place in the pool (R426). -/
def State.poolGrid (s : State) (g : Grid) : State :=
  let n := s.nextGrid
  let g := { g with next := g.first, inPool := g.count != 0 }
  { s with nextGrid := n + 1, grids := aput s.grids n g, pool := if g.count = 0 then s.pool else s.pool ++ [n] }

/-- Accept a record: journal it, validate it, and pool or reject it (R409). `va` is the record's address, or 0 for a packet;
`ok` is what else is asked of a packet; `wctx` makes the writes of a rejection. -/
def State.acceptGrid (s : State) (g : Grid) (va : Dword) (ok : Bool) (wctx : Nat) : State :=
  let (s, g) := s.jAccept g va
  match s.recordValid g.ctx false g.rcd with
  | (s, v) => if v && ok then s.poolGrid g else s.reject wctx g

/-! ### Halo (R466) -/

/-- Messages to one destination sent and not acknowledged, at most. -/
def haloLimit : Nat := 2 ^ 22

/-- A message leaves twice, on station VSEQ mod 8 and on the one 8 further (R466). -/
def State.haloCopies (s : State) (dst v : Nat) (m : HaloMsg) : State :=
  { s with outbox := s.outbox ++ [.halo dst (v % 8) v m, .halo dst (v % 8 + 8) v m] }

/-- Send a message: to this device itself it is simply received; otherwise both copies leave, unless the limit makes it
wait. -/
def State.sendHalo (s : State) (dst : Nat) (m : HaloMsg) : State :=
  if dst = s.did then { s with haloIn := s.haloIn ++ [(dst, m)] }
  else
    let v := (aget s.haloSeq dst).getD 0
    let waits := decide (haloLimit ≤ (s.haloOut.filter fun h => h.dst == dst && !h.waiting).length)
    let s := { s with
      haloSeq := aput s.haloSeq dst ((v + 1) % 2 ^ 24)
      haloOut := s.haloOut ++ [⟨dst, v, m, s.ptime, 0, waits⟩] }
    if waits then s else s.haloCopies dst v m

/-! ### Cancelling (R363, R428, R434) -/

/-- The pc that stands for a strand: of its first fragment, else of its held trap. -/
def Strand.anyPc (st : Strand) : Dword :=
  match st.frags with
  | f :: _ => f.2.pc
  | [] => st.ctl ctlTPC

/-- The strands of a grid that have not retired. -/
def State.gridStrands (s : State) (gid : Nat) : List Nat :=
  (s.strands.filter fun e => e.2.gid == gid && e.2.clasp.isNone && e.2.life != .retired).map (·.1)

/-- Drop what of a grid is not yet dispatched: its place in the pool, its offers and returns. -/
def State.dropRanges (s : State) (gid : Nat) : State :=
  let s := { s with pool := s.pool.erase gid, offers := s.offers.filter fun o => o.2.1 != gid || (s.nbhds.any fun n =>
    n.2.gid == gid && n.2.num == o.2.2.1 && n.2.out) }
  s.modGrid gid fun g => { g with cancelled := true, inPool := false, back := [] }

/-- Cancel a grid on this device (R363): with .TERM its strands are contained with cause 0x55, Out ones too (R434). -/
def State.cancelGrid (s : State) (gid : Nat) (term : Bool) : State :=
  let s := s.dropRanges gid
  if term then (s.gridStrands gid).foldl (fun s sid => s.contain sid 0x55 0 (s.strand sid).anyPc none) s else s

/-- The grids of a context with an identifier on this device that have not completed. -/
def State.gridsNamed (s : State) (ctx : Nat) (grid : Dword) : List Nat :=
  (s.grids.filter fun e => e.2.ctx == ctx && e.2.rcd.getD 2 0 == grid && !e.2.done).map (·.1)

/-- Cancel on this device every grid of a context with an identifier, records on their way to the pool included. -/
def State.cancelHere (s : State) (ctx : Nat) (grid : Dword) (term : Bool) : State :=
  let mark (r : LqRec) : LqRec := if r.ctx == ctx && r.rcd.getD 2 0 == grid && !r.pod then { r with dropped := true } else r
  (s.gridsNamed ctx grid).foldl (fun s g => s.cancelGrid g term) { s with lq := s.lq.map mark, ovf := s.ovf.map mark }

/-- A pod grid's zenith is told to cancel: later "go" turns into "drop", and every member hears of it (R428). -/
def State.cancelZenith (s : State) (ctx : Nat) (grid : Dword) (term : Bool) : State :=
  let hit (z : Zenith) : Bool := z.ctx == ctx && z.rcd.getD 2 0 == grid
  let ms := (s.zeniths.filter fun z => hit z && (term || !z.cancelled)).flatMap fun z => z.members.map (·.1)
  let stop (z : Zenith) : Zenith := if hit z && !z.cancelled then { z with cancelled := true, cancelAt := s.ptime } else z
  let s := { s with zeniths := s.zeniths.map stop }
  ms.foldl (fun s d => s.sendHalo d (.cancel ctx grid term)) s

/-- Cancel at pod scope: at the zenith, which may be on another device (R363, R428). -/
def State.cancelPod (s : State) (ctx : Nat) (grid : Dword) (term : Bool) : State :=
  let here := s.zeniths.any fun z => z.ctx == ctx && z.rcd.getD 2 0 == grid
  let mark (r : LqRec) : LqRec := if r.ctx == ctx && r.rcd.getD 2 0 == grid && r.pod then { r with dropped := true } else r
  let s := { s with lq := s.lq.map mark, ovf := s.ovf.map mark }
  if here then s.cancelZenith ctx grid term
  else
    let held := (s.podHeld.filter fun h => h.ctx == ctx && h.rcd.getD 2 0 == grid).map PodHeld.src
    let zs := (s.gridsNamed ctx grid).filterMap (fun g => (s.grid g).zenith) ++ held
    (zs.eraseDups.filter fun d => d != s.did).foldl (fun s d => s.sendHalo d (.cancel ctx grid term)) s

end Sys2Proof.Machine
end

