-- ==== Sys2Proof/Machine/Place.lean ====
section
/-! DEFINITION. Placing neighbourhoods: bitmaps and image slots (R420, R430), register images as they are made and freed (R64, R68),
which cores can take a block (R49 to R54, R415), placing, retiring, switching out and restoring (R431 to R433). -/
namespace Sys2Proof.Machine

/-! ### Bitmaps in a context's memory (R430): bit k of the map is bit k mod 32 of word k ÷ 32, 1 where taken -/

/-- The lowest clear bit of n, from word i on; none when there is none or a word cannot be read. -/
def State.lowClear (s : State) (ctx : Nat) (base : Dword) (n : Nat) : (fuel i : Nat) → State × Option Nat
  | 0, _ => (s, none)
  | fuel + 1, i =>
    if n ≤ 32 * i then (s, none)
    else
      match s.ctxWord ctx (base + BitVec.ofNat 64 (4 * i)) with
      | (s, none) => (s, none)
      | (s, some w) =>
        match (List.range 32).find? fun b => !w.getLsbD b && decide (32 * i + b < n) with
        | some b => (s, some (32 * i + b))
        | none => s.lowClear ctx base n fuel (i + 1)

/-- The lowest run of m clear bits of n; `i` is the next bit, and `run` clear bits stand before it. -/
def State.lowRun (s : State) (ctx : Nat) (base : Dword) (n m : Nat) : (fuel i run : Nat) → State × Option Nat
  | 0, _, _ => (s, none)
  | fuel + 1, i, run =>
    if m ≤ run then (s, some (i - run))
    else if n ≤ i then (s, none)
    else
      match s.ctxWord ctx (base + BitVec.ofNat 64 (4 * (i / 32))) with
      | (s, none) => (s, none)
      | (s, some w) => s.lowRun ctx base n m fuel (i + 1) (if w.getLsbD (i % 32) then 0 else run + 1)

/-- Set or clear one bit. -/
def State.setBit (s : State) (ctx : Nat) (base : Dword) (k : Nat) (v : Bool) : State :=
  match s.ctxPlace ctx .write (base + BitVec.ofNat 64 (4 * (k / 32))) with
  | (s, none) => s
  | (s, some p) =>
    let w := (s.getW p.loc).data
    let bit : Word := 1#32 <<< (k % 32)
    s.putW p.loc 15 ⟨if v then w ||| bit else w &&& ~~~bit, false⟩

/-! ### Image slots (R420) -/

/-- Take one image slot: its number. -/
def State.takeSlot (s : State) (ctx : Nat) : State × Option Nat :=
  let n := s.slotCount ctx
  match s.lowClear ctx (s.desc ctx dIPOOL) n (n / 32 + 1) 0 with
  | (s, some k) => (s.setBit ctx (s.desc ctx dIPOOL) k true, some k)
  | r => r

/-- Free an image slot. -/
def State.freeSlotNo (s : State) (ctx k : Nat) : State := s.setBit ctx (s.desc ctx dIPOOL) k false

/-- Take n slots, or none of them. -/
def State.takeSlots (s : State) (ctx : Nat) : Nat → State × Option (List Nat)
  | 0 => (s, some [])
  | n + 1 =>
    match s.takeSlot ctx with
    | (s, none) => (s, none)
    | (s, some k) =>
      match s.takeSlots ctx n with
      | (s, some ks) => (s, some (k :: ks))
      | (s, none) => (s.freeSlotNo ctx k, none)

/-- The address of an image slot, and the slot of an address (R430). -/
def State.slotBase (s : State) (ctx k : Nat) : Dword := s.desc ctx dIPOOL + 0x10000 + BitVec.ofNat 64 (k * s.slotBytes ctx)
def State.slotOfBase (s : State) (ctx : Nat) (base : Dword) : Nat :=
  (base - s.desc ctx dIPOOL - 0x10000).toNat / s.slotBytes ctx

/-! ### Register images (R64, R68) -/

/-- The frame of one page of an image: present, writable, of this device, hardware-coherent and release-consistent. -/
def State.imagePage (s : State) (ctx : Nat) (page : Nat) : State × Option Nat :=
  let a := BitVec.ofNat 64 (page * 65536)
  match s.ctxPlace ctx .read a with
  | (s, none) => (s, none)
  | (s, some _) =>
    match s.ctxPlace ctx .write a with
    | (s, some ⟨.mem pa, ord, sm⟩) => (s, if ord == 1 && !sm then some (pa / 65536) else none)
    | (s, _) => (s, none)

/-- The frames of an image's pages; none when it cannot be established. -/
def State.imageFrames (s : State) (ctx page : Nat) : Nat → State × Option (List Nat)
  | 0 => (s, some [])
  | n + 1 =>
    match s.imagePage ctx page with
    | (s, none) => (s, none)
    | (s, some f) =>
      match s.imageFrames ctx (page + 1) n with
      | (s, some fs) => (s, some (f :: fs))
      | (s, none) => (s, none)

/-- Frames of an image of `bytes` bytes at a base; an empty list when it cannot be established. -/
def State.framesOf (s : State) (ctx : Nat) (base : Dword) (bytes : Nat) : State × List Nat :=
  let p := base.toNat / 65536
  let (s, f) := s.imageFrames ctx p ((base.toNat + bytes - 1) / 65536 - p + 1)
  (s, f.getD [])

/-- A physical byte lies in the image. -/
def Strand.covers (st : Strand) (pa : Nat) : Bool :=
  (st.frames.zipIdx).any fun f =>
    f.1 == pa / 65536 &&
      (let va := (st.base.toNat / 65536 + f.2) * 65536 + pa % 65536
       decide (st.base.toNat ≤ va) && decide (va < st.base.toNat + st.bytes))

/-- The memory under an image becomes zero, whatever it held (R68). -/
def State.zeroUnder (s : State) (st : Strand) : State :=
  { s with mem := ⟨s.mem.cells.filter fun c => !st.covers c.1, s.mem.marks.filter fun c => !st.covers c.1⟩ }

/-- Write the words of an image to the memory under it. -/
def State.flushImage (s : State) (st : Strand) : State :=
  if st.frames.isEmpty then s
  else
    st.img.foldl (fun s w =>
      match (st.wordPlace w.1).loc with
      | .mem pa => { s with mem := s.mem.setWord pa 15 ⟨w.2.data, w.2.mark⟩ }
      | _ => s) s

/-- Read an image from the memory under it. -/
def State.readImage (s : State) (st : Strand) : Strand :=
  (List.range (st.bytes / 4)).foldl (fun st i =>
    match (st.wordPlace i).loc with
    | .mem pa =>
      let w := s.mem.word pa
      if w.data == 0 && !w.mark then st else st.setWord i ⟨w.data, w.mark, true, false⟩
    | _ => st) { st with img := [] }

/-- Free an image: register lines are dropped without write-back, so that memory keeps earlier values or the last ones
(R63). -/
def State.freeImage (s : State) (sid : Nat) : State :=
  let st := s.strand sid
  let s := s.countDying (s.coreOf sid) (st.img.map (·.2))
  let s := if Config.choice s.tick st.base.toNat % 2 = 0 then s.flushImage st else s
  s.modStrand sid fun st => { st with img := [], frames := [] }

/-- Lines of an image that stay in the register region, by a free choice, over what the others read as from memory. -/
def keptLines (tick : Nat) (old new : List (Nat × ImgWord)) : List (Nat × ImgWord) :=
  let kept (i : Nat) : Bool := Config.choice tick (0x640000 + i / 32) % 2 == 0
  (old.filter fun w => kept w.1).foldl (fun m w => aput m w.1 w.2) (new.filter fun w => !kept w.1)

/-- Lines of a placed strand's image move, by a free choice of the device, after its pages may have changed: through a page that no
longer is as an image page must be the strand is contained with 0x50; lines that come back from another frame hold what is there
(R64). -/
def State.moveImage (s : State) (sid : Nat) : State :=
  let st := s.strand sid
  if st.clasp.isSome || st.contained || st.life == .retired then s
  else
    let (t, fs) := s.framesOf st.ctx st.base st.bytes
    if fs == st.frames || Config.choice s.tick 64 % 2 == 0 then s
    else if fs.isEmpty then t.contain sid 0x50 0 st.anyPc none
    else
      let t := if Config.choice s.tick 65 % 2 == 0 then t.flushImage st else t
      t.modStrand sid fun st => { st with
        frames := fs
        img := keptLines s.tick st.img (t.readImage { st with frames := fs }).img }

/-! ### Which cores can take a block (R49, R54, R415) -/

/-- Fields of CRESV. -/
def State.resv (s : State) (k : Nat) : Bool := s.regF (rCRESV k) 63 1 == 1
def State.resvCtx (s : State) (k : Nat) : Nat := s.regF (rCRESV k) 48 12
def State.resvSlots (s : State) (k q : Nat) : Nat := s.regF (rCRESV k) (8 * q) 5

/-- A context's class-0 grids are placed on its reserved cores: it has a standing reservation. -/
def State.hasResv (s : State) (ctx : Nat) : Bool := (List.range 512).any fun k => s.resv k && s.resvCtx k == ctx

/-- What a block to be placed asks for. -/
structure Need where
  ctx : Nat
  cls : Nat
  /-- $strand of each strand that needs a slot -/
  nums : List Nat
  spad : Nat

/-- The block may use what the core reserves. -/
def State.usesResv (s : State) (k : Nat) (n : Need) : Bool := n.cls == 0 && s.resv k && s.resvCtx k == n.ctx

/-- Free strand slots of a partition, lowest first. DESIGN CHOICE: a strand takes the lowest free slot of its partition, and slots that
another context has reserved do not count as free (assumption 104). -/
def State.freeSlots (s : State) (k q : Nat) : List Nat :=
  let used := s.slotsUsed k q
  (List.range 16).filter fun i => !used.contains i

/-- Slots of a partition that the reserving context's class-0 strands hold. -/
def State.resvHeld (s : State) (k q : Nat) : Nat :=
  (s.strands.filter fun e =>
    s.coreOf e.1 == k && e.2.ctx == s.resvCtx k && (s.grid e.2.gid).cls == 0
      && (match e.2.slot with | some (p, _) => p == q | none => false)).length

/-- Free slots of a partition that a block may have. -/
def State.slotsFor (s : State) (k q : Nat) (n : Need) : List Nat :=
  let f := s.freeSlots k q
  if s.resv k && !s.usesResv k n then f.take (f.length - (s.resvSlots k q - s.resvHeld k q)) else f

/-- Strands of a block that fall to partition q with p0 as the start (R49). -/
def shareOf (p0 q : Nat) (nums : List Nat) : Nat := (nums.filter fun i => (p0 + i) % 4 == q).length

/-- The starting partition: every partition can take its share; the most free slots; the lowest (R49). -/
def State.startPart (s : State) (k : Nat) (n : Need) : Option Nat :=
  let ok := (List.range 4).filter fun p0 => (List.range 4).all fun q =>
    decide (shareOf p0 q n.nums ≤ (s.slotsFor k q n).length)
  let best := ok.foldl (fun m p => max m (s.slotsFor k p n).length) 0
  ok.find? fun p => (s.slotsFor k p n).length == best

/-- The place for a scratchpad partition on a core (R50). DESIGN CHOICE: the lowest free one, with reserved scratchpad kept at the top
(assumption 104). -/
def State.spadPlace (s : State) (k : Nat) (n : Need) : Option Nat :=
  let held := s.coreBlocks k
  let top := s.spadBytes k - (if s.resv k && !s.usesResv k n then 4096 * s.regF (rCRESV k) 40 8 else 0)
  let free (a : Nat) : Bool := decide (a + n.spad ≤ top) && held.all fun b =>
    decide (a + n.spad ≤ b.2.spadBase) || decide (b.2.spadBase + b.2.spadBytes ≤ a) || b.2.spadBytes == 0
  let starts := (0 :: held.map fun b => b.2.spadBase + b.2.spadBytes).filter free
  match starts with
  | [] => none
  | a :: as => some (as.foldl min a)

/-- The evictable waits: JOIN and WAITC, a commit park, and a park on a fetch fault (R51). -/
def Wait.evictable : Wait → Bool
  | .monitor => true
  | .commitPark => true
  | .fetchPark _ => true
  | _ => false

/-- The wait of a Slotless strand has ended. -/
def Strand.waitOver (st : Strand) : Bool :=
  st.life == .slotless && (st.due || st.parkServed || st.frags.any fun f => !f.2.wait.evictable)

/-- A Slotless strand of the core whose wait has ended waits for a slot (R51). -/
def State.dueOn (s : State) (k : Nat) : Bool := s.strands.any fun e => e.2.waitOver && s.coreOf e.1 == k

/-- A core can take a block but for its strand slots (R51, R386, R404, R405, R415). -/
def State.coreRoom (s : State) (k : Nat) (n : Need) : Bool :=
  let part := s.ctxPart n.ctx
  s.partValid part && s.coreInPart k part && s.regF (rDPSTAT part) 1 1 == 0
    && s.regF (rCSTORE k) 31 1 == 0 && decide ((s.coreBlocks k).length < 16) && !s.dueOn k
    && (n.cls != 0 || !s.hasResv n.ctx || s.usesResv k n) && (s.spadPlace k n).isSome

/-- A core can take a block (R49). -/
def State.coreFits (s : State) (k : Nat) (n : Need) : Bool := s.coreRoom k n && (s.startPart k n).isSome

/-- The cores of a rectangle, in the order of $block (R53). -/
def rectCores (clu col row w h : Nat) : List Nat :=
  (List.range h).flatMap fun y => (List.range w).map fun x => clu * 128 + (row + y) * 16 + (col + x)

/-- Every core of a rectangle can take its block; nothing is asked where none is to be placed. -/
def State.rectFits (s : State) (clu col row w h : Nat) (ns : List (Option Need)) : Bool :=
  decide (col + w ≤ 16) && decide (row + h ≤ 8)
    && ((rectCores clu col row w h).zip ns).all fun x => match x.2 with | some n => s.coreFits x.1 n | none => true

/-- The first corner that qualifies, by row, then by column (R54). -/
def State.findRect (s : State) (clu w h : Nat) (ns : List (Option Need)) : Option (Nat × Nat) :=
  ((List.range 8).flatMap fun r => (List.range 16).map fun c => (c, r)).find? fun x => s.rectFits clu x.1 x.2 w h ns

/-- The needs of the blocks of a new neighbourhood. -/
def State.gridNeeds (s : State) (gid : Nat) : List (Option Need) :=
  let g := s.grid gid
  List.replicate (rcdW g.rcd * rcdH g.rcd) (some ⟨g.ctx, g.cls, List.range (rcdSPB g.rcd), 1024 * rcdSPKIB g.rcd⟩)

/-- A strand that was Slotless when it went Out returns without a slot (R433). -/
def outSlotless : Life → Bool
  | .out 2 => true
  | .out 5 => true
  | _ => false

/-- What a block that is to be restored asks for. -/
def State.outNeed (s : State) (blk : Nat) : Need :=
  let bl := s.block blk
  let g := s.grid bl.gid
  ⟨g.ctx, g.cls, bl.strands.filterMap fun sid =>
    let st := s.strand sid
    if st.life == .retired || outSlotless st.life then none else some st.num, bl.spadBytes⟩

/-- The needs of the blocks of an Out neighbourhood: a retired block, and one that found no room for its save record and stayed,
need nothing. -/
def State.outNeeds (s : State) (nb : Nat) : List (Option Need) :=
  (s.nbhd nb).blocks.map fun k => if (s.block k).out then some (s.outNeed k) else none

/-- A block of the neighbourhood has stayed on its core (R431): its rectangle cannot move. -/
def State.anchored (s : State) (nb : Nat) : Bool := (s.nbhd nb).blocks.any fun k => !(s.block k).out && !(s.block k).retired

/-- Where in a cluster an Out neighbourhood can be restored: on its former rectangle when that is free, else on any that fits
(R433). -/
def State.outRect (s : State) (clu nb : Nat) : Option (Nat × Nat) :=
  let b := s.nbhd nb
  let r := (s.grid b.gid).rcd
  let ns := s.outNeeds nb
  if s.rectFits b.clu b.col b.row (rcdW r) (rcdH r) ns then (if b.clu == clu then some (b.col, b.row) else none)
  else if s.anchored nb then none
  else s.findRect clu (rcdW r) (rcdH r) ns

/-- The span lets a grid run on a cluster (R57). -/
def State.spanAllows (s : State) (gid clu : Nat) : Bool :=
  let r := (s.grid gid).rcd
  rcdSPAN r != 0 || rcdCLU r == clu

/-! ### Scheduling state of the descriptor (R430) -/

/-- The context is switching out (R432). -/
def State.switchingOut (s : State) (ctx : Nat) : Bool := s.switching.any fun w => w.ctx == ctx

/-- The context is in, and not on its way out: its packets are accepted and its neighbourhoods placed (R409, R419, R434). -/
def State.ctxRuns (s : State) (ctx : Nat) : Bool :=
  (s.ctxIn ctx).isSome && !(s.switching.any fun w => w.ctx == ctx && !w.back)

/-- Keep CRUN in step: bits 1..0 out, in or switching, bits 47..32 the placed neighbourhoods. -/
def State.putCrun (s : State) (ctx : Nat) : State :=
  let n := (s.nbhds.filter fun e => (s.grid e.2.gid).ctx == ctx && !e.2.out && !e.2.retired).length
  let v := mk64 [(0, if s.switchingOut ctx then 2 else b2n (s.ctxIn ctx).isSome), (32, n % 65536)]
  s.putD64 (.mem ((s.reg rDCTXB).toNat + 128 * ctx + 8 * dCRUN)) v

/-! ### Placing a new neighbourhood (R49, R50, R68, R420) -/

/-- The lanes that work from the start (R37, R357). -/
def workMask (r : List Dword) : Lanes := BitVec.ofNat 128 (2 ^ min 128 (rcdLANES r + 1) - 1)

/-- A strand as it is created (R68): the entry's target bit is still to be checked (R195). -/
def State.newStrand (s : State) (gid blk num : Nat) (slot : Nat × Nat) (base : Dword) (frames : List Nat) : Strand :=
  let g := s.grid gid
  let b := rcdBUDGET g.rcd
  let entry := g.rcd.getD 0 0
  let st : Strand := { (default : Strand) with
    ctx := g.ctx, gid := gid, blk := blk, num := num, slot := some slot, base := base, frames := frames
    vRegs := 8 * fld b 0 6, sRegs := fld b 8 7, tiles := fld b 16 5, life := .resident
    splits := [(0, .frag { Frag.fresh s.clock (workMask g.rcd) entry none with
      due := some ⟨entry, true, 0, 0, workMask g.rcd, none⟩ })] }
  (st.setCtl ctlBUDGET b).setCtl ctlHANDLER (g.rcd.getD 10 0)

/-- Place one strand of a block in its partition; an image that cannot be established is cause 0x50 (R420). DESIGN CHOICE: of the free
slots there it takes the lowest (assumption 104). -/
def State.placeStrand (s : State) (gid blk core p0 num k : Nat) (n : Need) : State :=
  let q := (p0 + num) % 4
  let sid := s.nextStrand
  let base := s.slotBase n.ctx k
  let (s, frames) := s.framesOf n.ctx base (rcdImage (s.grid gid).rcd)
  let st := s.newStrand gid blk num (q, (s.slotsFor core q n).headD 0) base frames
  let s := { s with nextStrand := sid + 1, strands := aput s.strands sid st }
  let s := s.modBlock blk fun b => { b with strands := b.strands ++ [sid] }
  if frames.isEmpty then s.contain sid 0x50 0 ((s.grid gid).rcd.getD 0 0) none else s.zeroUnder st

/-- The named barriers of a new block (R344). -/
def freshBars (spb : Nat) : List (Nat × Barrier) := (List.range 16).map fun n => (n, ⟨0, spb, 0, []⟩)

/-- Place one block on a core, with its image slots. -/
def State.placeBlock (s : State) (gid nb num core : Nat) (slots : List Nat) (n : Need) : State :=
  let blk := s.nextBlock
  let p0 := (s.startPart core n).getD 0
  let b : Block := { (default : Block) with
    gid := gid, nbhd := nb, num := num, core := core, spadBase := (s.spadPlace core n).getD 0, spadBytes := n.spad
    bars := freshBars n.nums.length }
  let s := ({ s with nextBlock := blk + 1, blocks := aput s.blocks blk b } : State).zeroSpad core b.spadBase n.spad
  let s := s.modNbhd nb fun x => { x with blocks := x.blocks ++ [blk] }
  (n.nums.zip slots).foldl (fun s x => s.placeStrand gid blk core p0 x.1 x.2 n) s

/-- Lists of equal length cut from a list. -/
def chunks (m : Nat) (l : List Nat) : Nat → List (List Nat)
  | 0 => []
  | n + 1 => l.take m :: chunks m (l.drop m) n

/-- Place neighbourhood `idx` of a grid with its corner at a column and row; nothing happens when the strands cannot all
get image slots (R420). -/
def State.placeNew (s : State) (gid idx clu col row : Nat) : State × Bool :=
  let r := (s.grid gid).rcd
  let w := rcdW r
  let h := rcdH r
  let spb := rcdSPB r
  match s.takeSlots (s.grid gid).ctx (w * h * spb) with
  | (s, none) => (s, false)
  | (s, some ks) =>
    let ns := s.gridNeeds gid
    let nb := s.nextNbhd
    let s := { s with nextNbhd := nb + 1, nbhds := aput s.nbhds nb ⟨gid, idx, clu, col, row, [], false, false, false, 0⟩ }
    let g := s.grid gid
    let s := if g.dispatched then s else (s.jLaunch g 2 0 0).modGrid gid fun g => { g with dispatched := true }
    let s := s.modGrid gid fun g => { g with blocksPlaced := g.blocksPlaced + w * h }
    let xs := ((rectCores clu col row w h).zip (ns.filterMap id)).zip (chunks spb ks (w * h))
    let s := (xs.zipIdx).foldl (fun s x => s.placeBlock gid nb x.2 x.1.1.1 x.1.2 x.1.1.2) s
    (s.putCrun g.ctx, true)

/-! ### Save records (R431) -/

/-- Units of the save area, and its first unit (R430). -/
def State.saveCount (s : State) (ctx : Nat) : Nat := ((s.desc ctx dSAVESZ).toNat - 65536) / 4096
def State.saveUnit (s : State) (ctx k : Nat) : Dword := s.desc ctx dSAVEB + 0x10000 + BitVec.ofNat 64 (4096 * k)

/-- Units of a block's save record. -/
def saveUnits (spad : Nat) : Nat := (1024 + spad + 4095) / 4096

/-- The places of consecutive 4 KiB units; none when one is not as R64 asks. -/
def State.unitPlaces (s : State) (ctx : Nat) (a : Dword) : Nat → State × Option (List Loc)
  | 0 => (s, some [])
  | n + 1 =>
    match s.ctxPlace ctx .read a with
    | (s, none) => (s, none)
    | (s, some _) =>
      match s.ctxPlace ctx .write a with
      | (s, some ⟨.mem pa, 1, false⟩) =>
        (match s.unitPlaces ctx (a + 4096) n with
         | (s, some ls) => (s, some (.mem pa :: ls))
         | (s, none) => (s, none))
      | (s, _) => (s, none)

/-- Word i of a save record. -/
def saveLoc (ls : List Loc) (i : Nat) : Loc := (ls.getD (i / 1024) (.mem 0)).add (i % 1024 * 4)

/-- The named barrier's doubleword. -/
def barWord (b : Barrier) : Dword := mk64 [(0, b.arrived % 32), (8, b.expect % 32), (16, b.phase % 2)]

/-- The first 1 KiB of a save record. -/
def State.saveHead (s : State) (blk : Nat) : List Dword :=
  let b := s.block blk
  let base (i : Nat) : Dword :=
    match b.strands.find? fun sid => (s.strand sid).num == i with
    | some sid => (s.strand sid).base
    | none => 0
  let id := b.saved.getD ((s.grid b.gid).rcd.getD 2 0, s.blockIndex blk, b.strands.length)
  [id.1, mk64 [(0, id.2.1 % 2 ^ 32), (32, id.2.2)]]
    ++ (List.range 16).map base
    ++ (List.range 16).map (fun n => barWord ((aget b.bars n).getD default))
    ++ (List.range 64).map (fun e => tileWord (b.tile e))
    ++ List.replicate 30 0

/-- Write a block's save record at its units. -/
def State.writeSave (s : State) (blk : Nat) (ls : List Loc) : State :=
  let s := ((s.saveHead blk).zipIdx).foldl (fun s d =>
    (s.putW (saveLoc ls (2 * d.2)) 15 ⟨loW d.1, false⟩).putW (saveLoc ls (2 * d.2 + 1)) 15 ⟨hiW d.1, false⟩) s
  let b := s.block blk
  (List.range (b.spadBytes / 4)).foldl (fun s i =>
    let s := s.checkSpad (.spad blk (4 * i))
    s.putW (saveLoc ls (256 + i)) 15 (s.getW (.spad blk (4 * i)))) s

/-! ### Switching out (R432) -/

/-- What a strand has in flight completes: matrix passes, engine commands, tiles (R61, R432). -/
def State.settleWork (s : State) (sid : Nat) : State :=
  let s := s.drainStrand sid
  let s := (s.copyQ ++ s.gatherQ ++ s.collQ).foldl (fun s c => if c.sid == sid then s.runCmd c else s) s
  s.tileOps.foldl (fun s t => if t.sid == sid then (if t.load then s.fillDone t else s.drainDone t) else s) s

/-- The state that a strand leaves, as `Life.out` keeps it: 0 Resident, 2 Slotless, 3 and 5 those while Halted. -/
def leaving : Life → Nat
  | .slotless => 2
  | .halted n => if n = 2 then 5 else 3
  | _ => 0

/-- A strand goes Out: its image holds all of its state (R61); that of a Halted one holds its table already. DESIGN CHOICE: of its dirty
live lines, which may stay or be written back (R90), none is written back, so that none is clean thereby (assumption 105). -/
def Strand.goOut (st : Strand) : Strand :=
  if st.life == .retired then st
  else
    let out := { st with life := .out (leaving st.life), slot := none, lines := [] }.setCtl ctlCYCSAVE st.cycles
    match st.life with
    | .halted _ => out
    | _ => out.saveSplits

/-- Take the save units of a block (R431): the first of them, and their places; none where there is no room, which is journalled. -/
def State.takeSave (s : State) (ctx blk : Nat) : State × Option (Nat × List Loc) :=
  let m := saveUnits (s.block blk).spadBytes
  let n := s.saveCount ctx
  let fail (s : State) : State × Option (Nat × List Loc) := (s.note ctx 2 (BitVec.ofNat 64 (s.blockIndex blk)), none)
  match s.lowRun ctx (s.desc ctx dSAVEB) n m (n + 2) 0 0 with
  | (s, none) => fail s
  | (s, some k) =>
    match s.unitPlaces ctx (s.saveUnit ctx k) m with
    | (s, none) => fail s
    | (s, some ls) => ((List.range m).foldl (fun s i => s.setBit ctx (s.desc ctx dSAVEB) (k + i) true) s, some (k, ls))

/-- The strands of a block that have not retired. -/
def State.liveStrands (s : State) (blk : Nat) : List Nat := (s.block blk).strands.filter fun sid => (s.strand sid).life != .retired

/-- What the strands of a block had in flight has been performed, and the replies have landed: the block may be switched out (R61, R62,
R432 step 1). -/
def State.blockQuiet (s : State) (blk : Nat) : Bool := (s.liveStrands blk).all fun sid => !s.inFlight sid

/-- Switch one block out (R432): its strands have stopped, its save record is written, and its slots and scratchpad are freed. What its
lanes have written is seen by every agent, as after a full fence (R62). The number of strands that went Out; a block without room
for its record stays (R431). -/
def State.blockOut (s : State) (ctx blk : Nat) : State × Nat :=
  match s.takeSave ctx blk with
  | (s, none) => (s, 0)
  | (s, some (k, ls)) =>
    let sids := s.liveStrands blk
    let s := sids.foldl (fun s sid => (s.settleWork sid).showLanes sid (BitVec.allOnes 128)) s
    let b := s.block blk
    let s := ((s.writeSave blk ls).liftMarks b.core b.spadBase b.spadBytes).modBlock blk fun b =>
      { b with out := true, save := BitVec.ofNat 64 k }
    (sids.foldl (fun s sid => s.modStrand sid Strand.goOut) s, sids.length)

/-- The blocks of a context that are on their cores. -/
def State.ctxBlocks (s : State) (ctx : Nat) : List Nat :=
  (s.blocks.filter fun e => (s.grid e.2.gid).ctx == ctx && !e.2.out && !e.2.retired).map (·.1)

/-- The Out neighbourhoods of a context. -/
def State.outNbhds (s : State) (ctx : Nat) : List Nat :=
  (s.nbhds.filter fun e => (s.grid e.2.gid).ctx == ctx && e.2.out && !e.2.retired).map (·.1)

/-- Place what a cluster has been offered, if it fits; true when it was placed. A new neighbourhood, or one to be restored
(R54, R421, R433). -/
def State.placeOffered (s : State) (clu : Nat) (restore : State → Nat → Nat → Nat → Nat → State) : State × Bool :=
  match aget s.offers clu with
  | none => (s, false)
  | some (gid, idx, _) =>
    let gone (s : State) : State := { s with offers := adel s.offers clu }
    let r := (s.grid gid).rcd
    match s.nbhds.find? fun e => e.2.gid == gid && e.2.num == idx && e.2.out && !e.2.retired with
    | some (nb, _) =>
      (match s.outRect clu nb with
       | some (c, w) => (gone (restore s nb clu c w), true)
       | none => (s, false))
    | none =>
      match s.findRect clu (rcdW r) (rcdH r) (s.gridNeeds gid) with
      | none => (s, false)
      | some (c, w) =>
        match s.placeNew gid idx clu c w with
        | (s, true) => (gone s, true)
        | (s, false) => (s, false)

/-- An offer that is not taken returns to its place in the order (R421). -/
def State.withdraw (s : State) (clu : Nat) : State :=
  match aget s.offers clu with
  | none => s
  | some (gid, idx, _) =>
    let s := { s with offers := adel s.offers clu }
    if s.nbhds.any fun e => e.2.gid == gid && e.2.num == idx && e.2.out then s
    else s.modGrid gid fun g => if g.cancelled then g else { g with back := insertBy id idx g.back }

/-- A neighbourhood of the grid that has never been placed stands offered; an offer to restore one is no such (R411). -/
def State.offeredNew (s : State) (gid : Nat) : Bool :=
  s.offers.any fun o => o.2.1 == gid && !(s.nbhds.any fun n => n.2.gid == gid && n.2.num == o.2.2.1 && n.2.out)

/-- Record that every neighbourhood of a grid has been placed: it leaves the pool (R411). -/
def State.leavePool (s : State) (gid : Nat) : State :=
  let g := s.grid gid
  if g.next = g.first + g.count && g.back.isEmpty && !s.offeredNew gid then
    { s with pool := s.pool.erase gid }.modGrid gid fun g => { g with inPool := false }
  else s

/-! ### Restoring (R433) -/

/-- A block's save record as read back: its doublewords, or nothing when it cannot be read or breaks R431. -/
def saveOk (d : List Dword) : Bool :=
  fld (d.getD 1 0) 37 27 == 0
    && ((List.range 16).all fun n => d.getD (18 + n) 0 &&& ~~~0x11F1F#64 == 0)
    && ((List.range 64).all fun e =>
        let w := d.getD (34 + e) 0
        w == 0 || (fld w 24 2 == 2 && fld w 21 3 == 0))
    && ((List.range 30).all fun i => d.getD (98 + i) 0 == 0)

/-- The tile table entry of a doubleword. -/
def tileOfWord (w : Dword) : TileEntry :=
  if w = 0 then ⟨.empty, 0, false⟩ else ⟨.ready, setFld w 20 6 0, fld w 20 1 == 1⟩

/-- A barrier restored from its doubleword. -/
def barOfWord (b : Barrier) (w : Dword) : Barrier :=
  { b with phase := if b.phase % 2 = fld w 16 1 then b.phase else b.phase + 1, expect := fld w 8 5, arrived := fld w 0 5 }

/-- Free a block's save record. -/
def State.freeSave (s : State) (blk : Nat) : State :=
  let b := s.block blk
  let ctx := (s.grid b.gid).ctx
  (List.range (saveUnits b.spadBytes)).foldl (fun s i => s.setBit ctx (s.desc ctx dSAVEB) (b.save.toNat + i) false) s

/-- A restored strand's fragments wait anew (R46, R423). -/
def Strand.waitAnew (st : Strand) (now : Nat) : Strand :=
  { st with splits := st.splits.map fun e =>
      match e.2 with
      | .frag f => (e.1, .frag { f with count := 0, hit64 := 0, readyAt := now, yieldEnd := 0 })
      | .group _ => e }

/-- The life that an Out strand returns to (R433). -/
def returning : Life → Life
  | .out 2 => .slotless
  | .out 3 => .halted 0
  | .out 5 => .halted 2
  | _ => .resident

/-- A deadline that passed while the strand was Out or Halted fires as it resumes; a strand that returns Slotless is due, and it fires
at readmission (R80). -/
def State.deadlineIn (s : State) (sid : Nat) : State :=
  let st := s.strand sid
  if st.ctl ctlDLINE = 0 || s.ptime < (st.ctl ctlDLINE).toNat then s
  else if st.life == .slotless then s.modStrand sid fun st => { st with due := true }
  else s.fireDeadline sid

/-- A strand returns to the state it left, with a slot where it held one (R433). Its image is where its pages lie now; $cycles goes on
from CYCSAVE (R79), and a passed deadline fires first (R80). A Halted strand's table is read, and its deadline fires, when it is resumed (R456). -/
def State.strandIn (s : State) (sid core p0 : Nat) (base : Dword) (n : Need) : State :=
  let st := s.strand sid
  if st.life == .retired then s
  else
    let q := (p0 + st.num) % 4
    let life := returning st.life
    let slot := if outSlotless st.life then none else some (q, (s.slotsFor core q n).headD 0)
    let (s, frames) := s.framesOf st.ctx base st.bytes
    let moved := { st with base := base, frames := frames }
    let s := if base == st.base && frames == st.frames then s.setStrand sid { st with life := life, slot := slot }
      else
        let s := s.flushImage st
        s.setStrand sid { s.readImage moved with life := life, slot := slot }
    if frames.isEmpty then s.contain sid 0x50 0 st.anyPc none
    else
      let s := s.modStrand sid fun st => { st with cycles := st.ctl ctlCYCSAVE }
      if (s.strand sid).contained then s
      else
        match life with
        | .halted _ => s.modStrand sid fun st => st.waitAnew s.clock
        | _ =>
          match (s.strand sid).resume with
          | none => s.contain sid 0x51 0 st.anyPc none
          | some st => (s.setStrand sid (st.waitAnew s.clock)).deadlineIn sid

/-- Restore one block on a core. What its save record names, a changed GRID, index or count among it, is restored as written
(R431). -/
def State.blockIn (s : State) (blk core : Nat) (n : Need) : State :=
  let b := s.block blk
  let ctx := n.ctx
  let p0 := (s.startPart core n).getD 0
  let spad := (s.spadPlace core n).getD 0
  let (s, ls) := s.unitPlaces ctx (s.saveUnit ctx b.save.toNat) (saveUnits b.spadBytes)
  let ls' := ls.getD []
  let ws := (List.range 256).map fun i => s.getW (saveLoc ls' i)
  let d := pairUp (ws.map MWord.data)
  let good := ls.isSome && !(ws.any MWord.mark) && saveOk d
  let s := s.modBlock blk fun b => { b with
    out := false, core := core, spadBase := spad
    saved := if good then some (d.getD 0 0, fld (d.getD 1 0) 0 32, fld (d.getD 1 0) 32 5) else b.saved
    bars := if good then (b.bars.map fun x => (x.1, barOfWord x.2 (d.getD (18 + x.1) 0))) else b.bars
    tiles := if good then ((List.range 64).filterMap fun e =>
      let t := tileOfWord (d.getD (34 + e) 0)
      if t.st == .empty then none else some (e, t)) else b.tiles }
  let s := s.zeroSpad core spad b.spadBytes
  let s := if ls.isSome then (List.range (b.spadBytes / 4)).foldl (fun s i =>
    s.putW (.spad blk (4 * i)) 15 (s.getW (saveLoc ls' (256 + i)))) s else s
  let s := s.freeSave blk
  b.strands.foldl (fun s sid =>
    let st := s.strand sid
    let s := s.strandIn sid core p0 (if good then d.getD (2 + st.num) 0 else st.base) n
    if good then s else s.contain sid 0x51 0 st.anyPc none) s

/-- Restore an Out neighbourhood with its corner at a column and row of a cluster. -/
def State.nbhdIn (s : State) (nb clu col row : Nat) : State :=
  let b := s.nbhd nb
  let r := (s.grid b.gid).rcd
  let ns := s.outNeeds nb
  let s := ((b.blocks.zip (rectCores clu col row (rcdW r) (rcdH r))).zip ns).foldl (fun s x =>
    match x.2 with
    | some n => s.blockIn x.1.1 x.1.2 n
    | none => s) s
  (s.modNbhd nb fun x => { x with out := false, eligible := false, clu := clu, col := col, row := row }).putCrun (s.grid b.gid).ctx

/-- Place what a cluster has been offered. -/
def State.placeAt (s : State) (clu : Nat) : State × Bool :=
  let gid := match aget s.offers clu with | some o => o.1 | none => 0
  match s.placeOffered clu State.nbhdIn with
  | (s, true) => (s.leavePool gid, true)
  | r => r

/-! ### Contexts in and out (R376, R384, R432, R433) -/

/-- Offers of a context's neighbourhoods are placed, or withdrawn, before it is switched out (R434). -/
def State.placeOffers (s : State) (ctx : Nat) : State :=
  let mine := (s.offers.filter fun o => (s.grid o.2.1).ctx == ctx).map (·.1)
  mine.foldl (fun s c =>
    match s.placeAt c with
    | (s, true) => s
    | (s, false) => s.withdraw c) s

/-- Switch-out begins: offers are placed, every strand of the context has stopped, and what its strands have in flight completes
(R432 step 1). Blocks are then switched out one by one. -/
def State.switchOut (s : State) (ctx : Nat) (reply : Option Reply) (next : Option TtRec) (whole : Bool) : State :=
  let s := s.placeOffers ctx
  let s := (s.outNbhds ctx).foldl (fun (s : State) n => s.modNbhd n fun x => { x with eligible := false }) s
  let blks := s.ctxBlocks ctx
  let s := (blks.flatMap s.liveStrands).foldl State.settleWork s
  let w : Switching := ⟨ctx, blks, 0, reply, next, whole, false⟩
  { s with switching := s.switching ++ [w] }.putCrun ctx

/-- A block is still to be switched out: its strands have stopped (R432 step 1). -/
def State.stopped (s : State) (blk : Nat) : Bool := s.switching.any fun w => w.blocks.contains blk

/-- A switch-out may go on: its next block has nothing in flight, or there is none left. -/
def State.switchReady (s : State) (w : Switching) : Bool :=
  match w.blocks with
  | [] => true
  | b :: _ => (s.block b).out || (s.block b).retired || s.blockQuiet b

/-- The next block of a switch-out goes Out. With the last block of a neighbourhood the neighbourhood is Out, and eligible where the
context has been switched in again (R434). -/
def State.switchBlock (s : State) (w : Switching) : State :=
  match w.blocks with
  | [] => s
  | b :: bs =>
    let nb := (s.block b).nbhd
    let (s, n) := if (s.block b).out || (s.block b).retired then (s, 0) else s.blockOut w.ctx b
    let more := bs.any fun k => (s.block k).nbhd == nb
    let now : Switching := { w with blocks := bs, count := w.count + n }
    let s := { s with switching := s.switching.map fun x => if x == w then now else x }
    let s := if more || !((s.nbhd nb).blocks.any fun k => (s.block k).out) then s
      else s.modNbhd nb fun x => { x with out := true, eligible := w.back, order := s.tick }
    s.putCrun w.ctx

/-- A switch-out ends: the context is no longer in, unless it has been switched in again, and the issuer has its result (R384,
R432). -/
def State.switchEnd (s : State) (w : Switching) : State :=
  let s := { s with
    switching := s.switching.erase w
    ctxs := if w.back then s.ctxs else s.ctxs.filter fun c => c.id != w.ctx }
  let s := s.putCrun w.ctx
  match w.reply with
  | some r =>
    if (aget s.strands r.sid).isNone then s
    else
      let s := s.deliver { r with val := res64 (BitVec.ofNat 64 w.count) }
      (match (s.strand r.sid).frag? r.frag with
       | some f => if f.wait == .system then s.wake r.sid r.frag else s
       | none => s)
  | none => s

/-- Switch a context in: the number of neighbourhoods made eligible. A descriptor that R376 refuses, and any context before
stage 5 (R472), is not switched in. While the context is switching out, those that are Out are eligible now, and each other one as
its switch-out completes (R434). -/
def State.switchIn (s : State) (ctx : Nat) : State × Nat :=
  let d := s.descMem ctx
  if s.ctxRuns ctx || ((s.ctxIn ctx).isSome && !s.switchingOut ctx) || !descOk ctx (d.set dCRUN 0) || s.stage != 5 then (s, 0)
  else
    let s := { s with
      ctxs := s.ctxs.filter (fun (c : CtxIn) => c.id != ctx) ++ [CtxIn.mk ctx d]
      switching := s.switching.map fun (w : Switching) => if w.ctx == ctx then { w with back := true } else w }
    let ns := s.outNbhds ctx
    let s := ns.foldl (fun (s : State) n => s.modNbhd n fun x => { x with eligible := true }) s
    (s.putCrun ctx, ns.length)

end Sys2Proof.Machine
end

