-- ==== Sys2Proof/Machine/Launch.lean ====
section
/-! DEFINITION. The launch and status instructions (R360 to R364), the hint group and illegal instructions (R213). -/
namespace Sys2Proof.Machine

/-! ### Shared operations -/

/-- Records that a core's pending-launch queue holds (R361). -/
def lqLimit : Nat := 4
def State.lqOf (s : State) (k : Nat) : List LqRec := s.lq.filter fun r => r.core == k

/-- Read doublewords for a strand from memory alone, without its held bytes (R365). -/
def State.peekDwords (s : State) (sid lane : Nat) (a : Dword) : Nat → State × Except ReplyVal (List Dword)
  | 0 => (s, .ok [])
  | n + 1 =>
    match s.translate (s.whoLane sid lane) .read a with
    | (s, .error c) => (s, .error (.bad c 0x02 a))
    | (s, .ok p) =>
      match (s.drainAt sid p.loc).readPart (s.whoLane sid lane) default a 8 p with
      | (s, .words ws) =>
        (match s.peekDwords sid lane (a + 8) n with
         | (s, .ok ds) => (s, .ok (join32 (ws.getD 0 0) (ws.getD 1 0) :: ds))
         | r => r)
      | (s, v) => (s, .error v)

/-- A value that is not words, as an effect that failed. -/
def valEff : ReplyVal → Eff
  | .tok t => .tok t
  | .bad c o a => .bad c o a
  | .words _ => .done

/-- LNCH and LNCH.POD (R361): a release; the record is read at issue and waits in the core's queue; a full queue makes the fragment
wait. -/
def State.launch (s : State) (i : Instr) (h : Hdr) (b : AsyBody) (pod : Bool) : Out :=
  s.issue (legal i) h (opUse b.a 1 h.lua true) fun s cx =>
    let k := s.coreOf cx.sid
    let stop (s : State) (e : Eff) : State × List Hold × Go :=
      let (s, hs) := s.poisonEffect cx e
      (s, hs, .next)
    if lqLimit ≤ (s.lqOf k).length || !s.allDone cx.sid cx.frag.mask then (s, [], .stall)
    else
      let s := s.showLanes cx.sid cx.frag.mask
      let a := cx.asySrc b.a
      match a.tok with
      | some t => stop s (.tok t)
      | none =>
        if a.v.toNat % 128 != 0 then stop s (.bad 0x08 0x02 a.v)
        else
          match s.peekDwords cx.sid cx.once a.v 16 with
          | (s, .error v) => stop s (valEff v)
          | (s, .ok r) =>
            ({ s with lq := s.lq ++ [⟨k, (s.strand cx.sid).ctx, a.v, r, pod, s.clock, false⟩] }, [], .next)

/-! ### Meanings -/

/-- LNCH (R361). -/
def execLnch (h : Hdr) (b : AsyBody) (s : State) : Out := s.launch (.lnch h b) h b false

/-- LNCH.POD (R361, R426). -/
def execLnchPod (h : Hdr) (b : AsyBody) (s : State) : Out := s.launch (.lnchPod h b) h b true

/-- JOIN waits as WAITC.GE.D does (R362). -/
def execJoin (h : Hdr) (b : AsyBody) (s : State) : Out :=
  s.issue (legal (.join h b)) h (opUse b.a 1 h.lua false ++ opUse b.b 1 h.lub false ++ scDest h.dest 1) fun s cx =>
    let c := cx.asySrc b.a
    let t := cx.asySrc b.b
    if !s.allDone cx.sid cx.act then (s, [], .stall) else
    match c.tok.or t.tok with
    | some k => s.syncStop cx h.dest false (.tok k)
    | none => s.waitWord cx h.dest c.v 8 (.cmp 2 false true t.v)

/-- CANCEL: scope 5 on this device, scope 6 at the zenith (R363). -/
def State.cancelOp (s : State) (i : Instr) (h : Hdr) (b : AsyBody) (term : Bool) : Out :=
  s.issue (legal i) h (opUse b.a 1 h.lua true) fun s cx =>
    let g := cx.asySrc b.a
    match g.tok with
    | some t =>
      let (s, hs) := s.poisonEffect cx (.tok t)
      (s, hs, .next)
    | none =>
      let ctx := (s.strand cx.sid).ctx
      (if b.scope == 6 then s.cancelPod ctx g.v term else s.cancelHere ctx g.v term, [], .next)

/-- CANCEL (R363). -/
def execCancel (h : Hdr) (b : AsyBody) (s : State) : Out := s.cancelOp (.cancel h b) h b false

/-- CANCEL.TERM (R363). -/
def execCancelTerm (h : Hdr) (b : AsyBody) (s : State) : Out := s.cancelOp (.cancelTerm h b) h b true

/-- LREC: sixteen doubleword stores of the strand, which follow its earlier accesses as other stores do (R169, R170, R364). -/
def execLrec (h : Hdr) (b : AsyBody) (s : State) : Out :=
  s.issue (legal (.lrec h b)) h (opUse b.a 1 h.lua true) fun s cx =>
    let a := cx.asySrc b.a
    match a.tok with
    | some t =>
      let (s, hs) := s.poisonEffect cx (.tok t)
      (s, hs, .next)
    | none =>
      if s.waitsFor cx.sid cx.once a.v 128 false then (s, [], .stall) else
      let r := (s.grid (s.strand cx.sid).gid).rcd
      let (s, hs) := s.storeDwords cx a.v ((List.range 16).map fun i => r.getD i 0)
      (s, hs, .next)

/-- LSTAT (R364). -/
def execLstat (h : Hdr) (b : AsyBody) (s : State) : Out :=
  s.issue (legal (.lstat h b)) h (scDest h.dest 1) fun s cx =>
    let v := mk64 [(0, (s.lqOf (s.coreOf cx.sid)).length % 8), (8, b2n (!s.poolRoom)), (9, b2n (!s.ovf.isEmpty))]
    let (s, hs) := s.putScalarDest cx h.dest (res64 v)
    (s, hs, .next)

/-! ### Hints and illegal instructions (R213, R214) -/

/-- An instruction of group 0xE: nothing is checked, and the fragment goes on. -/
def execHint (_w : RawInsn) (s : State) : Out :=
  match s.issuer with
  | none => .fault .noIssuer
  | some (sid, idx, f) =>
    .next (s.finish sid idx f.pc [] .next)

/-- An unallocated opcode, or one of group 0xF: every lane of the fragment is held with cause 0x40. -/
def execIllegalInstruction (_w : RawInsn) (s : State) : Out :=
  match s.issuer with
  | none => .fault .noIssuer
  | some (sid, idx, f) =>
    .next (s.hold sid idx f.pc (holdAll f.mask 0x40 0))

end Sys2Proof.Machine
end

