-- ==== Sys2Proof/Machine/System.lean ====
section
/-! DEFINITION. The privileged instructions of group 0xD (R374, R380 to R384, R390, R392, R400, R437). -/
namespace Sys2Proof.Machine

/-! ### Shared operations -/

/-- The issuing strand runs at system level (R374). -/
def State.sysLevel (s : State) (sid : Nat) : Bool :=
  (s.strand sid).clasp.isSome || s.ctxSys (s.strand sid).ctx

/-- Issue a privileged instruction: at user level every lane of the fragment takes cause 0x40 (R213, R374). It follows every earlier
access of its fragment, and every agent sees what the fragment has written, as if full fences stood around it (R381). -/
def State.priv (s : State) (legal : Bool) (h : Hdr) (us : List Use)
    (eff : State → Cx → State × List Hold × Go) : Out :=
  match s.issuer with
  | none => .fault .noIssuer
  | some (sid, idx, f) =>
    let st := s.strand sid
    if !s.sysLevel sid && !st.budgetCorrupt then
      .next (s.hold sid idx f.pc (holdAll f.mask 0x40 0))
    else s.issue legal h us fun s cx =>
      if !s.allDone cx.sid cx.frag.mask then (s, [], .stall) else eff (s.showLanes cx.sid cx.frag.mask) cx

/-- A source of a privileged instruction: a scalar or 0 (R380). -/
def Cx.sysSrc (cx : Cx) (o : Operand) : Src := cx.src.readOp cx.sid cx.once true o

/-- Cause 0x41 for the whole fragment (R214). -/
def refuse41 (s : State) (cx : Cx) : State × List Hold × Go := (s, holdAll cx.frag.mask 0x41 0, .next)

/-- The instruction's result. -/
def State.sysDest (s : State) (cx : Cx) (d : BitVec 8) (v : ReplyVal) : State × List Hold × Go :=
  let (s, hs) := s.putScalarDest cx d v
  (s, hs, .next)

/-- A number as a result. -/
def State.sysNum (s : State) (cx : Cx) (d : BitVec 8) (n : Nat) : State × List Hold × Go :=
  s.sysDest cx d (res64 (BitVec.ofNat 64 n))

/-- A poisoned source where there is no DEST, or a failed effect: a poison entry (R381). -/
def State.sysStop (s : State) (cx : Cx) (e : Eff) : State × List Hold × Go :=
  let (s, hs) := s.poisonEffect cx e
  (s, hs, .next)

/-- A context may act on a target: one that is VALID, of its own partition or of any when it is MGR (R381). -/
def State.mayAct (s : State) (own tgt : Nat) : Bool :=
  s.ctxValid tgt && (s.ctxMgr own || s.ctxPart own == s.ctxPart tgt)

/-- The context that the issuing strand runs in. -/
def State.ownCtx (s : State) (cx : Cx) : Nat := (s.strand cx.sid).ctx

/-- A context number in a source. -/
def ctxOf (v : Dword) : Nat := fld v 0 12

/-- A context holds the debug right over a context, as the last TBSYNC of scope 5 put it into effect (R376, R454). -/
def State.holdsRight (s : State) (own tgt : Nat) : Bool :=
  s.ctxMgr own || (fld (s.dbgWord tgt) 60 1 == 1 && fld (s.dbgWord tgt) 44 12 == own)

/-- A context may debug another by an instruction: it holds the right, and it may act on the other at all (R381, R454). -/
def State.debugRight (s : State) (own tgt : Nat) : Bool := s.mayAct own tgt && s.holdsRight own tgt

/-- The strand of a context with an image base. -/
def State.strandNamed (s : State) (ctx : Nat) (base : Dword) : Option Nat :=
  (s.strands.find? fun e => e.2.ctx == ctx && e.2.base == base && e.2.life != .retired && e.2.clasp.isNone).map (·.1)

/-- The register uses of SRCA and SRCB. -/
def sysUses (h : Hdr) (b : SysBody) : List Use := opUse b.a 1 h.lua true ++ opUse b.b 1 h.lub true

/-! ### System registers (R382, R385) -/

/-- The register of a number, as the issuing strand's core sees it; number 0 is XCTX. -/
def State.regOfNumber (s : State) (sid n : Nat) : Option RegId :=
  let k := s.coreOf sid
  let r : Option RegId :=
    if n < 0x100 then none
    else if n < 0x200 then some (.core k (n - 0x100))
    else if n < 0x300 then some (.cluster (k / 128) (n - 0x200))
    else if n < 0x400 then some (.device (n - 0x300))
    else none
  r.filter regExists

/-- The register that the instruction at issue names. -/
def State.sregOf (s : State) (b : SysBody) : Option RegId :=
  match s.issuer with
  | some (sid, _, _) => s.regOfNumber sid b.sreg.toNat
  | none => none

/-- XCTX (R385). -/
def State.xctx (s : State) (ctx : Nat) : Dword := mk64 [(0, ctx), (12, b2n (s.ctxSys ctx))]

/-- SRD (R382). -/
def execSrd (h : Hdr) (b : SysBody) (s : State) : Out :=
  s.priv (legal (.srd h b) && (b.sreg == 0 || (s.sregOf b).isSome)) h (scDest h.dest 1) fun s cx =>
    match s.regOfNumber cx.sid b.sreg.toNat with
    | none => s.sysDest cx h.dest (res64 (s.xctx (s.ownCtx cx)))
    | some r =>
      let (s, v) := s.regRead (.ctx (s.ownCtx cx)) r
      s.sysDest cx h.dest (res64 v)

/-- SWR (R382): a register whose fields are all RO is cause 0x41. -/
def execSwr (h : Hdr) (b : SysBody) (s : State) : Out :=
  let ok := match s.sregOf b with | some r => !regReadOnly r | none => false
  s.priv (legal (.swr h b) && ok) h (sysUses h b) fun s cx =>
    let a := cx.sysSrc b.a
    match a.tok, s.regOfNumber cx.sid b.sreg.toNat with
    | some t, _ => s.sysStop cx (.tok t)
    | none, some r => (s.regWrite (.ctx (s.ownCtx cx)) r a.v, [], .next)
    | none, none => (s, [], .next)

/-! ### Translation buffers (R390) -/

/-- The cluster whose buffers a scope covers, or all. -/
def State.tbScope (s : State) (cx : Cx) (b : SysBody) : Option Nat :=
  if fld b.var 4 3 = 4 then some (s.coreOf cx.sid / 128) else none

/-- A translation of an address of a context. -/
def TlbEnt.covers (t : TlbEnt) (ctx va : Nat) : Bool := t.ctx == ctx && t.base == va / pageBytes t.level * pageBytes t.level

/-- TBINV (R390). -/
def execTbinv (h : Hdr) (b : SysBody) (s : State) : Out :=
  s.priv (legal (.tbinv h b)) h (sysUses h b) fun s cx =>
    let a := cx.sysSrc b.a
    let c := cx.sysSrc b.b
    let k := fld b.var 0 2
    match a.tok.or c.tok with
    | some t => s.sysStop cx (.tok t)
    | none =>
      if k != 2 && !s.mayAct (s.ownCtx cx) (ctxOf c.v) then refuse41 s cx
      else
        (s.tlbDrop (s.tbScope cx b) fun t =>
          if k = 0 then t.covers (ctxOf c.v) (fld a.v 0 56) else if k = 1 then t.ctx == ctxOf c.v else true, [], .next)

/-- A right that was held ends, or passes to another context. -/
def rightEnds (old new : Dword) : Bool :=
  fld old 60 1 == 1 && (fld new 60 1 == 0 || fld new 44 12 != fld old 44 12)

/-- DBGV, DBGCTX and BKPE take effect from memory at a TBSYNC of scope 5 (R376); where a right ends, Halted strands are to be
released (R458). -/
def State.refreshDebug (s : State) : State :=
  let t := { s with dbgMem := s.mem }
  let ctxs := ((s.strands.filter fun e => e.2.clasp.isNone).map fun e => e.2.ctx).eraseDups
  { t with revoked := s.revoked ++ ctxs.filter fun c => rightEnds (s.dbgWord c) (t.dbgWord c) && !s.revoked.contains c }

/-- Nothing on its way to a home uses a translation any more: packets, arrivals, tiles that drain, and what another device has still
to perform. -/
def State.translationsDone (s : State) : Bool :=
  s.packets.isEmpty && s.arrivals.isEmpty && (s.tileOps.all TileOp.load) && s.outReqs.all OutReq.done

/-- TBSYNC: every TBINV here is performed when it issues; the accesses that used a removed translation are waited for, and images
whose pages have changed may move (R64, R390). At scope 5 the debug right of every context takes effect (R376). -/
def execTbsync (h : Hdr) (b : SysBody) (s : State) : Out :=
  s.priv (legal (.tbsync h b)) h [] fun s _ =>
    if !s.translationsDone then (s, [], .stall)
    else
      let s := (s.strands.map (·.1)).foldl State.moveImage s
      (if fld b.var 4 3 = 5 then s.refreshDebug else s, [], .next)

/-! ### Contexts (R384) -/

/-- A context number as a source with a DEST: its token goes to the DEST; a context that may not be acted on is cause 0x41. -/
def State.onCtx (s : State) (cx : Cx) (b : SysBody) (d : BitVec 8) (may : Nat → Bool)
    (f : State → Nat → State × List Hold × Go) : State × List Hold × Go :=
  let a := cx.sysSrc b.a
  match a.tok with
  | some t => s.sysDest cx d (.tok t)
  | none => if may (ctxOf a.v) then f s (ctxOf a.v) else refuse41 s cx

/-- The image of a strand that has stopped holds the split table as the instruction leaves it. -/
def State.resave (s : State) (sid : Nat) : State :=
  s.modStrand sid fun st => match st.life with
    | .halted _ => st.saveSplits
    | _ => st

/-- The issuing strand's table is saved once the instruction has ended, when the instruction stopped it. -/
def State.thenResave (s : State) (o : Out) : Out :=
  match o, s.issuer with
  | .next t, some (sid, _, _) => .next (t.resave sid)
  | o, _ => o

/-- The result that an instruction of the fragment is to have when it completes (R381). -/
def Cx.later (cx : Cx) (st : Strand) (d : BitVec 8) : Reply :=
  ⟨cx.sid, cx.idx, cx.once, cx.pc, st.scalarWords d, cx.src.tick, .words [], 0, cx.act, .dreg 0⟩

/-- CTXSW.OUT (R384, R432): the fragment waits until every strand of the context is Out, and has its result then. -/
def execCtxswOut (h : Hdr) (b : SysBody) (s : State) : Out :=
  s.priv (legal (.ctxswOut h b)) h (sysUses h b ++ scDest h.dest 1) fun s cx =>
    s.onCtx cx b h.dest (s.mayAct (s.ownCtx cx)) fun s c =>
      let st := s.strand cx.sid
      let s := s.awaitWords cx.sid (st.scalarWords h.dest) cx.src.tick
      (s.switchOut c (some (cx.later st h.dest)) none false, [], .block .system)

/-- CTXSW.IN (R384, R433). -/
def execCtxswIn (h : Hdr) (b : SysBody) (s : State) : Out :=
  s.priv (legal (.ctxswIn h b)) h (sysUses h b ++ scDest h.dest 1) fun s cx =>
    s.onCtx cx b h.dest (s.mayAct (s.ownCtx cx)) fun s c =>
      let (s, n) := s.switchIn c
      s.sysNum cx h.dest n

/-! ### Halting and resuming strands (R384, R393, R456 to R458) -/

/-- The code of the state that a Halted strand returns to. -/
def haltPrev : Life → Nat
  | .slotless => 2
  | _ => 0

/-- A Halted strand returns to the state it left, with its image as edited; a table that breaks R75 is an image corruption
(R456, R457). Its fragments wait anew (R46), and a deadline that has passed meanwhile fires now (R80, R456). -/
def State.unhalt (s : State) (sid : Nat) : State :=
  let st := s.strand sid
  match st.life with
  | .halted n =>
    (match st.resume with
     | none => (s.setStrand sid { st with life := .resident }).contain sid 0x51 0 st.anyPc none
     | some st =>
       (s.setStrand sid ({ st with life := if n = 2 then .slotless else .resident }.waitAnew s.clock)).deadlineIn sid)
  | _ => s

/-- The debug right over a Halted strand has ended: it resumes, or where it is Out it will not come back Halted (R458). -/
def State.letGo (s : State) (sid : Nat) : State :=
  match (s.strand sid).life with
  | .out 3 => s.modStrand sid fun st => { st with life := .out 0 }
  | .out 5 => s.modStrand sid fun st => { st with life := .out 2 }
  | _ => s.unhalt sid

/-- Every dirty line of a strand's image is written back: words with wrong parity are found, memory has what the lines hold, and they
are clean (R87, R384). -/
def State.writeLines (s : State) (sid : Nat) : State :=
  let s := s.drainStrand sid
  let st := s.strand sid
  let s := s.checkParity sid st.anyPc (st.flips.map (·.1))
  (s.flushImage (s.strand sid)).modStrand sid fun st => { st with
    clean := (st.img.map fun w => w.1 / 32).eraseDups.foldl (fun m i => aput m i ()) st.clean }

/-- The next PC of a strand, read from its table area while it is Halted or Out. -/
def Strand.nextPc (st : Strand) : Dword :=
  match st.life with
  | .halted _ => (st.loadSplits.getD st).anyPc
  | .out _ => (st.loadSplits.getD st).anyPc
  | _ => st.anyPc

/-- The strand is Halted, or Out and to be restored so. -/
def Strand.isHalted (st : Strand) : Bool :=
  match st.life with
  | .halted _ => true
  | .out 3 => true
  | .out 5 => true
  | _ => false

/-- Halt a strand: one that is Out comes back Halted (R456). -/
def State.shalt (s : State) (sid : Nat) (pc : Dword) : State :=
  let st := s.strand sid
  match st.life with
  | .out n =>
    (s.modStrand sid fun st => { st with life := .out (if n = 2 then 5 else 3) }).dbgPost 1 st.ctx 0 pc st.base
  | l => ((s.settleWork sid).writeLines sid).halt sid 1 0 (haltPrev l) pc

/-- SHALT (R384, R456): sD is the next PC of the strand named. Poison in a source stops it before its own rules (R214). -/
def execShalt (h : Hdr) (b : SysBody) (s : State) : Out :=
  s.thenResave (s.priv (legal (.shalt h b)) h (sysUses h b ++ scDest h.dest 1) fun s cx =>
    let base := cx.sysSrc b.b
    match (cx.sysSrc b.a).tok.or base.tok with
    | some t => s.sysDest cx h.dest (.tok t)
    | none =>
      s.onCtx cx b h.dest (s.debugRight (s.ownCtx cx)) fun s c =>
        match s.strandNamed c base.v with
        | none => s.sysNum cx h.dest 0
        | some sid =>
          let st := s.strand sid
          let pc := if sid = cx.sid then cx.nextPc else st.nextPc
          (if st.isHalted then s else s.shalt sid pc).sysDest cx h.dest (res64 pc))

/-- SRESM in its three forms names a strand; poison in a source places a poison entry (R381). -/
def State.onStrand (s : State) (cx : Cx) (b : SysBody) (may : Nat → Bool) (f : State → Nat → State) :
    State × List Hold × Go :=
  let a := cx.sysSrc b.a
  let base := cx.sysSrc b.b
  match a.tok.or base.tok with
  | some t => s.sysStop cx (.tok t)
  | none =>
    if !may (ctxOf a.v) then refuse41 s cx
    else
      match s.strandNamed (ctxOf a.v) base.v with
      | some sid => (f s sid, [], .next)
      | none => (s, [], .next)

/-- SRESM (R384, R454, R457). -/
def execSresm (h : Hdr) (b : SysBody) (s : State) : Out :=
  s.priv (legal (.sresm h b)) h (sysUses h b) fun s cx =>
    s.onStrand cx b (s.debugRight (s.ownCtx cx)) State.unhalt

/-- The fragments parked on a fetch trap, with their causes. -/
def Strand.fetchParks (st : Strand) : List (Nat × Frag × BitVec 8) :=
  st.frags.filterMap fun f => match f.2.wait with | .fetchPark c => some (f.1, f.2, c) | _ => none

/-- SRESM.FETCH: every fetch park of the strand ends, and it fetches afresh (R393). -/
def execSresmFetch (h : Hdr) (b : SysBody) (s : State) : Out :=
  s.priv (legal (.sresmFetch h b)) h (sysUses h b) fun s cx =>
    s.onStrand cx b (s.mayAct (s.ownCtx cx)) fun s sid =>
      s.modStrand sid fun st => { st with lines := [] }.onTable fun st =>
        st.fetchParks.foldl (fun (st : Strand) (p : Nat × Frag × BitVec 8) =>
          st.setFrag p.1 { p.2.1 with wait := .ready, readyAt := s.clock }) st

/-- SRESM.KILL: a fetch-parked strand is contained with its fetch cause (R393). -/
def execSresmKill (h : Hdr) (b : SysBody) (s : State) : Out :=
  s.priv (legal (.sresmKill h b)) h (sysUses h b) fun s cx =>
    s.onStrand cx b (s.mayAct (s.ownCtx cx)) fun s sid =>
      match (s.strand sid).fetchParks with
      | p :: _ => s.contain sid p.2.2 0 p.2.1.pc none
      | [] => s

/-- IEVICT: every dirty line of the image is written back and stays, clean (R384). -/
def execIevict (h : Hdr) (b : SysBody) (s : State) : Out :=
  s.priv (legal (.ievict h b)) h (sysUses h b) fun s cx =>
    s.onStrand cx b (s.mayAct (s.ownCtx cx)) State.writeLines

/-! ### Physical accesses (R383) -/

/-- The place of a physical access, or its cause. -/
def State.rawPlace (s : State) (a : Dword) (size : Nat) : Except (BitVec 8) Place :=
  let o := fld a 0 52
  if a.toNat % size != 0 then .error 0x08
  else if fld a 52 4 != 0 || !(fld a 56 8 == 0 || fld a 56 8 == 0xFF) then .error 0x16
  else match s.physLoc o with
    | some l => .ok ⟨l, 0, false⟩
    | none => .error 0x16

/-- On behalf of a context, uncached, at system level. -/
def rawWho (ctx : Nat) : Who := ⟨ctx, true, none, none, 0, none⟩

/-- A register that SRD could not read, or SWR not write: none is there, or all its fields are RO (R382, R383). -/
def noRegister (l : Loc) (write : Bool) : Bool :=
  match regAt l with
  | some r => !regExists r || (write && regReadOnly r)
  | none => false

/-- Bytes that PLD and PST move. -/
def rawSize (b : SysBody) : Nat := if b.var.getLsbD 0 then 8 else 4

/-- PLD (R383). -/
def execPld (h : Hdr) (b : SysBody) (s : State) : Out :=
  s.priv (legal (.pld h b)) h (sysUses h b ++ scDest h.dest 1) fun s cx =>
    let a := cx.sysSrc b.a
    match a.tok with
    | some t => s.sysDest cx h.dest (.tok t)
    | none =>
      match s.rawPlace a.v (rawSize b) with
      | .error c => s.sysDest cx h.dest (.bad c 0x02 a.v)
      | .ok p =>
        if noRegister p.loc false then refuse41 s cx else
        let (s, v) := (s.drainAt cx.sid p.loc).readPart (rawWho (s.ownCtx cx)) default a.v (rawSize b) p
        s.sysDest cx h.dest (match v with | .words [w] => .words [w, 0] | v => v)

/-- PST (R383). -/
def execPst (h : Hdr) (b : SysBody) (s : State) : Out :=
  s.priv (legal (.pst h b)) h (sysUses h b) fun s cx =>
    let a := cx.sysSrc b.a
    let v := cx.sysSrc b.b
    match a.tok.or v.tok with
    | some t => s.sysStop cx (.tok t)
    | none =>
      match s.rawPlace a.v (rawSize b) with
      | .error c => s.sysStop cx (.bad c 0x02 a.v)
      | .ok p =>
        if noRegister p.loc true then refuse41 s cx
        else ((s.drainAt cx.sid p.loc).writeBytes (rawWho (s.ownCtx cx)) a.v (rawSize b) p v.v, [], .next)

/-! ### Coherence kinds (R400) -/

/-- The units of a conversion, when the operands are allowed. -/
def convUnits (base count : Dword) : Option (List Nat) :=
  if base.toNat % 65536 != 0 || count.toNat = 0 || 16384 < count.toNat
      || deviceBytes < base.toNat + 65536 * count.toNat then none
  else some ((List.range count.toNat).map fun i => base.toNat / 65536 + i)

/-- The copies of lines in the units. -/
def State.copiesIn (s : State) (us : List Nat) : List SmCopy :=
  s.smCopies.filter fun c => match c.loc with | .mem pa => us.contains (pa / 65536) | _ => false

/-- The bytes of a line that two or more of its copies have written. -/
def State.clashes (s : State) (l : Loc) : List Nat :=
  let cs := s.smCopies.filter fun c => c.loc == l
  (List.range lineBytes).filter fun i => 2 ≤ (cs.filter fun c => (aget c.dirty i).isSome).length

/-- Log a conflict: line address and byte mask (R448). -/
def State.logConflict (s : State) (l : Loc) : State :=
  let m : BitVec 128 := maskOf (s.clashes l)
  s.logErr 2 0xFFF 0 s.did 0 (BitVec.ofNat 64 l.off) (m.extractLsb' 0 64) (m.extractLsb' 64 64)

/-- To hardware-coherent: dirty bytes are merged, copies dropped, conflicts logged and counted; which copy of a clashing
byte stays is open (R400). -/
def State.toHc (s : State) (us : List Nat) : State × Nat :=
  let cs := s.copiesIn us
  let bad := ((cs.map SmCopy.loc).eraseDups).filter fun l => !(s.clashes l).isEmpty
  let s := bad.foldl State.logConflict s
  let cs := if Config.choice s.tick 400 % 2 = 0 then cs else cs.reverse
  let s := cs.foldl (fun s c => (s.writeBack c).dropCopy c.clu c.loc) s
  ({ s with smUnits := s.smUnits.filter fun u => !us.contains u.1 }, bad.length)

/-- To software-managed: every tracked copy is recalled (R400). -/
def State.toSm (s : State) (us : List Nat) : State :=
  { s with
    dir := s.dir.filter fun d => !us.contains (d.line * lineBytes / 65536)
    smUnits := us.foldl (fun m u => aput m u ()) s.smUnits }

/-- CONVHC in both forms. -/
def State.convert (s : State) (cx : Cx) (h : Hdr) (b : SysBody) (f : State → List Nat → State × Nat) :
    State × List Hold × Go :=
  let a := cx.sysSrc b.a
  let n := cx.sysSrc b.b
  match a.tok.or n.tok with
  | some t => s.sysDest cx h.dest (.tok t)
  | none =>
    match convUnits a.v n.v with
    | none => refuse41 s cx
    | some us =>
      let (s, k) := f s us
      s.sysNum cx h.dest k

/-- CONVHC.HC (R400). -/
def execConvhcHc (h : Hdr) (b : SysBody) (s : State) : Out :=
  s.priv (legal (.convhcHc h b)) h (sysUses h b ++ scDest h.dest 1) fun s cx => s.convert cx h b State.toHc

/-- CONVHC.SM (R400). -/
def execConvhcSm (h : Hdr) (b : SysBody) (s : State) : Out :=
  s.priv (legal (.convhcSm h b)) h (sysUses h b ++ scDest h.dest 1) fun s cx =>
    s.convert cx h b fun s us => (s.toSm us, 0)

/-! ### Fault queue (R392) -/

/-- Entries of the fault queue not yet taken. -/
def State.fqCount (s : State) : Nat :=
  (s.regF rFQTAIL 0 32 + s.fqSize - s.regF rFQHEAD 0 32 % s.fqSize) % s.fqSize

/-- FQPOP (R392). -/
def execFqpop (h : Hdr) (b : SysBody) (s : State) : Out :=
  s.priv (legal (.fqpop h b)) h (sysUses h b ++ scDest h.dest 1) fun s cx =>
    let a := cx.sysSrc b.a
    match a.tok with
    | some t => s.sysDest cx h.dest (.tok t)
    | none =>
      if s.fqCount = 0 then s.sysDest cx h.dest (res64 0xFFFFFFFFFFFFFFFF)
      else
        let hd := s.regF rFQHEAD 0 32 % s.fqSize
        let e := (List.range 8).map fun i =>
          match s.physLoc ((s.reg rFQBASE).toNat + 64 * hd + 8 * i) with
          | some l => (s.getD64 l).1
          | none => 0
        let (s, hs) := s.storeDwords cx a.v e
        let s := s.setReg rFQHEAD (BitVec.ofNat 64 ((hd + 1) % s.fqSize))
        let (s, hs', go) := s.sysNum cx h.dest s.fqCount
        (s, hs ++ hs', go)

/-! ### The time-triggered table (R436, R437) -/

/-- Records that the table holds. -/
def ttLimit : Nat := 256

/-- Fields of a record. -/
def ttTime (w : List Dword) : Nat := (w.getD 0 0).toNat
def ttAct (w : List Dword) : Dword := w.getD 1 0
def ttKind (w : List Dword) : Nat := fld (ttAct w) 0 4
def ttOvr (w : List Dword) : Nat := fld (ttAct w) 4 4
def ttOv (w : List Dword) : Bool := fld (ttAct w) 23 1 == 1
def ttOctx (w : List Dword) : Nat := fld (ttAct w) 24 12
def ttTctx (w : List Dword) : Nat := fld (ttAct w) 36 12
def ttTid (w : List Dword) : Nat := fld (ttAct w) 48 16
def ttRec (w : List Dword) : Dword := w.getD 2 0
def ttLim (w : List Dword) : Nat := (w.getD 3 0).toNat

/-- A record is valid for an issuer (R437). -/
def State.ttValid (s : State) (own : Nat) (w : List Dword) : Bool :=
  let k := ttKind w
  let o := ttOvr w
  fld (ttAct w) 8 15 == 0 && ((List.range 4).all fun i => w.getD (4 + i) 0 == 0) && k ≤ 3 && o ≤ 3
    && !((k == 0 || k == 2) && o != 0) && !((k == 1 || k == 3) && ttOv w && o == 0)
    && (k == 1 || ttRec w == 0) && (if o == 3 then 1 ≤ ttLim w && ttLim w < 2 ^ 32 else ttLim w == 0)
    && s.mayAct own (ttTctx w) && (!ttOv w || s.mayAct own (ttOctx w))

/-- A journal entry of a timed action (R451, R452). -/
def State.jTimed (s : State) (t : TtRec) (state cause : Nat) (aux : Dword) (lseq : Option Nat) : State :=
  s.journal { kind := 2, state := state, ctx := ttTctx t.words, src := s.did, queue := 0xFD, note := 0, cause := cause,
              lseq := lseq, grid := ttAct t.words, lowCount := ttTid t.words, highCount := 0, aux := aux }

/-- Remove the records of a context with an identifier: each is journalled as cancelled (R437, R452). -/
def State.ttRemove (s : State) (own tid : Nat) : State :=
  let hit (t : TtRec) : Bool := t.owner == own && ttTid t.words == tid
  let s := (s.ttab.filter hit ++ (s.ttDelay.map (·.1)).filter hit).foldl
    (fun s t => s.jTimed t 4 0 (t.words.getD 0 0) (some t.lseq)) s
  { s with ttab := s.ttab.filter fun t => !hit t, ttDelay := s.ttDelay.filter fun t => !hit t.1 }

/-- Enter a record: by TTIME, after records of equal TTIME. -/
def State.ttEnter (s : State) (own : Nat) (w : List Dword) : State :=
  let t : TtRec := ⟨own, w, if s.regF rJSTAT 0 1 = 1 then (s.reg rJTAIL).toNat else 0, false, false, ttTime w⟩
  let s := s.jTimed t 1 0 (w.getD 0 0) none
  { s with ttab := insertBy (fun (t : TtRec) => ttTime t.words) t s.ttab }

/-- Load records until one is invalid, cannot be read, or finds the table full: how many were loaded. -/
def State.ttLoad (s : State) (sid lane own : Nat) (a : Dword) (done : Nat) : Nat → State × Nat
  | 0 => (s, done)
  | n + 1 =>
    match s.loadDwords sid lane a 8 with
    | (s, .error _) => (s, done)
    | (s, .ok w) =>
      if !s.ttValid own w then (s, done)
      else if ttKind w = 0 then (s.ttRemove own (ttTid w)).ttLoad sid lane own (a + 64) (done + 1) n
      else if ttLimit ≤ s.ttab.length then (s, done)
      else (s.ttEnter own w).ttLoad sid lane own (a + 64) (done + 1) n

/-- TTLOAD (R437): a count outside 1 to 64 has no stated outcome, so that how many records are tried is open. The firmware
keeps the table (R469): without it the fragment waits. -/
def execTtload (h : Hdr) (b : SysBody) (s : State) : Out :=
  s.priv (legal (.ttload h b)) h (sysUses h b ++ scDest h.dest 1) fun s cx =>
    let a := cx.sysSrc b.a
    let n := cx.sysSrc b.b
    match a.tok.or n.tok with
    | some t => s.sysDest cx h.dest (.tok t)
    | none =>
      if !s.fwUp then (s, [], .stall)
      else
        let tries := if 1 ≤ n.v.toNat && n.v.toNat ≤ 64 then n.v.toNat else Config.choice s.tick 437 % 65
        let (s, k) := s.ttLoad cx.sid cx.once (s.ownCtx cx) a.v 0 tries
        s.sysNum cx h.dest k

/-! ### Cache write-back (R384) -/

/-- The state of a copy that has been written back: M becomes E, and O becomes S (R395). -/
def cleanState : Moesi → Moesi
  | .m => .e
  | .o => .s
  | .e => .e
  | .s => .s

/-- Write back every dirty line of the caches of a cluster, or of all; `drop` also empties them. What a cache had modified it holds
clean then, and L2 and memory hold every line as written (R227). -/
def State.cacheClean (s : State) (clu : Option Nat) (drop : Bool) : State :=
  let hit (c : Nat) : Bool := match clu with | some k => c == k | none => true
  let mine (d : DirEnt) : Bool := d.cache < 516 && hit (if d.cache < 512 then d.cache / 128 else d.cache - 512)
  let cs := s.smCopies.filter fun c => hit c.clu
  let s := cs.foldl State.writeBack s
  let s := { s with oldLines := s.oldLines.filter fun o => !hit (o.core / 128) }
  if drop then { s with smCopies := s.smCopies.filter fun c => !hit c.clu, dir := s.dir.filter fun d => !mine d }
  else { s with dir := s.dir.map fun (d : DirEnt) => if mine d then { d with st := cleanState d.st } else d }

/-- CWBALL (R384). -/
def execCwball (h : Hdr) (b : SysBody) (s : State) : Out :=
  s.priv (legal (.cwball h b)) h [] fun s cx => (s.cacheClean (s.tbScope cx b) false, [], .next)

/-- CWBALL.INV (R384). -/
def execCwballInv (h : Hdr) (b : SysBody) (s : State) : Out :=
  s.priv (legal (.cwballInv h b)) h [] fun s cx => (s.cacheClean (s.tbScope cx b) true, [], .next)

end Sys2Proof.Machine
end

