-- ==== Sys2Proof/Machine/Dispatchers.lean ====
section
/-! DEFINITION. Events of strands, grids, queues and dispatchers: fetch traps and fills (R369, R371), starvation (R46), retirement (R63),
slots (R51), completion (R358), hand-off (R372, R412), posts and packets (R406 to R409), offers and placement (R419, R421),
CSTORE (R386). -/
namespace Sys2Proof.Machine

/-! ### Fetch -/

/-- FETCH_TRAP: the fragment's next instruction lies in a line whose fetch faults with this cause (R371, R393). -/
def execFetchTrap (sid frag : Nat) (cause : BitVec 8) (s : State) : Out :=
  match (s.strand sid).frag? frag with
  | none => .fault .noSubject
  | some f =>
    match s.fetchLine sid f.pc with
    | (t, .error c) => .next (if c == cause && f.mayIssue then t.fetchTrap sid frag c else s)
    | (_, .ok _) => .next s

/-- INSTRUCTION_CACHE_FILL (R369); a line that does not translate leaves nothing but the count of its walk (R370, R446). -/
def execInstructionCacheFill (core ctx : Nat) (va : Dword) (s : State) : Out :=
  match s.translate ⟨ctx, s.ctxSys ctx, some core, none, core / 128, none⟩ .fetch (va &&& 0xFFFFFFFFFFFFFF00) with
  | (t, .ok p) => .next (t.icFill core ctx va p)
  | (t, .error _) => .next t

/-- The wait of a fragment has reached 64: the cycle is noted once (R46, R422). -/
def Frag.starve (f : Frag) (now : Nat) : Frag := if 64 ≤ f.count && f.hit64 == 0 then { f with hit64 := now + 1 } else f

/-- STARVATION_PROMOTE: the wait of a fragment has reached 64 (R46, R422). -/
def execStarvationPromote (sid frag : Nat) (s : State) : Out :=
  match (s.strand sid).frag? frag with
  | none => .fault .noSubject
  | some f =>
    .next (s.modStrand sid fun st => st.setFrag frag (f.starve s.clock))

/-! ### Retirement (R52, R63, R147, R151) -/

/-- Nothing keeps a strand from retiring: every lane has exited, and nothing of it is in flight. -/
def State.canRetire (s : State) (sid : Nat) : Bool :=
  let st := s.strand sid
  st.clasp.isNone && st.life != .retired && st.frags.isEmpty && (st.contained || st.tstate != 1) && !s.earlierPending sid

/-- A neighbourhood whose blocks have all retired leaves the lists, with its blocks and strands. -/
def State.retireNbhd (s : State) (nb : Nat) : State :=
  let b := s.nbhd nb
  if b.blocks.all fun k => (s.block k).retired then
    let sids := b.blocks.flatMap fun k => (s.block k).strands
    let ctx := (s.grid b.gid).ctx
    let s := s.modGrid b.gid fun g => { g with nbhdsRetired := g.nbhdsRetired + 1 }
    { s with
      nbhds := adel s.nbhds nb
      blocks := s.blocks.filter fun e => !b.blocks.contains e.1
      strands := s.strands.filter fun e => !sids.contains e.1
      latches := s.latches.filter fun l => !sids.contains l.sid }.putCrun ctx
  else s

/-- A block whose strands have all retired retires: its scratchpad partition is freed, and its save record if it is Out. -/
def State.retireBlock (s : State) (blk : Nat) : State :=
  let b := s.block blk
  if b.strands.all fun sid => (s.strand sid).life == .retired then
    let s := if b.out then s.freeSave blk else s.freeSpad b.core b.spadBase b.spadBytes
    let s := s.modBlock blk fun b => { b with retired := true, out := false }
    (s.modGrid b.gid fun g => { g with blocksRetired := g.blocksRetired + 1 }).retireNbhd b.nbhd
  else s

/-- A strand retires: slot, image and image slot are freed, and its block's barriers are adjusted; their records name the place that it
held (R460). -/
def State.retire (s : State) (sid : Nat) : State :=
  let s := s.drainStrand sid
  let st := s.strand sid
  let s := s.freeImage sid
  let s := s.freeSlotNo st.ctx (s.slotOfBase st.ctx st.base)
  let s := { s with monitors := s.monitors.filter fun m => m.sid != sid }
  let s := (s.modStrand sid fun st => { st with life := .retired, splits := [], lines := [] }).barRetire sid st.contained
  (s.modStrand sid fun st => { st with slot := none }).retireBlock st.blk

/-- STRAND_RETIRE: poison that reached the locket after the last exit is a containment event (R63, R147). -/
def execStrandRetire (sid : Nat) (s : State) : Out :=
  match aget s.strands sid with
  | none => .fault .noSubject
  | some st =>
    if !s.canRetire sid then .next s
    else if st.contained then .next ((s.dropLocket sid).retire sid)
    else
      match st.locket.findSome? entryTok with
      | some t => .next (s.contain sid 0x52 (tokOrigin t) 0 none)
      | none => .next ((s.release sid).retire sid)

/-! ### Completion (R358, R427) -/

/-- Every placed neighbourhood of a grid has retired, and none is still to be placed. -/
def State.gridOver (s : State) (gid : Nat) : Bool :=
  let g := s.grid gid
  (aget s.grids gid).isSome
    && (g.cancelled || (g.next == g.first + g.count && g.back.isEmpty))
    && !(s.offers.any fun o => o.2.1 == gid)
    && !(s.nbhds.any fun n => n.2.gid == gid)

/-- GRID_COMPLETE: a grid of this device ends, or a member reports its part to the zenith (R358, R427). -/
def execGridComplete (gid : Nat) (s : State) : Out :=
  match aget s.grids gid with
  | none => .fault .noSubject
  | some g =>
    if !s.gridOver gid then .next s
    else
      let s := { s with grids := adel s.grids gid, pool := s.pool.erase gid }
      match g.zenith with
      | some z => .next (s.sendHalo z (.report g.ctx (g.rcd.getD 2 0) ⟨g.blocksRetired, g.events, g.firstWord, g.firstTime, g.causes⟩))
      | none =>
        .next (s.endLaunch g.ctx g ⟨if g.cancelled then 2 else if g.events = 0 then 1 else 3, g.blocksRetired, g.events,
          g.firstWord, g.causes, false⟩)

/-! ### From the cores' queues to the pool (R372, R412, R426) -/

/-- Take the oldest record of a core's queue; the next becomes the oldest now. -/
def State.popLq (s : State) (r : LqRec) : State :=
  let l := s.lq.erase r
  match l.findIdx? fun x => x.core == r.core with
  | some i => { s with lq := l.modify i fun x => { x with since := s.clock } }
  | none => { s with lq := l }

/-- A record of a core enters the pool as a grid of its CLASS. -/
def State.poolRec (s : State) (r : LqRec) (rcd : List Dword) : State :=
  let n := s.nextGrid
  let s := s.acceptGrid (Grid.fresh r.ctx rcd (rcdCLASS rcd) 0xFE s.did 0) r.va true r.ctx
  if r.dropped && (aget s.grids n).isSome then s.cancelGrid n false else s

/-- The zenith of a pod grid starts: the record goes to every member (R426). -/
def State.startZenith (s : State) (r : LqRec) : State :=
  let g := Grid.fresh r.ctx r.rcd (rcdCLASS r.rcd) 0xFE s.did 0
  let (s, g) := s.jAccept g r.va
  match s.recordValid r.ctx true r.rcd with
  | (s, false) => s.reject r.ctx g
  | (s, true) =>
    match s.shareTable r.ctx (r.rcd.getD 9 0) with
    | (s, none) => s.reject r.ctx g
    | (s, some ms) =>
      let z : Zenith := ⟨r.ctx, r.rcd, ms, [], [], 0, s.ptime, r.dropped, s.ptime, r.core, g.lseq⟩
      ms.foldl (fun s m => s.sendHalo m.1 (.record r.ctx r.rcd)) { s with zeniths := s.zeniths ++ [z] }

/-- The capacity of the overflow area (R413). -/
def State.ovfCap (s : State) : Nat := s.regF rLOVCFG 0 16

/-- The place of a record in the ring: `i` counts from the oldest. -/
def State.ovfPlace (s : State) (i : Nat) : Nat := s.regF rLOVB 12 40 * 4096 + 128 * ((s.ovfHead + i) % s.ovfCap)

/-- The area is full: EXH is set, and cause 0x5C is reported once (R412, R413). -/
def State.ovfFull (s : State) : State :=
  let s := s.setRegF rLOVSTAT 16 1 1
  if s.ovfTold then s else { s.report 0xFFF s.did 0x5C 0 with ovfTold := true }

/-- Write a record at the tail of the overflow ring (R412). -/
def State.toOverflow (s : State) (r : LqRec) : State :=
  let s := { s.putDwords (s.ovfPlace s.ovf.length) r.rcd with ovf := s.ovf ++ [r] }
  if s.ovf.length < s.ovfCap then s else s.ovfFull

/-- A core's record goes on to the pool: a pod record to the zenith that it starts here (R372, R426). -/
def State.takeRec (s : State) (r : LqRec) (rcd : List Dword) : State :=
  if r.pod then s.startZenith { r with rcd := rcd } else s.poolRec r rcd

/-- Cycles that a record stays oldest in its queue (R372). -/
def handoffCycles : Nat := 150

/-- LAUNCH_QUEUE_HANDOFF (R372, R412, R426). -/
def execLaunchQueueHandoff (core : Nat) (s : State) : Out :=
  match s.lqOf core with
  | [] => .fault .noSubject
  | r :: _ =>
    .next (if s.clock < r.since + handoffCycles then s
      else if s.ovf.isEmpty && s.poolRoom then (s.popLq r).takeRec r r.rcd
      else if s.ovf.length < s.ovfCap then (s.popLq r).toOverflow r
      else s.ovfFull)

/-- OVERFLOW_MOVE: firmware moves the oldest record back as room frees (R412). -/
def execOverflowMove (s : State) : Out :=
  match s.ovf with
  | [] => .fault .noSubject
  | r :: l =>
    .next (if s.fwUp && s.poolRoom then
      let rcd := (List.range 16).map fun i => (s.getD64 (.mem (s.ovfPlace 0 + 8 * i))).1
      { s with ovf := l, ovfHead := (s.ovfHead + 1) % s.ovfCap, ovfTold := false }.takeRec r rcd
    else s)

/-! ### Posts and packets (R406 to R409) -/

/-- Packets a queue holds (R406). -/
def queueLimit : Nat := 16
def State.queue (s : State) (q : Nat) : List QPacket := (aget s.queues q).getD []

/-- PKHDR as the device completes it (R407). -/
def stampHdr (own : Nat) (x : Post) : Dword :=
  setFld (setFld (x.data.getD 12 0) 47 1 (b2n x.host)) 32 10 (if x.host then own else x.dev)

/-- A post from another device that the access-control table refuses is logged (R410, R449). -/
def State.postRefused (s : State) (x : Post) : Bool := !x.host && x.dev != s.did && !s.mayPost x.dev x.q

/-- Append a post, or let it wait for room. -/
def State.takePost (s : State) (x : Post) : State :=
  let s := { s with posts := s.posts.erase x }
  if s.postRefused x then s.logErr 4 0xFFF 0 x.dev 0x3C 0 0 0
  else if s.regF (rLQCFG x.q) 63 1 = 0 || x.data.length != 16 then s.dropPost x.q
  else if queueLimit ≤ (s.queue x.q).length then { s with posts := s.posts ++ [x] }
  else { s with queues := aput s.queues x.q (s.queue x.q ++ [⟨x.data.set 12 (stampHdr s.did x), x.host, x.dev, s.tick⟩]) }

/-- POST_WINDOW_WRITE: the post is appended in its turn, after those of its queue that wait (R406). -/
def execPostWindowWrite (q : Nat) (host : Bool) (dev : Nat) (data : List Dword) (s : State) : Out :=
  let x : Post := ⟨q, host, dev, data⟩
  .next (match s.posts.find? fun y => y.q == q with
    | some y => if y == x then s.takePost x else s.post x
    | none => s.takePost x)

/-- Fields of a packet and of its queue. -/
def pkHdr (p : QPacket) : Dword := p.words.getD 12 0
def pkKind (p : QPacket) : Nat := fld (pkHdr p) 60 4
def pkCtx (p : QPacket) : Nat := fld (pkHdr p) 48 12
def State.qctx (s : State) (q : Nat) : Nat := s.regF (rLQCFG q) 48 12

/-- The record of a packet: its first 96 bytes, the rest zero (R407). -/
def pkRecord (p : QPacket) : List Dword := p.words.take 12 ++ [0, 0, 0, 0]

/-- The class a packet runs at: its CLASS, or QCLMIN when that is greater (R408). -/
def State.pkClass (s : State) (q : Nat) (p : QPacket) : Nat := max (rcdCLASS p.words) (s.regF (rLQCFG q) 46 2)

/-- A queue launches: its context is switched in, and its partition is valid and has the queue (R404, R409). -/
def State.launches (s : State) (q : Nat) : Bool :=
  let c := s.qctx q
  s.ctxRuns c && s.partValid (s.ctxPart c) && fld (s.reg (rDPQUE (s.ctxPart c))) q 1 == 1

/-- The queue whose packet is accepted next: of a context that is switched in, of the smallest class, the oldest (R409). -/
def State.nextQueue (s : State) : Option Nat :=
  let heads := s.queues.filterMap fun e =>
    match e.2 with
    | p :: _ => if s.launches e.1 then some (e.1, s.pkClass e.1 p, p.at_) else none
    | [] => none
  if s.regF rJSTAT 0 1 = 0 || !s.poolRoom then none
  else (heads.foldl (fun (b : Option (Nat × Nat × Nat)) x =>
    match b with
    | none => some x
    | some y => if x.2.1 < y.2.1 || (x.2.1 == y.2.1 && x.2.2 < y.2.2) then some x else b) none).map (·.1)

/-- The packet that queue q gives next, of a kind. -/
def State.nextPacket (s : State) (q : Nat) (kind : Nat → Bool) : Option QPacket :=
  if s.nextQueue = some q then ((s.queue q).head?).filter fun p => kind (pkKind p) else none

/-- A packet leaves its queue. -/
def State.popQueue (s : State) (q : Nat) : State := { s with queues := aput s.queues q ((s.queue q).drop 1) }

/-- The grid of a packet. -/
def State.packetGrid (s : State) (q : Nat) (p : QPacket) : Grid :=
  Grid.fresh (pkCtx p) (pkRecord p) (s.pkClass q p) q (fld (pkHdr p) 32 10) (fld (pkHdr p) 0 32)

/-- The reserved bits of a packet's header are zero (R6, R407). -/
def pkClean (p : QPacket) : Bool := fld (pkHdr p) 42 5 == 0

/-- LAUNCH_PACKET_ACCEPT (R409): a packet of another kind than launch, of another context, or with a reserved field that is not zero
is invalid. -/
def execLaunchPacketAccept (q : Nat) (s : State) : Out :=
  match s.nextPacket q fun k => k != 2 && k != 3 with
  | none => .next s
  | some p =>
    let g := s.packetGrid q p
    let ok := pkKind p == 1 && pkCtx p == s.qctx q && pkClean p && (p.words.drop 13).all (· == 0)
    .next ((s.popQueue q).acceptGrid g 0 ok (s.qctx q))

/-- A cancel packet holds GRID and PKHDR alone (R407). -/
def cancelOk (p : QPacket) : Bool := pkClean p && (p.words.zipIdx).all fun w => w.2 == 2 || w.2 == 12 || w.1 == 0

/-- A cancel packet: journalled, then performed at pod scope when the zenith of the grid is here (R407, R409). -/
def State.cancelPk (s : State) (q : Nat) (p : QPacket) (term : Bool) : State :=
  let (s, g) := (s.popQueue q).jAccept (s.packetGrid q p) 0
  let ctx := pkCtx p
  let grid := p.words.getD 2 0
  if !cancelOk p || ctx != s.qctx q then s.reject (s.qctx q) g
  else if s.zeniths.any fun z => z.ctx == ctx && z.rcd.getD 2 0 == grid then s.cancelZenith ctx grid term
  else s.cancelHere ctx grid term

/-- CANCEL_PACKET (R407). -/
def execCancelPacket (q : Nat) (s : State) : Out :=
  match s.nextPacket q (· == 2) with
  | none => .next s
  | some p => .next (s.cancelPk q p false)

/-- CANCEL_TERM_PACKET (R407). -/
def execCancelTermPacket (q : Nat) (s : State) : Out :=
  match s.nextPacket q (· == 3) with
  | none => .next s
  | some p => .next (s.cancelPk q p true)

/-! ### Offers and placement (R419, R421, R433) -/

/-- A cluster can take an Out neighbourhood: its former rectangle when that is free, else any that fits (R433). -/
def State.takesOut (s : State) (clu nb : Nat) : Bool :=
  let b := s.nbhd nb
  b.eligible && s.ctxRuns (s.grid b.gid).ctx && !(s.offers.any fun o => o.2.1 == b.gid && o.2.2.1 == b.num)
    && s.spanAllows b.gid clu && (s.outRect clu nb).isSome

/-- The Out neighbourhoods in the order in which they were switched out (R433). -/
def State.outOrder (s : State) : List (Nat × Nbhd) :=
  (s.nbhds.filter fun e => e.2.out).foldl (fun l e => insertBy (fun (x : Nat × Nbhd) => x.2.order) e l) []

/-- The next neighbourhood of a grid that has not been offered (R419). -/
def Grid.nextNb (g : Grid) : Option Nat :=
  match g.back with
  | n :: _ => some n
  | [] => if g.next < g.first + g.count then some g.next else none

/-- A cluster can take the next neighbourhood of a grid. -/
def State.takesGrid (s : State) (clu gid : Nat) : Bool :=
  let g := s.grid gid
  s.ctxRuns g.ctx && g.nextNb.isSome && s.spanAllows gid clu
    && (s.findRect clu (rcdW g.rcd) (rcdH g.rcd) (s.gridNeeds gid)).isSome

/-- What a cluster is offered next: by class, Out neighbourhoods before new ones, then by acceptance (R419). -/
def State.nextOffer (s : State) (clu : Nat) : Option (Nat × Nat) :=
  (List.range 4).findSome? fun c =>
    match s.outOrder.find? fun e => (s.grid e.2.gid).cls == c && s.takesOut clu e.1 with
    | some e => some (e.2.gid, e.2.num)
    | none =>
      match s.pool.find? fun g => (s.grid g).cls == c && s.takesGrid clu g with
      | some g => (s.grid g).nextNb.map fun n => (g, n)
      | none => none

/-- The neighbourhood is no longer the next to be offered. -/
def Grid.offered (g : Grid) (n : Nat) : Grid :=
  if g.back.contains n then { g with back := g.back.erase n } else { g with next := n + 1 }

/-- NBHD_OFFER (R419). -/
def execNbhdOffer (clu gid : Nat) (s : State) : Out :=
  match s.nextOffer clu with
  | some (g, n) =>
    if (aget s.offers clu).isSome || g != gid then .next s
    else
      let old := s.nbhds.any fun e => e.2.gid == g && e.2.num == n && e.2.out
      let s := { s with offers := aput s.offers clu (g, n, s.clock), lastClu := clu }
      .next (if old then s else s.modGrid g fun x => x.offered n)
  | none => .next s

/-- NBHD_PLACE (R54, R421). -/
def execNbhdPlace (clu : Nat) (s : State) : Out :=
  match s.placeAt clu with
  | (t, true) => .next t
  | (_, false) => .next s

/-- Cycles that a cluster has to place what it was offered (R421). -/
def offerCycles : Nat := 64

/-- OFFER_TIMEOUT (R421). -/
def execOfferTimeout (clu : Nat) (s : State) : Out :=
  match aget s.offers clu with
  | none => .fault .noSubject
  | some o => .next (if o.2.2 + offerCycles ≤ s.clock then s.withdraw clu else s)

/-! ### Strand slots (R51) -/

/-- Every live fragment is in an evictable wait. -/
def Strand.evictable (st : Strand) : Bool :=
  !st.frags.isEmpty && st.tstate != 1 && st.frags.all fun f => f.2.wait.evictable

/-- What class-0 neighbourhoods that no cluster can take now ask of their cores: the next one of each grid, and those that are Out. -/
def State.class0Needs (s : State) : List (Nat × Need) :=
  let stuck (gid : Nat) (takes : Nat → Bool) : Bool :=
    (s.grid gid).cls == 0 && s.ctxRuns (s.grid gid).ctx && !((List.range 4).any fun c => s.spanAllows gid c && takes c)
  (s.pool.filter fun g => ((s.grid g).nextNb).isSome && stuck g fun c => s.takesGrid c g).flatMap
      (fun g => ((s.gridNeeds g).take 1).filterMap fun n => n.map fun n => (g, n))
    ++ (s.nbhds.filter fun e => e.2.out && e.2.eligible && stuck e.2.gid fun c => s.takesOut c e.1).flatMap
      (fun e => (s.outNeeds e.1).filterMap fun n => n.map fun n => (e.2.gid, n))

/-- A class-0 block waits to be placed that core k could take but for its strand slots. -/
def State.class0Waits (s : State) (k : Nat) : Bool :=
  s.class0Needs.any fun x => s.spanAllows x.1 (k / 128) && s.coreRoom k x.2 && (s.startPart k x.2).isNone

/-- A slot is wanted on core k: for a readmission that finds none free, or for a class-0 block. -/
def State.slotWanted (s : State) (k : Nat) : Bool :=
  (s.dueOn k && (List.range 4).all fun q => (s.freeSlots k q).isEmpty) || s.class0Waits k

/-- SLOT_TAKEBACK: what the image holds of the strand, its table too, is current from then on (R51, R74). -/
def execSlotTakeback (sid : Nat) (s : State) : Out :=
  match aget s.strands sid with
  | none => .fault .noSubject
  | some st =>
    .next (if st.life == .resident && st.evictable && st.slot.isSome && s.slotWanted (s.coreOf sid) then
      s.modStrand sid fun st => { st with life := .slotless, slot := none, lines := [] }.saveSplits else s)

/-- A free slot of a core. DESIGN CHOICE: the lowest of the partition with the most free (assumption 104). -/
def State.anySlot (s : State) (k : Nat) : Option (Nat × Nat) :=
  let best := (List.range 4).foldl (fun b q => if (s.freeSlots k b).length < (s.freeSlots k q).length then q else b) 0
  (s.freeSlots k best).head?.map fun n => (best, n)

/-- STRAND_READMIT: on the same core; a deadline that passed meanwhile fires now, and lines of the image may move (R51, R64, R80). -/
def execStrandReadmit (sid : Nat) (s : State) : Out :=
  match aget s.strands sid with
  | none => .fault .noSubject
  | some st =>
    match s.anySlot (s.coreOf sid) with
    | none => .next s
    | some p =>
      if !st.waitOver then .next s
      else
        let s := s.modStrand sid fun st => { st with life := .resident, slot := some p }.waitAnew s.clock
        .next ((if st.due then s.fireDeadline sid else s).moveImage sid)

/-- The caches of cores write back their dirty lines, and L2 and memory hold them as written (R159, R399). -/
def State.flushCores (s : State) (p : Nat → Bool) : State :=
  { s with
    oldLines := s.oldLines.filter fun o => !p o.core
    dir := s.dir.map fun (d : DirEnt) => if d.cache < 512 && p d.cache then { d with st := cleanState d.st } else d }

/-- CSTORE_APPLY: no block is resident on the core, and its L1 has written back its dirty lines (R159, R386). -/
def execCstoreApply (core : Nat) (s : State) : Out :=
  match aget s.pendStore core with
  | none => .fault .noSubject
  | some v =>
    .next (if (s.coreBlocks core).isEmpty then
      { (s.flushCores (· == core)).setReg (rCSTORE core) v with pendStore := adel s.pendStore core } else s)

end Sys2Proof.Machine
end

