-- ==== Sys2Proof/Machine/Timed.lean ====
section
/-! DEFINITION. Timed actions (R438), gang switches and their boundary markers (R439), stragglers (R441) and agreement (R442). -/
namespace Sys2Proof.Machine

/-! ### Gangs (R430) -/

/-- A gang context. -/
def State.gang (s : State) (c : Nat) : Bool := fld (s.desc c dGANG) 63 1 == 1
def State.gangId (s : State) (c : Nat) : Nat := fld (s.desc c dGANG) 0 16
def State.gangLeader (s : State) (c : Nat) : Nat := fld (s.desc c dGANG) 32 10

/-- The gang context of an action: OCTX, else TCTX; none when the action is no gang switch (R439). -/
def State.gangCtx (s : State) (t : TtRec) : Option Nat :=
  if ttOv t.words && s.gang (ttOctx t.words) then some (ttOctx t.words)
  else if s.gang (ttTctx t.words) then some (ttTctx t.words)
  else none

/-- The members of a gang: its table is laid out as a share table (R430). -/
def State.gangMembers (s : State) (c : Nat) : State × List Nat :=
  match s.shareTable c (s.desc c dGMEM) with
  | (s, some ms) => (s, ms.map (·.1))
  | (s, none) => (s, [])

/-- The action belongs to a gang switch. -/
def State.gangMatch (s : State) (gid ttime : Nat) (t : TtRec) : Bool :=
  match s.gangCtx t with
  | some c => s.gangId c == gid && ttTime t.words == ttime
  | none => false

/-- A bound above 1 µs, or a clock that is not disciplined (R442). -/
def State.clockPoor (s : State) : Bool := s.regF rPTERR 63 1 == 0 || 1000 < s.regF rPTERR 0 32

/-! ### Lateness (R441) -/

/-- Lateness of a gang switch that must be reported, in ns. -/
def lateLimit : Nat := 2000

/-- Log a straggler with its lateness, all ones when unknown, and mark the journal entry of the action, when the device has
one (R441, R448). -/
def State.logStraggler (s : State) (gid ttime dev : Nat) (late : Option Nat) : State :=
  let known := (s.gangs.find? fun g => g.gid == gid && g.ttime == ttime).map GangAct.act
  let waits := (s.ttab ++ s.ttDelay.map (·.1)).find? fun t => s.gangMatch gid ttime t
  let a := known.or waits
  let ctx := match a with | some t => ttTctx t.words | none => 0xFFF
  let d : Dword := match late with | some n => BitVec.ofNat 64 n | none => 0xFFFFFFFFFFFFFFFF
  let s := s.logErr 1 ctx (if ctx = 0xFFF then 0 else s.ctxPart ctx) dev 0x56 0 d (match late with | some _ => 0 | none => 0xFFFFFFFFFFFFFFFF)
  match a with
  | some t => s.jTimed t 6 0x56 d (some t.lseq)
  | none => s

/-- This device reports its own lateness to every member (R441). -/
def State.reportLate (s : State) (gid ttime late : Nat) (ms : List Nat) : State :=
  if late ≤ lateLimit then s
  else
    let s := s.logStraggler gid ttime s.did (some late)
    (ms.filter fun d => d != s.did).foldl (fun s d => s.sendHalo d (.straggler gid ttime late)) s

/-! ### Performing an action (R438, R439) -/

/-- A marker on each station (R439). -/
def State.sendMarkers (s : State) (gid ttime : Nat) : State :=
  { s with outbox := s.outbox ++ (List.range 16).map fun k => .marker k gid ttime s.did }

/-- The launch of a timed action: a record that cannot be read is accepted as an empty one, and rejected (R438). -/
def State.ttStart (s : State) (t : TtRec) : State :=
  let c := ttTctx t.words
  match s.ctxWords c (ttRec t.words) 32 with
  | (s, r) =>
    let rcd := (r.map pairUp).getD (List.replicate 16 0)
    s.acceptGrid (Grid.fresh c rcd (rcdCLASS rcd) 0xFD s.did 0) (ttRec t.words) true c

/-- The journal entry of an action that has been performed (R452). -/
def State.ttDone (s : State) (t : TtRec) : State := s.jTimed t 3 0 (t.words.getD 0 0) (some t.lseq)

/-- The action itself: a pre-emption is performed when its switch-out ends. -/
def State.ttDo (s : State) (t : TtRec) : State :=
  let k := ttKind t.words
  if k = 1 then (s.ttStart t).ttDone t
  else if k = 2 then s.switchOut (ttTctx t.words) none (some t) true
  else (s.switchIn (ttTctx t.words)).1.ttDone t

/-- A launch is accepted as a packet is: while journaling is on and the pool has room (R409, R411). -/
def State.ttMay (s : State) (t : TtRec) : Bool := ttKind t.words != 1 || (s.regF rJSTAT 0 1 == 1 && s.poolRoom)

/-- A switch-out has reached its end: what was to follow it takes place (R432, R438), a launch once it may be accepted (R411). -/
def State.switchOver (s : State) (w : Switching) : State :=
  let s := s.switchEnd w
  match w.next with
  | some t => if w.whole then s.ttDone t else if s.ttMay t then s.ttDo t else { s with ttWait := s.ttWait ++ [t] }
  | none => s

/-- A timed launch that has waited for the pool is accepted (R411). -/
def State.ttGo (s : State) (t : TtRec) : State :=
  if s.fwUp && s.ttMay t then { s with ttWait := s.ttWait.erase t }.ttDo t else s

/-- Act: OCTX is switched out first, then the action is performed. On a gang switch the markers leave once OCTX has stopped, with all
that it has handed to a station before them, and before what follows; the lateness is reported (R438, R439, R441). -/
def State.ttPerform (s : State) (t : TtRec) : State :=
  let gc := s.gangCtx t
  let (s, ms) := match gc with | some c => s.gangMembers c | none => (s, [])
  let gid := match gc with | some c => s.gangId c | none => 0
  let time := ttTime t.words
  let s := if ttOv t.words then s.switchOut (ttOctx t.words) none (some t) false else s
  let s := if gc.isSome then
      let s := s.sendMarkers gid time
      { s with gangs := s.gangs ++ [GangAct.mk gid time t ms []] }.reportLate gid time (s.ptime - t.since) ms
    else s
  if ttOv t.words then s else s.ttDo t

/-- An overrun: OCTX has a strand Resident, Waiting or Slotless (R438). -/
def State.overrun (s : State) (t : TtRec) : Bool :=
  ttOv t.words && s.strands.any fun e =>
    e.2.ctx == ttOctx t.words && e.2.clasp.isNone && (e.2.life == .resident || e.2.life == .slotless)

/-- The leader tells every member to switch, when one asked or its own bound is too large (R442). -/
def State.leaderSwitch (s : State) (t : TtRec) : State :=
  match s.gangCtx t with
  | none => s
  | some c =>
    let gid := s.gangId c
    let time := ttTime t.words
    if s.gangLeader c != s.did || !(s.asks.contains (gid, time) || s.clockPoor) then s
    else
      let (s, ms) := s.gangMembers c
      (ms.filter fun d => d != s.did).foldl (fun s d => s.sendHalo d (.switch gid time)) s

/-- A record leaves the table and is acted on under its overrun rule (R438). -/
def State.ttTake (s : State) (t : TtRec) : State :=
  let s := { s with ttab := s.ttab.erase t }.leaderSwitch t
  let rule := ttOvr t.words
  if s.overrun t && rule == 2 then
    ((s.setRegF rTTSTAT 32 16 (satAdd 65535 (s.regF rTTSTAT 32 16) 1)).jTimed t 4 0 (t.words.getD 0 0) (some t.lseq)).note
      (ttTctx t.words) 3 (t.words.getD 0 0)
  else if s.overrun t && rule == 3 then
    { s with ttDelay := s.ttDelay ++ [(t, ttTime t.words + ttLim t.words)] }
  else s.ttPerform t

/-- Record n of the table is due: pod time has reached TTIME, it waits for no switch packet and, for a gang switch, its
clock has been looked at, the records that stand before it in the order of TTIME and loading have gone, unless they wait themselves,
and the firmware runs (R437, R438, R442, R469). -/
def State.ttDue (s : State) (n : Nat) (kind : Nat) : Option TtRec :=
  match s.ttab[n]? with
  | none => none
  | some t =>
    let earlier := (s.ttab.take n).any fun u => !u.asked && (ttTime u.words == ttTime t.words || s.ttMay u)
    if s.fwUp && ttKind t.words == kind && ttTime t.words ≤ s.ptime && !t.asked && !earlier
        && (t.checked || (s.gangCtx t).isNone) && s.ttMay t then some t else none

/-- A due record of a kind acts. -/
def State.ttEvent (s : State) (n kind : Nat) : Out :=
  match s.ttDue n kind with
  | some t => .next (s.ttTake t)
  | none => .next s

/-- TT_LAUNCH (R438). -/
def execTtLaunch (n : Nat) (s : State) : Out := s.ttEvent n 1
/-- TT_PREEMPT (R438). -/
def execTtPreempt (n : Nat) (s : State) : Out := s.ttEvent n 2
/-- TT_RESUME (R438). -/
def execTtResume (n : Nat) (s : State) : Out := s.ttEvent n 3

/-- TT_DELAY_EXPIRY: OCTX has no such strand left, or the limit has passed (R438). -/
def execTtDelayExpiry (n : Nat) (s : State) : Out :=
  match s.ttDelay[n]? with
  | none => .fault .noSubject
  | some (t, at_) =>
    .next (if s.fwUp && (!s.overrun t || at_ ≤ s.ptime) && s.ttMay t then
      { s with ttDelay := s.ttDelay.eraseIdx n }.ttPerform t else s)

/-! ### Events of gangs -/

/-- A launch, gang or time message of a device that the access-control table does not let pass: it is dropped and logged (R410,
R449). -/
def State.refuseFrom (s : State) (dev : Nat) : State := s.logErr 4 0xFFF 0 dev 0x3C 0 0 0

/-- GANG_BOUNDARY_MARKER: a member's marker has come on a station (R410, R439). -/
def execGangBoundaryMarker (gid ttime dev stn : Nat) (s : State) : Out :=
  .next (if 16 ≤ stn then s
    else if !s.mayHalo dev then s.refuseFrom dev
    else if s.markers.contains (gid, ttime, dev) then s
    else { s with markers := s.markers ++ [(gid, ttime, dev)] })

/-- Nanoseconds after TTIME at which a missing marker is reported (R441). -/
def markerWait : Nat := 50000

/-- A member has sent no marker and is not reported yet. -/
def State.markerMissing (s : State) (g : GangAct) (dev : Nat) : Bool :=
  g.members.contains dev && dev != s.did && !g.reported.contains dev && !s.markers.contains (g.gid, g.ttime, dev)
    && g.ttime + markerWait ≤ s.ptime

/-- MARKER_TIMEOUT (R441). -/
def execMarkerTimeout (gid ttime dev : Nat) (s : State) : Out :=
  match s.gangs.find? fun g => g.gid == gid && g.ttime == ttime with
  | none => .fault .noSubject
  | some g =>
    if !s.markerMissing g dev then .next s
    else
      let tell (x : GangAct) : GangAct := if x == g then { x with reported := x.reported ++ [dev] } else x
      .next { s.logStraggler gid ttime dev none with gangs := s.gangs.map tell }

/-- The records of a gang switch that wait in the table. -/
def State.gangRecs (s : State) (gid ttime : Nat) : List TtRec := s.ttab.filter fun t => s.gangMatch gid ttime t

/-- Nanoseconds before TTIME at which clocks are looked at (R442). -/
def askBefore : Nat := 20000

/-- One record is checked: a poor clock is logged, and asks the leader. -/
def State.askFor (s : State) (gid ttime : Nat) (t : TtRec) : State :=
  let poor := s.clockPoor
  let leader := match s.gangCtx t with | some c => s.gangLeader c | none => s.did
  let new : TtRec := { t with checked := true, asked := poor && leader != s.did }
  let s := { s with ttab := s.ttab.map fun x => if x == t then new else x }
  if poor then (s.report (ttTctx t.words) s.did 0x57 0).sendHalo leader (.agreement gid ttime) else s

/-- AGREEMENT_CHECK (R442). -/
def execAgreementCheck (gid ttime : Nat) (s : State) : Out :=
  .next (if s.fwUp && ttime ≤ s.ptime + askBefore then
    ((s.gangRecs gid ttime).filter fun t => !t.checked).foldl (fun s t => s.askFor gid ttime t) s else s)

/-- AGREEMENT_REQUEST: the leader keeps it until its own TTIME (R442). -/
def execAgreementRequest (gid ttime dev : Nat) (s : State) : Out :=
  let s := { s with haloIn := s.haloIn.erase (dev, .agreement gid ttime) }
  .next (if s.asks.contains (gid, ttime) then s else { s with asks := s.asks ++ [(gid, ttime)] })

/-- A Halo message of a kind has been acted on; its source is not part of the event. -/
def State.heard (s : State) (m : HaloMsg) : State := { s with haloIn := s.haloIn.eraseP fun x => x.2 == m }

/-- A record that waits for a switch packet waits no longer: it acts, its lateness counting from a moment, or as soon as a launch may be
accepted (R411, R442). -/
def State.ttRelease (s : State) (t : TtRec) (since : Nat) : State :=
  let u : TtRec := { t with asked := false, since := since }
  let s := { s with ttab := s.ttab.map fun x => if x == t then u else x }
  if s.ttMay u then s.ttTake u else s

/-- SWITCH_PACKET: a member that asked acts on receipt; others ignore it (R442). Without the firmware it waits (R469). -/
def execSwitchPacket (gid ttime : Nat) (s : State) : Out :=
  if !s.fwUp then .next s
  else
    let s := s.heard (.switch gid ttime)
    .next ((s.gangRecs gid ttime).foldl (fun s t => if t.asked then s.ttRelease t s.ptime else s) s)

/-- Nanoseconds after TTIME at which a member that asked acts by itself (R442). -/
def switchWait : Nat := 100000

/-- AGREEMENT_TIMEOUT: the member acts and reports itself (R442). -/
def execAgreementTimeout (gid ttime : Nat) (s : State) : Out :=
  .next (if s.fwUp && ttime + switchWait ≤ s.ptime then
    (s.gangRecs gid ttime).foldl (fun s t => if t.asked then s.ttRelease t t.since else s) s else s)

/-- STRAGGLER_REPORT (R441). -/
def execStragglerReport (gid ttime dev lateness : Nat) (s : State) : Out :=
  .next ({ s with haloIn := s.haloIn.erase (dev, .straggler gid ttime lateness) }.logStraggler gid ttime dev (some lateness))

end Sys2Proof.Machine
end

