-- ==== Sys2Proof/Machine/Pod.lean ====
section
/-! DEFINITION. Pod grids: the two phases of the start (R425, R426), completion (R427) and cancel (R428); receiving, acknowledging and
retransmitting Halo messages (R466); stations that go down and come back (R465). -/
namespace Sys2Proof.Machine

/-! ### At a member (R425, R426) -/

/-- A message has been acted on. -/
def State.heardFrom (s : State) (src : Nat) (m : HaloMsg) : State := { s with haloIn := s.haloIn.erase (src, m) }

/-- POD_LAUNCH_RECORD: the member validates the record in its own context of that identifier, journals and holds it, and
answers (R426). -/
def execPodLaunchRecord (src ctx : Nat) (r : List Dword) (s : State) : Out :=
  let s := s.heardFrom src (.record ctx r)
  let grid := r.getD 2 0
  match s.recordValid ctx true r with
  | (s, false) => .next (s.sendHalo src (.reject ctx grid))
  | (s, true) =>
    let (s, g) := s.jAccept (Grid.fresh ctx r (rcdCLASS r) 0xFC s.did 0) 0
    .next ({ s with podHeld := s.podHeld ++ [PodHeld.mk src ctx r g.lseq false] }.sendHalo src (.accept ctx grid))

/-- A held record of a zenith's device. -/
def PodHeld.named (h : PodHeld) (src ctx : Nat) (grid : Dword) : Bool := h.src == src && h.ctx == ctx && h.rcd.getD 2 0 == grid

/-- The member's own part of a pod grid, as a grid. -/
def State.podGrid (s : State) (h : PodHeld) : State × Grid :=
  match s.shareTable h.ctx (h.rcd.getD 9 0) with
  | (s, t) =>
    let r := dealRange (rcdN h.rcd) (t.getD []) s.did
    (s, { Grid.fresh h.ctx h.rcd (rcdCLASS h.rcd) 0xFC s.did 0 with
          lseq := h.lseq, first := r.1, count := if t.isSome then r.2 else 0, zenith := some h.src })

/-- The member's range enters its pool, when that has room or the range is empty; until then it waits (R411, R426). -/
def State.podEnter (s : State) (h : PodHeld) : State :=
  match s.podGrid h with
  | (s, g) =>
    if g.count = 0 || s.poolRoom then { s with podHeld := s.podHeld.erase h }.poolGrid g
    else { s with podHeld := s.podHeld.map fun x => if x == h then { x with gone := true } else x }

/-- GO (R426). -/
def execGo (src ctx : Nat) (grid : Dword) (s : State) : Out :=
  let s := s.heardFrom src (.go ctx grid)
  match s.podHeld.find? fun h => h.named src ctx grid with
  | some h => .next (s.podEnter h)
  | none => .next s

/-- DROP (R426). -/
def execDrop (src ctx : Nat) (grid : Dword) (s : State) : Out :=
  let s := s.heardFrom src (.drop ctx grid)
  .next { s with podHeld := s.podHeld.filter fun h => !h.named src ctx grid }

/-! ### At the zenith (R426 to R428) -/

/-- The zenith of a grid. -/
def Zenith.named (z : Zenith) (ctx : Nat) (grid : Dword) : Bool := z.ctx == ctx && z.rcd.getD 2 0 == grid

/-- Tell every member, in ascending identifier. -/
def State.tellMembers (s : State) (z : Zenith) (m : HaloMsg) : State := z.members.foldl (fun s d => s.sendHalo d.1 m) s

/-- The grid as its origin accounts for it. -/
def State.zenithGrid (s : State) (z : Zenith) : Grid :=
  { Grid.fresh z.ctx z.rcd (rcdCLASS z.rcd) 0xFE s.did 0 with lseq := z.lseq }

/-- A pod grid that cannot start: every member drops it, and it is rejected at the origin (R426). -/
def State.zenithReject (s : State) (z : Zenith) : State :=
  ({ s with zeniths := s.zeniths.erase z }.tellMembers z (.drop z.ctx (z.rcd.getD 2 0))).reject z.ctx (s.zenithGrid z)

/-- Every member has accepted: "go", or "drop" when a cancel came first, which completes the grid as cancelled (R426,
R428). -/
def State.zenithGo (s : State) (z : Zenith) : State :=
  let grid := z.rcd.getD 2 0
  if z.cancelled then
    ({ s with zeniths := s.zeniths.erase z }.tellMembers z (.drop z.ctx grid)).endLaunch z.ctx (s.zenithGrid z) ⟨2, 0, 0, 0, [], true⟩
  else
    { s with zeniths := s.zeniths.map fun x => if x == z then { z with phase := 1, since := s.ptime } else x }.tellMembers z
      (.go z.ctx grid)

/-- ACCEPT (R426). -/
def execAccept (src ctx : Nat) (grid : Dword) (s : State) : Out :=
  let s := s.heardFrom src (.accept ctx grid)
  match s.zeniths.find? fun z => z.named ctx grid && z.phase == 0 with
  | none => .next s
  | some z =>
    if z.accepted.contains src || !(z.members.any fun m => m.1 == src) then .next s
    else
      let z' : Zenith := { z with accepted := z.accepted ++ [src] }
      let s := { s with zeniths := s.zeniths.map fun x => if x == z then z' else x }
      .next (if z'.accepted.length = z'.members.length then s.zenithGo z' else s)

/-- REJECT (R426). -/
def execReject (src ctx : Nat) (grid : Dword) (s : State) : Out :=
  let s := s.heardFrom src (.reject ctx grid)
  match s.zeniths.find? fun z => z.named ctx grid && z.phase == 0 with
  | none => .next s
  | some z => .next (s.zenithReject z)

/-- Nanoseconds that members have to reply, and after a cancel to report (R426, R428). -/
def replyWait : Nat := 100000
def cancelWait : Nat := 10000000

/-- ZENITH_REPLY_TIMEOUT (R426). -/
def execZenithReplyTimeout (ctx : Nat) (grid : Dword) (s : State) : Out :=
  match s.zeniths.find? fun z => z.named ctx grid && z.phase == 0 with
  | none => .fault .noSubject
  | some z => .next (if z.since + replyWait ≤ s.ptime then s.zenithReject z else s)

/-- Counts of causes added up. -/
def addCauses (a b : List (Nat × Nat)) : List (Nat × Nat) :=
  b.foldl (fun m e => aput m e.1 ((aget m e.1).getD 0 + e.2)) a

/-- The earliest first event, by pod time; the lower device wins a tie (R427). -/
def firstOf (rs : List (Nat × Report)) : Dword :=
  let es := rs.filter fun r => r.2.events != 0
  ((es.foldl (fun (b : Option (Nat × Report)) x =>
    match b with
    | none => some x
    | some y => if x.2.firstTime < y.2.firstTime || (x.2.firstTime == y.2.firstTime && x.1 < y.1) then some x else b) none).map
      fun r => r.2.first).getD 0

/-- What the members' reports come to (R427). -/
def Zenith.ending (z : Zenith) : Ending :=
  let ev := (z.reports.map fun r => r.2.events).sum
  ⟨if z.cancelled then 2 else if ev = 0 then 1 else 3, (z.reports.map fun r => r.2.blocks).sum, ev, firstOf z.reports,
    z.reports.foldl (fun m r => addCauses m r.2.causes) [], true⟩

/-- A member's report is in; with the last the grid completes at the origin (R427). -/
def State.zenithReport (s : State) (z : Zenith) (src : Nat) (r : Report) : State :=
  let z' : Zenith := { z with reports := z.reports ++ [(src, r)] }
  if z'.reports.length = z'.members.length then
    { s with zeniths := s.zeniths.erase z }.endLaunch z.ctx (s.zenithGrid z) z'.ending
  else { s with zeniths := s.zeniths.map fun x => if x == z then z' else x }

/-- The zenith waits for a member's report. -/
def Zenith.waitsFor (z : Zenith) (dev : Nat) : Bool :=
  z.phase == 1 && (z.members.any fun m => m.1 == dev) && !(z.reports.any fun r => r.1 == dev)

/-- COMPLETION_REPORT (R427). -/
def execCompletionReport (src ctx : Nat) (grid : Dword) (r : Report) (s : State) : Out :=
  let s := s.heardFrom src (.report ctx grid r)
  match s.zeniths.find? fun z => z.named ctx grid && z.waitsFor src with
  | some z => .next (s.zenithReport z src r)
  | none => .next s

/-- A report of nothing. -/
def noReport : Report := ⟨0, 0, 0, 0, []⟩

/-- CANCEL_MEMBER_TIMEOUT: the member counts as having run no block, and its failure is logged (R428). -/
def execCancelMemberTimeout (ctx : Nat) (grid : Dword) (dev : Nat) (s : State) : Out :=
  match s.zeniths.find? fun z => z.named ctx grid && z.waitsFor dev with
  | none => .fault .noSubject
  | some z =>
    .next (if z.cancelled && z.cancelAt + cancelWait ≤ s.ptime then
      (s.logErr 5 ctx (s.ctxPart ctx) dev 0 0 0 0).zenithReport z dev noReport else s)

/-- A member applies a cancel to its own part; a range that waits for room ends empty (R363, R428). -/
def State.cancelPart (s : State) (src ctx : Nat) (grid : Dword) (term : Bool) : State :=
  let gs := (s.gridsNamed ctx grid).filter fun g => (s.grid g).zenith == some src
  let s := gs.foldl (fun s g => s.cancelGrid g term) s
  (s.podHeld.filter fun h => h.named src ctx grid && h.gone).foldl (fun s h =>
    match s.podGrid h with
    | (s, g) => { s with podHeld := s.podHeld.erase h }.poolGrid { g with count := 0, cancelled := true }) s

/-- HALO_CANCEL: at the zenith it goes on to every member; at a member it is performed (R363, R428). -/
def execHaloCancel (src ctx : Nat) (grid : Dword) (term : Bool) (s : State) : Out :=
  let s := s.heardFrom src (.cancel ctx grid term)
  .next (if src != s.did && s.zeniths.any (fun z => z.named ctx grid) then s.cancelZenith ctx grid term
    else s.cancelPart src ctx grid term)

/-! ### Receiving and sending Halo messages (R466) -/

/-- A message in its turn: from a device that the access-control table refuses it is dropped and logged (R410, R449). -/
def State.haloTake (s : State) (src : Nat) (m : HaloMsg) : State :=
  if s.mayHalo src then { s with haloIn := s.haloIn ++ [(src, m)] } else s.refuseFrom src

/-- The sequence number expected next from a source. -/
def State.haloNext (s : State) (src : Nat) : Nat := (aget s.haloE src).getD 0

/-- Take held copies whose turn has come. -/
def State.haloRun (s : State) (src : Nat) : Nat → State
  | 0 => s
  | n + 1 =>
    match s.haloHeld.find? fun h => h.1 == src && h.2.1 == s.haloNext src with
    | none => s
    | some h =>
      ({ s with
        haloHeld := s.haloHeld.erase h
        haloE := aput s.haloE src ((s.haloNext src + 1) % 2 ^ 24) }.haloTake src h.2.2).haloRun src n

/-- HALO_MESSAGE_RECEIVE: by its distance from the number expected, a copy is taken, discarded or held (R466). -/
def execHaloMessageReceive (src v : Nat) (good : Bool) (msg : HaloMsg) (s : State) : Out :=
  let e := s.haloNext src
  let d := (v % 2 ^ 24 + 2 ^ 24 - e) % 2 ^ 24
  if !good then .next s
  else if d = 0 then
    let s := { s with haloE := aput s.haloE src ((e + 1) % 2 ^ 24) }.haloTake src msg
    .next (s.haloRun src s.haloHeld.length)
  else if 2 ^ 23 ≤ d then .next s
  else if s.haloHeld.any fun h => h.1 == src && h.2.1 == v % 2 ^ 24 then .next s
  else .next { s with haloHeld := s.haloHeld ++ [(src, v % 2 ^ 24, msg)] }

/-- Nanoseconds before a retransmission, and how many there are (R189, R466). -/
def resendWait : Nat := 50000
def resendMax : Nat := 7

/-- The destination is unreachable: messages to it are given up, and launches that need it are dropped (R466). -/
def State.unreachable (s : State) (dst : Nat) : State :=
  let zs := s.zeniths.filter fun z => z.phase == 0 && z.members.any fun m => m.1 == dst
  zs.foldl State.zenithReject { s with haloOut := s.haloOut.filter fun h => h.dst != dst }

/-- HALO_RETRANSMIT (R466). -/
def execHaloRetransmit (dst v : Nat) (s : State) : Out :=
  match s.haloOut.find? fun h => h.dst == dst && h.v == v && !h.waiting with
  | none => .fault .noSubject
  | some h =>
    if s.ptime < h.last + resendWait then .next s
    else if resendMax ≤ h.tries then .next (s.unreachable dst)
    else
      let new : HaloSent := { h with last := s.ptime, tries := h.tries + 1 }
      .next ({ s with haloOut := s.haloOut.map fun x => if x == h then new else x }.haloCopies dst v h.msg)

/-- Send the oldest message that waits for the limit of a destination. -/
def State.haloNextOut (s : State) (dst : Nat) : State :=
  match s.haloOut.find? fun h => h.dst == dst && h.waiting with
  | none => s
  | some h =>
    let new : HaloSent := { h with waiting := false, last := s.ptime }
    { s with haloOut := s.haloOut.map fun x => if x == h then new else x }.haloCopies dst h.v h.msg

/-- HALO_ACKNOWLEDGEMENT (R466). -/
def execHaloAcknowledgement (src v : Nat) (s : State) : Out :=
  match s.haloOut.find? fun h => h.dst == src && h.v == v && !h.waiting with
  | none => .next s
  | some h => .next ({ s with haloOut := s.haloOut.erase h }.haloNextOut src)

/-! ### Stations (R465) -/

/-- Requests outstanding on a station are retransmitted on its twin with their own numbers, or fail when that is down too. -/
def State.moveTraffic (s : State) (stn : Nat) : State :=
  let twin := Nat.xor stn 8
  let mine := s.outReqs.filter fun q => q.stn == stn
  if (aget s.downStns twin).isSome then mine.foldl (fun s q => s.failReq q 0x17) s
  else
    { s with
      outReqs := s.outReqs.map fun q => if q.stn == stn then { q with stn := twin } else q
      outbox := s.outbox ++ mine.map fun q => .request q.dst twin (q.id % seqCount) q.what }

/-- STATION_DOWN (R465). -/
def execStationDown (stn : Nat) (s : State) : Out :=
  if 16 ≤ stn then .fault .noSubject
  else .next ({ s with downStns := aput s.downStns stn () }.moveTraffic stn)

/-- STATION_RESTORED: new requests use the station again (R465). -/
def execStationRestored (stn : Nat) (s : State) : Out :=
  if 16 ≤ stn then .fault .noSubject else .next { s with downStns := adel s.downStns stn }

end Sys2Proof.Machine
end

