-- ==== Sys2Proof/Machine/Fabric.lean ====
section
/-! DEFINITION. Requests of other devices at their home (R189, R410, R440, R463), and this device's own outstanding requests (R189). -/
namespace Sys2Proof.Machine

/-! ### Requests of other devices -/

/-- On behalf of a request's context. -/
def State.whoFab (s : State) (r : FabReq) : Who := ⟨r.ctx, s.ctxSys r.ctx, none, none, locCluster ((s.physLoc r.pa).getD (.mem 0)), none⟩

/-- The home of a request of another device. -/
def State.fabHome (s : State) (r : FabReq) : Nat := s.homeOf ((s.physLoc r.pa).getD (.mem r.pa))

/-- Answer a request, and keep the reply until it is acknowledged (R189). -/
def State.fabReply (s : State) (r : FabReq) (v : ReplyVal) : State :=
  { s with replyCache := s.replyCache ++ [⟨s.fabHome r, r.src, r.stn, r.seq, v⟩], outbox := s.outbox ++ [.reply r.src r.stn r.seq v] }

/-- The reply that a home keeps under a number (R189). -/
def State.cached (s : State) (home src stn seq : Nat) : Option CachedReply :=
  s.replyCache.find? fun c => c.home == home && c.src == src && c.stn == stn && c.seq == seq

/-- The reply cache of a home is full: it accepts no new request of another device (R189). -/
def State.repliesFull (s : State) (home : Nat) : Bool :=
  decide (Config.replyLimit ≤ (s.replyCache.filter fun c => c.home == home).length)

/-- The request is a tile store of one row of 128 bytes, which alone posts a packet (R406). -/
def fabIsPost (r : FabReq) : Bool :=
  match r.kind with
  | .tileStore bytes _ ws => bytes == 128 && ws.length == 32
  | _ => false

/-- Write words from a physical place on, with the byte enables of each; what a post window does not take as a packet is discarded and
counted (R406). -/
def State.fabWrite (s : State) (r : FabReq) (l : Loc) (be : Nat) (ws : List MWord) : State :=
  match postWindow l with
  | some q => if l.off % 128 = 0 && fabIsPost r then s.post ⟨q, false, r.src, wordPairs ws⟩ else s.dropPost q
  | none =>
    (ws.zipIdx).foldl (fun (s : State) (x : MWord × Nat) =>
      let e := be / 2 ^ (4 * x.2) % 16
      if e = 0 then s else s.writeW (s.whoFab r) ⟨l.add (4 * x.2), 0, false⟩ e x.1) s

/-- Read words from a physical place on. -/
def State.fabRead (s : State) (r : FabReq) (l : Loc) (n : Nat) : State × List MWord :=
  (List.range n).foldl (fun (acc : State × List MWord) i =>
    let (s, w) := acc.1.readW (acc.1.whoFab r) ⟨l.add (4 * i), 0, false⟩
    (s, acc.2 ++ [w])) (s, [])

/-- All bytes of n words. -/
def allBytes (n : Nat) : Nat := 2 ^ (4 * n) - 1

/-- Perform a request at a place (R440, R463). -/
def State.fabPerform (s : State) (r : FabReq) (l : Loc) : State :=
  match r.kind with
  | .store be ws => (s.fabWrite r l be ws).fabReply r (.words [])
  | .write ws => (s.fabWrite r l (allBytes ws.length) ws).fabReply r (.words [])
  | .tileStore bytes pitch ws =>
    let w := bytes / 4
    if w = 0 then s.fabReply r (.words [])
    else
      ((List.range (ws.length / w)).foldl (fun (s : State) i =>
        s.fabWrite r (l.add (i * pitch)) (allBytes w) ((ws.drop (i * w)).take w)) s).fabReply r (.words [])
  | .tileLoad rows bytes pitch =>
    let (s, d) := (List.range rows).foldl (fun (acc : State × List MWord) i =>
      let (s, x) := acc.1.fabRead r (l.add (i * pitch)) (bytes / 4)
      (s, acc.2 ++ x)) (s, [])
    { s with outbox := s.outbox ++ [.data r.src r.stn r.seq d] }
  | .read n =>
    let (s, d) := s.fabRead r l n
    { s with outbox := s.outbox ++ [.data r.src r.stn r.seq d] }
  | .atomic => { s with outbox := s.outbox ++ [.unsupported r.src r.stn r.seq] }

/-- A post that the access-control table refuses is answered with cause 0x3C and logged (R410, R449). -/
def State.fabPostRefused (s : State) (r : FabReq) (l : Loc) : Bool :=
  match postWindow l with
  | some q => r.src != s.did && !s.mayPost r.src q
  | none => false

/-- What refuses a request before it is performed: MEM = 0 in the table, a context that is not valid here, an address that
nothing backs (R389, R410, R440). -/
def State.fabRefuses (s : State) (r : FabReq) (vendor : Bool) (l : Option Loc) : Option (BitVec 8) :=
  match l with
  | some l =>
    if (postWindow l).isSome then (if s.fabPostRefused r l then some 0x3C else none)
    else if !s.mayMem r.src then some 0x06
    else if vendor && !s.ctxValid r.ctx then some 0x3E
    else none
  | none => if !s.mayMem r.src then some 0x06 else some 0x16

/-- A request arrives: a standard atomic is unsupported (R463); a retransmission that finds its reply at its home gets that reply
again; while the home's reply cache is full nothing new is accepted; else it is refused or performed (R189). In stage 15 nothing is
(R475). -/
def State.fabRequest (s : State) (r : FabReq) (vendor : Bool) : State :=
  if s.stage = 15 then s
  else if r.kind == .atomic then { s with outbox := s.outbox ++ [.unsupported r.src r.stn r.seq] }
  else
  match s.cached (s.fabHome r) r.src r.stn r.seq with
  | some c => { s with outbox := s.outbox ++ [.reply r.src r.stn r.seq c.val] }
  | none =>
    if s.repliesFull (s.fabHome r) then s
    else
      match s.fabRefuses r vendor (s.physLoc r.pa), s.physLoc r.pa with
      | some c, _ =>
        let s := if c = 0x3C then s.logErr 4 0xFFF 0 r.src 0x3C 0 0 0 else s
        s.fabReply r (.bad c 0x0C (BitVec.ofNat 64 r.pa))
      | none, some l => s.fabPerform r l
      | none, none => s

/-- FABRIC_STORE_REQUEST (R189, R410, R440). -/
def execFabricStoreRequest (r : FabReq) (s : State) : Out := .next (s.fabRequest r true)

/-- TILE_TRANSACTION (R180, R465). -/
def execTileTransaction (r : FabReq) (s : State) : Out := .next (s.fabRequest r true)

/-- UALINK_STANDARD_REQUEST (R463). -/
def execUalinkStandardRequest (r : FabReq) (s : State) : Out := .next (s.fabRequest r false)

/-- FABRIC_ACKNOWLEDGE: the reply leaves its home's reply cache (R189). -/
def execFabricAcknowledge (src stn : Nat) (seq : HomeSeq) (s : State) : Out :=
  .next { s with replyCache := s.replyCache.filter fun c => !(c.home == seq.home && c.src == src && c.stn == stn && c.seq == seq.seq) }

/-! ### This device's requests (R189) -/

/-- FABRIC_RETRANSMIT. -/
def execFabricRetransmit (id : Nat) (s : State) : Out :=
  match s.outReqs.find? fun q => q.id == id with
  | none => .fault .noSubject
  | some q =>
    if s.ptime < q.last + resendWait || resendMax ≤ q.tries then .next s
    else
      let new : OutReq := { q with last := s.ptime, tries := q.tries + 1 }
      .next { s with
        outReqs := s.outReqs.map fun x => if x == q then new else x
        outbox := s.outbox ++ [.request q.dst q.stn (q.id % seqCount) q.what] }

/-- Nanoseconds after which a request has failed. -/
def requestWait : Nat := 400000

/-- FABRIC_REQUEST_TIMEOUT. -/
def execFabricRequestTimeout (id : Nat) (s : State) : Out :=
  match s.outReqs.find? fun q => q.id == id with
  | none => .fault .noSubject
  | some q => .next (if q.first + requestWait ≤ s.ptime then s.failReq q 0x3B else s)

end Sys2Proof.Machine
end

