-- ==== Sys2Proof/Machine/Outside.lean ====
section
/-! DEFINITION. Events from outside: the host's accesses (R401, R468), the firmware (R469), time (R470, R471), register writes
by any agent (R382), power-on and bring-up (R472), retraining (R474), clocks and limits (R473, R475), error domains (R405). -/
namespace Sys2Proof.Machine

/-! ### The host's base address registers (R468) -/

/-- Physical address that an offset of BAR0 or BAR2 maps. -/
def barPa (bar off : Nat) : Option Nat :=
  if bar = 0 && off < 0x80000 then some (0x10080000000 + off)
  else if bar = 2 && off < 0x80000000 then some (0x10000000000 + off)
  else none

/-- Bytes of BAR4. -/
def bar4Bytes : Nat := 0x1000000

/-- Read a word through BAR0 or BAR2 as PLD does; what is not backed reads zero. -/
def State.hostReadW (s : State) (pa : Nat) : State × MWord :=
  match s.physLoc pa with
  | some l => if (regAt l).isSome then s.readRegWord .host l else s.readHC homeWho ⟨l, 0, false⟩
  | none => (s, ⟨0, false⟩)

/-- Write one word through BAR0 or BAR2 as PST does. -/
def State.hostWriteW (s : State) (pa : Nat) (w : MWord) : State :=
  match s.physLoc pa with
  | some l => if (regAt l).isSome then s.writeRegWord .host l w.data else s.writeHC homeWho ⟨l, 0, false⟩ 15 w
  | none => s

/-- The register that a doubleword of BAR0 or BAR2 is. -/
def State.hostReg (s : State) (pa : Nat) : Option RegId := if pa % 8 = 0 then (s.physLoc pa).bind regAt else none

/-- Write words through BAR0 or BAR2: whole registers where two words fill one. -/
def State.hostWrites (s : State) (pa : Nat) : List MWord → State
  | [] => s
  | [w] => s.hostWriteW pa w
  | w :: v :: r =>
    match s.hostReg pa with
    | some g =>
      (if regExists g && !regReadOnly g then s.regWrite .host g (join32 w.data v.data) else s).hostWrites (pa + 8) r
    | none => (s.hostWriteW pa w).hostWrites (pa + 4) (v :: r)

/-- A write through BAR0 or BAR2: 128 bytes into a post window are a packet (R406). -/
def State.hostWrite (s : State) (pa : Nat) (ws : List MWord) : State :=
  match (s.physLoc pa).bind postWindow with
  | some q =>
    if pa % 128 = 0 && ws.length = 32 then s.post ⟨q, true, s.did, wordPairs ws⟩ else s.dropPost q
  | none => s.hostWrites pa ws

/-- Read words from BAR0 or BAR2. -/
def State.hostReads (s : State) (pa n : Nat) : State × List MWord :=
  (List.range n).foldl (fun (acc : State × List MWord) i =>
    let (s, w) := acc.1.hostReadW (pa + 4 * i)
    (s, acc.2 ++ [w])) (s, [])

/-- HOST_BAR_ACCESS (R468): while the host link is up; offsets count whole words. -/
def execHostBarAccess (bar off : Nat) (op : HostOp) (s : State) : Out :=
  if !s.hostUp || off % 4 != 0 then .next s
  else if bar = 4 then
    match op with
    | .read n =>
      .next { s with outbox := s.outbox ++ [.host ((List.range n).map fun i =>
        if off + 4 * i < bar4Bytes then s.bar4.word (off + 4 * i) else ⟨0, false⟩)] }
    | .write ws =>
      .next { s with bar4 := (ws.zipIdx).foldl (fun (m : Mem) (x : MWord × Nat) =>
        if off + 4 * x.2 < bar4Bytes then m.setWord (off + 4 * x.2) 15 x.1 else m) s.bar4 }
  else
    match barPa bar off, op with
    | none, _ => .next s
    | some pa, .read n =>
      let (s, ws) := s.hostReads pa n
      .next { s with outbox := s.outbox ++ [.host ws] }
    | some pa, .write ws => .next (s.hostWrite pa ws)

/-! ### Firmware (R469) -/

/-- FIRMWARE_RELOAD: the host reloads the firmware through BAR4. -/
def execFirmwareReload (s : State) : Out := .next (if s.hostUp then { s with fwUp := true } else s)

/-- FIRMWARE_FAULT: logged; what needs firmware stops. -/
def execFirmwareFault (s : State) : Out := .next { s.report 0xFFF s.did 0x5E 0 with fwUp := false }

/-! ### Time (R435, R470, R471) -/

/-- Set the bound and whether the clock is disciplined. -/
def State.setClock (s : State) (eb : Nat) (lock : Bool) : State :=
  s.setReg rPTERR (mk64 [(63, b2n lock), (0, min 0xFFFFFFFF eb)])

/-- Correct pod time: toward a later time as a step, toward an earlier one by slewing (R470). -/
def State.correct (s : State) (offset : Int) : State :=
  if 0 ≤ offset then { s with ptime := s.ptime + offset.toNat, slew := 0 } else { s with slew := (-offset).toNat }

/-- PTP_EVENT_MESSAGE: of a device that may send time messages (R410, R470). -/
def execPtpEventMessage (m : PtpMsg) (s : State) : Out :=
  .next (if s.mayHalo m.src then (s.correct m.offset).setClock m.eb m.lock else s.refuseFrom m.src)

/-- TIME_INPUT_LOSS: an enabled input is lost; the bound grows by an amount the spec leaves open, and LOCK stays 1 while it
is within 1 µs (R471). -/
def execTimeInputLoss (pps : Bool) (s : State) : Out :=
  let on := s.regF rTSRC (if pps then 62 else 61) 1 == 1
  let eb := s.regF rPTERR 0 32 + Config.choice s.tick 471
  .next (if on then s.setClock eb (s.regF rPTERR 63 1 == 1 && eb ≤ 1000) else s)

/-- PPS_INPUT_PULSE: pod time is disciplined to the pulse's second; the bound it leaves is open (R471). -/
def execPpsInputPulse (second : Nat) (s : State) : Out :=
  .next (if s.regF rTSRC 62 1 == 1 then
    (s.correct ((second * 1000000000 : Nat) - (s.ptime : Int))).setClock (Config.choice s.tick 472) true else s)

/-! ### Register writes by the host, the policy core or a context (R382) -/

def execFqheadWrite (who : Agent) (v : Dword) (s : State) : Out := .next (s.regWrite who rFQHEAD v)
def execCrtabWrite (who : Agent) (v : Dword) (s : State) : Out := .next (s.writeCrtab who v)
def execFactbWrite (_who : Agent) (v : Dword) (s : State) : Out := .next (s.writeFactb v)
def execCstoreWrite (who : Agent) (core : Nat) (v : Dword) (s : State) : Out :=
  if 512 ≤ core then .fault .noSubject else .next (s.writeCStore who core v)
def execCresvWrite (who : Agent) (core : Nat) (v : Dword) (s : State) : Out :=
  if 512 ≤ core then .fault .noSubject else .next (s.writeCResv who core v)
/-- `i` counts the registers DPCORE, DPMEM, DPQUE, DPSTAT of the eight partitions in turn (R402). -/
def execDevicePartitionWrite (who : Agent) (i : Nat) (v : Dword) (s : State) : Out :=
  if 32 ≤ i then .fault .noSubject else .next (s.writePart who (8 + i) v)
def execLqcfgWrite (who : Agent) (q : Nat) (v : Dword) (s : State) : Out :=
  if 64 ≤ q then .fault .noSubject else .next (s.writeLqcfg who q v)
/-- `i`: 0 JBASE, 2 JACK, 3 JSTAT (R450). -/
def execJournalControlWrite (_who : Agent) (i : Nat) (v : Dword) (s : State) : Out :=
  if i = 0 || i = 2 || i = 3 then .next (s.writeJournal (0x50 + i) v) else .fault .noSubject
/-- `i`: 0 ELBASE, 2 ELHEAD (R448). -/
def execErrorLogControlWrite (_who : Agent) (i : Nat) (v : Dword) (s : State) : Out :=
  if i = 0 || i = 2 then .next (s.writeErrLog (0x54 + i) v) else .fault .noSubject
/-- `i`: 0 LOVB, 1 LOVCFG (R413). -/
def execOverflowConfigWrite (_who : Agent) (i : Nat) (v : Dword) (s : State) : Out :=
  if i < 2 then .next (s.writeOverflow (0x32 + i) v) else .fault .noSubject
def execTsrcWrite (_who : Agent) (v : Dword) (s : State) : Out := .next (s.writeTsrc v)
/-- `i`: 0 PRFCFG, 1 PRFBASE, 3 PRFHEAD (R459). -/
def execProfileConfigWrite (who : Agent) (core i : Nat) (v : Dword) (s : State) : Out :=
  if 512 ≤ core || !(i = 0 || i = 1 || i = 3) then .fault .noSubject
  else .next (s.regWrite who (.core core (0x28 + i)) v)

/-- REGISTER_WRITE: a register that does not exist, or whose fields are all RO, ignores it (R382, R385). -/
def execRegisterWrite (who : Agent) (r : RegId) (v : Dword) (s : State) : Out :=
  .next (if regExists r && !regReadOnly r then s.regWrite who r v else s)

/-- RC_REGISTER_READ: the read clears; what the host reads goes out to it (R5, R382). -/
def execRcRegisterRead (who : Agent) (r : RegId) (s : State) : Out :=
  if !regExists r then .next s
  else
    let (t, v) := s.regRead who r
    .next (match who with
      | .host => { t with outbox := t.outbox ++ [.host [⟨loW v, false⟩, ⟨hiW v, false⟩]] }
      | _ => t)

/-! ### Events of the matrix unit, the shadow port and the fault queue -/

/-- MATRIX_PASS_COMPLETE: after the passes of its tile and lanes that stand before it (R316 to R318). -/
def execMatrixPassComplete (m : MatPass) (s : State) : Out :=
  match s.matQ.findIdx? (· == m) with
  | none => .fault .noSubject
  | some i => .next ((neededPasses m.sid (some m.tile) (s.matQ.take (i + 1)) m.lanes).foldl State.applyPass s)

/-- SHADOW_SAMPLE: a write of SHADDR (R455). -/
def execShadowSample (who : Agent) (v : Dword) (s : State) : Out := .next (s.writeShaddr who v)

/-- The agent may sample a context: it holds the debug right over it (R454). -/
def State.maySample (s : State) (who : Agent) (c : Nat) : Bool :=
  match who with
  | .ctx o => s.holdsRight o c
  | _ => true

/-- A sample fails. -/
def State.shFail (s : State) (cause : Nat) : State := s.setReg rSHSTAT (mk64 [(63, 1), (62, 1), (0, cause)])

/-- SHADOW_SAMPLE_DONE: of the context that SHCTL named at the write of SHADDR; parity is checked as at any read (R87, R455). -/
def execShadowSampleDone (s : State) : Out :=
  match s.shPend with
  | none => .fault .noSubject
  | some (a, who, c) =>
    let s := { s with shPend := none }
    if !s.maySample who c then .next (s.shFail 0x02)
    else
      match s.translate (s.whoCtx c) .read a with
      | (s, .error e) => .next (s.shFail e.toNat)
      | (s, .ok p) =>
        let s := ((s.touchRetired p.loc).checkImage p.loc).checkImage (p.loc.add 4)
        let lo := s.getW p.loc
        let hi := s.getW (p.loc.add 4)
        .next ((s.setReg rSHSTAT (mk64 [(63, 1), (61, b2n hi.mark), (60, b2n lo.mark)])).setReg rSHDATA (join32 lo.data hi.data))

/-- FQ_BUFFER_POST: an entry of the hub's buffer is written as the queue has room (R391). -/
def execFqBufferPost (s : State) : Out :=
  match s.fqBuf with
  | [] => .fault .noSubject
  | e :: r => .next (if s.fqFull then s else { s.fqWrite e with fqBuf := r })

/-! ### Containing many strands (R402, R405, R475) -/

/-- Every strand that a condition names becomes a containment event. -/
def State.containAll (s : State) (cause : BitVec 8) (p : Strand → Bool) : State :=
  (s.strands.filter fun e => e.2.life != .retired && e.2.clasp.isNone && p e.2).foldl
    (fun s e => s.contain e.1 cause 0 (s.strand e.1).anyPc none) s

/-- The bodies that clasps run end (R479). -/
def State.endBodies (s : State) : State :=
  (s.strands.filter fun e => e.2.clasp.isSome).foldl (fun s e => s.claspEnd e.1 claspFault) s

/-- EMERGENCY_STOP: every strand is contained, the bodies of clasps end, and the clock stops (R475). -/
def execEmergencyStop (s : State) : Out := .next ((s.containAll 0x5F fun _ => true).endBodies.setRegF rBRSTAT 60 4 15)

/-- An uncorrectable error closes a partition's error domain: the error and the closed domain are logged, EDC is set, and every
strand of the partition's contexts is contained (R405, R448). -/
def State.closeDomain (s : State) (part : Nat) (cause : BitVec 8) (addr : Dword) : State :=
  let s := s.logErr 1 0xFFF part s.did cause.toNat addr 0 0
  let s := (s.setRegF (rDPSTAT part) 1 1 1).logErr 3 0xFFF part s.did 0x58 addr 0 0
  s.containAll 0x58 fun st => s.ctxPart st.ctx == part

/-- The cause and the address of the first error that has struck control state of a partition and has not been answered yet. -/
def State.domainError (s : State) (part : Nat) : Option (BitVec 8 × Dword) :=
  s.strikes.findSome? fun e => match e with
    | .control p cause addr => if p == part then some (cause, addr) else none
    | _ => none

/-- ERROR_DOMAIN_CLOSE (R405), of the first error that has struck control state of the partition. -/
def execErrorDomainClose (part : Nat) (s : State) : Out :=
  if 8 ≤ part then .fault .noSubject
  else
    match s.domainError part with
    | none => .next s
    | some (cause, addr) =>
      .next ({ s with strikes := s.strikes.erase (.control part cause addr) }.closeDomain part cause addr)

/-! ### Reset and bring-up (R472) -/

/-- What a reset leaves of the device: memory keeps its contents or is cleared, which the spec leaves open; what is not the
device's stays. -/
def State.afterReset (s : State) : State :=
  { State.reset with
    tick := s.tick
    inputs := s.inputs
    abroad := s.abroad
    strikes := s.strikes
    outbox := s.outbox
    host := s.host
    remote := s.remote
    reach := s.reach
    mem := if Config.choice s.tick 472 % 2 = 0 then s.mem else ⟨[], []⟩
    regs := aputD (resetReg rDID) [] (regKey rDID) (s.reg rDID) }

/-- POWER_ON_RESET: strands still there are contained with 0x59; then every register has its reset value, and stage 1
begins with the host link trained (R402, R472). -/
def execPowerOnReset (s : State) : Out :=
  let s := (s.containAll 0x59 fun _ => true).afterReset
  .next { s.setRegF rBRSTAT 60 4 1 with hostUp := true }

/-- Leave a stage for the next. -/
def State.leaveStage (s : State) (n : Nat) (ok : Bool) : State :=
  if s.stage = n && ok then s.setRegF rBRSTAT 60 4 (n + 1) else s

/-- FIRMWARE_STAGE_DONE: the image has passed its check and runs, and the host link is up. -/
def execFirmwareStageDone (s : State) : Out :=
  .next (if s.stage = 1 && s.hostUp then { s.leaveStage 1 true with fwUp := true } else s)

/-- WARMING_DONE: the coldest stack is read; the stage ends at −20 °C. -/
def execWarmingDone (cold : BitVec 8) (s : State) : Out :=
  .next (if s.fwUp then (s.setRegF rBRSTAT 40 8 cold.toNat).leaveStage 2 (decide (-20 ≤ cold.toInt)) else s)

/-- MEMORY_TRAINING_DONE: device memory is then offered over CXL.mem (R467). -/
def execMemoryTrainingDone (s : State) : Out :=
  .next (if s.fwUp && s.stage = 3 then { s.leaveStage 3 true with memOffered := true } else s)

/-- LINKS_DONE: pod time is locked, or the device belongs to no pod. -/
def execLinksDone (s : State) : Out :=
  .next (if s.fwUp then s.leaveStage 4 (s.regF rPTERR 63 1 == 1 || !s.inPod) else s)

/-! ### Drifting conditions (R473, R474) -/

/-- The state of a stack's channels. -/
def State.chan (s : State) (stack : Nat) : StackSt := (aget s.chans stack).getD ⟨[], []⟩

/-- The service position of a channel: its own number, or the one that a spare (128, 129) took over. -/
def StackSt.position (c : StackSt) (ch : Nat) : Nat := ((c.moved.find? fun m => m.2 == ch).map (·.1)).getD ch

/-- The channel that serves a position: its own, or the last spare that took it over. -/
def StackSt.server (c : StackSt) (p : Nat) : Nat := ((c.moved.reverse.find? fun m => m.1 == p).map (·.2)).getD p

/-- A channel is in service: it serves a position, a spare only one that it took over (R18). -/
def StackSt.inService (c : StackSt) (ch : Nat) : Bool := c.position ch < 128 && c.server (c.position ch) == ch

/-- CHANNEL_RETRAIN: one channel in service, a bound spare too, is out while a spare holds its contents; none once both spares are
bound (R18, R474). -/
def execChannelRetrain (stack ch : Nat) (s : State) : Out :=
  if 8 ≤ stack || 130 ≤ ch then .fault .noSubject
  else
    let r := rCHSPR stack
    .next (if s.fwUp && s.regF r 0 8 == 0xFF && s.regF r 16 1 == 0 && (s.chan stack).inService ch then s.setRegF r 0 8 ch else s)

/-- A spare takes over a channel's position for good. -/
def State.bindSpare (s : State) (stack ch : Nat) : State :=
  let r := rCHSPR stack
  let c := s.chan stack
  if s.regF r 8 8 = 0xFF then
    { s.setRegF r 8 8 ch with chans := aput s.chans stack { c with moved := c.moved ++ [(ch, 128)] } }
  else
    { (s.setRegF r 56 8 ch).setRegF r 16 1 1 with
      chans := aput s.chans stack { c with moved := c.moved ++ [(c.position ch, 129)] } }

/-- CHANNEL_RETRAINING_DONE: the channel returns, or its spare replaces it for good; without the firmware nothing is done (R469). -/
def execChannelRetrainingDone (stack : Nat) (passed : Bool) (s : State) : Out :=
  if 8 ≤ stack then .fault .noSubject
  else
    let r := rCHSPR stack
    let ch := s.regF r 0 8
    if ch = 0xFF || !s.fwUp then .next s
    else
      let s := s.setRegF r 0 8 0xFF
      .next (if passed then s.bump r 24 8 else s.bindSpare stack ch)

/-- CHANNEL_RETIRE: a channel that fails once both spares are bound is retired; its position reads poisoned from then on. -/
def execChannelRetire (stack ch : Nat) (s : State) : Out :=
  if 8 ≤ stack || 130 ≤ ch then .fault .noSubject
  else
    let r := rCHSPR stack
    let c := s.chan stack
    let p := c.position ch
    if s.regF r 16 1 = 0 || !c.inService ch || (aget c.retired p).isSome then .next s
    else
      let s := { s with chans := aput s.chans stack { c with retired := aput c.retired p () } }
      let s := (s.setRegF r 48 8 (s.regF r 48 8 + 1)).setRegF r 40 8 ch
      .next (s.logErr 6 0xFFF 0 s.did 0x1F 0 (mk64 [(0, stack), (8, ch)]) 0)

/-- MARGIN_STRETCH: one clock edge of a core is stretched, which no result sees. -/
def execMarginStretch (core : Nat) (s : State) : Out :=
  if 512 ≤ core then .fault .noSubject else .next { s with stretches := s.stretches + 1 }

/-- GOVERNOR_ADJUST: the average arithmetic clock within 704 to 896 MHz, and the supply. -/
def execGovernorAdjust (mhz mv : Nat) (s : State) : Out :=
  .next (if s.fwUp && 704 ≤ mhz && mhz ≤ 896 then { s with mhz := mhz, mv := mv } else s)

/-! ### The end of a debug right (R458) -/

/-- The Halted strands of a context, those that are Out among them. -/
def State.haltedOf (s : State) (ctx : Nat) : List Nat :=
  (s.strands.filter fun e => e.2.ctx == ctx && e.2.clasp.isNone && e.2.isHalted).map (·.1)

/-- DEBUG_RIGHT_REVOCATION: the context's Halted strands are released, each with a debug event. -/
def execDebugRightRevocation (ctx : Nat) (s : State) : Out :=
  if !s.revoked.contains ctx then .fault .noSubject
  else
    let sids := s.haltedOf ctx
    let s := { s with revoked := s.revoked.erase ctx }
    let s := sids.foldl (fun (s : State) sid =>
      let t := s.letGo sid
      t.dbgPost 3 ctx 0 (t.strand sid).nextPc (t.strand sid).base) s
    .next ((s.note ctx 1 (BitVec.ofNat 64 sids.length)).report ctx s.did 0x5A 0)

end Sys2Proof.Machine
end

