-- ==== Sys2Proof/Machine/Coherence.lean ====
section
/-! DEFINITION. The home slices' directory (R395 to R397), a die's reset (R399), and the host's coherence (R401). Words are kept in one
place in the model, so that the directory's states and counters are what its events change. -/
namespace Sys2Proof.Machine

/-- COHERENCE_REQUEST (R395, R396, R397). -/
def execCoherenceRequest (cache line : Nat) (req : CohReq) (s : State) : Out := .next (s.cohRequest cache line req)

/-- A cache leaves a line's entry. -/
def State.dirDrop (s : State) (p : DirEnt → Bool) : State := { s with dir := s.dir.filter fun d => !p d }

/-- EVICTION_NOTICE: clean or dirty, the cache leaves the entry; L2 and memory hold what a dirty notice takes there. -/
def execEvictionNotice (cache line : Nat) (dirty : Bool) (s : State) : Out :=
  let held := (s.holders line).any fun d => d.cache == cache && (!dirty || d.st == .m || d.st == .o)
  let t := s.dirDrop fun d => d.line == line && d.cache == cache
  .next (if !held then s else if dirty then t.lineClean (.mem (line * lineBytes)) else t)

/-- HOME_PROBE: an absent copy answers "absent"; else it is invalidated, and its data are at the home, or it gives up M or E (R396). -/
def execHomeProbe (cache line : Nat) (inval : Bool) (s : State) : Out :=
  let dirty := (s.holders line).any fun d => d.cache == cache && (d.st == .m || d.st == .o)
  .next (if inval then
      let t := s.dirDrop fun d => d.line == line && d.cache == cache
      if dirty then t.lineClean (.mem (line * lineBytes)) else t
    else { s with dir := s.dir.map fun d => if d.line == line && d.cache == cache then { d with st := sharedState d.st } else d })

/-- DIRECTORY_RECALL: the copies of a region are recalled, and what they had modified is at the home (R395). -/
def execDirectoryRecall (region : Nat) (s : State) : Out :=
  .next { s.dirDrop fun d => d.line * lineBytes / regionSize == region && d.line < hostLine with
    oldLines := s.oldLines.filter fun o => o.loc.off / regionSize != region }

/-- Cycles without a request after which siblings merge (R397). -/
def mergeCycles : Nat := 2 ^ 20

/-- REGION_MERGE: two sibling units of one region with equal summaries, and no request for 2^20 cycles (R397). -/
def execRegionMerge (base size : Nat) (s : State) : Out :=
  let quiet (b : Nat) : Bool := s.dirUnits.any fun u => u.1 == b && u.2.1 == size && u.2.2 + mergeCycles ≤ s.clock
  if size != 0 && 2 * size ≤ regionSize && base % (2 * size) == 0 && quiet base && quiet (base + size)
      && sameSummary (s.unitEnts base size) (s.unitEnts (base + size) size) then
    let rest := s.dirUnits.filter fun u => u.1 != base && u.1 != base + size
    .next { s with dirUnits := if 2 * size = regionSize then rest else rest ++ [(base, 2 * size, s.clock)] }
  else .next s

/-! ### Resets of a die, and the host (R399, R401) -/

/-- The die that a cache belongs to. -/
def cacheDie (c : Nat) : Nat := if c < 512 then c / 128 else c - 512

/-- The home of a line of device memory is on a die (R478). -/
def homedOn (die pa : Nat) : Bool := pa < deviceBytes && pa / stackBytes / 2 == die

/-- DIE_RESET: the die begins to write back, which DHCA bit 31 shows; then its dirty lines are written back and its copies dropped,
and so is every copy of a line homed at its slices, which no strand of other dies observes (R386, R399, R401). -/
def execDieReset (die : Nat) (s : State) : Out :=
  if 4 ≤ die then .fault .noSubject
  else if !s.resetting.contains die then .next { s with resetting := s.resetting ++ [die] }
  else
    let s := { s with resetting := s.resetting.erase die }
    let homed (l : Loc) : Bool := match l with | .mem pa => homedOn die pa | _ => false
    let gone (c : SmCopy) : Bool := c.clu == die || homed c.loc
    let s := s.flushCores fun k => k / 128 == die
    let s := { s with oldLines := s.oldLines.filter fun o => !homed o.loc }
    let s := (s.smCopies.filter gone).foldl (fun s c => (s.writeBack c).dropCopy c.clu c.loc) s
    let s := s.dirDrop fun d => d.cache != hostCache && cacheDie d.cache == die || homedOn die (d.line * lineBytes)
    .next { s.tlbDrop (some die) (fun _ => true) with icache := s.icache.filter fun l => l.core / 128 != die }

/-- HOST_SNOOP: answered in every state of the device; a copy that is held is given up, and the answer holds the line's data where a
copy is dirty, also while a die writes it back (R401). -/
def execHostSnoop (line : Nat) (s : State) : Out :=
  let l : Loc := .host ((line - hostLine) * lineBytes)
  let cs := s.smCopies.filter fun c => c.loc == l
  let hs := (s.holders line).filter fun d => d.cache != hostCache
  let dirty := hs.any (fun d => d.st == .m || d.st == .o) || cs.any fun c => !c.dirty.isEmpty
  let s := cs.foldl (fun s c => (s.writeBack c).dropCopy c.clu c.loc) s
  let ws := if dirty then (List.range (lineBytes / 4)).map fun i => s.getW (l.add (4 * i)) else []
  .next { s.dirDrop (fun d => d.line == line && d.cache != hostCache) with
    outbox := s.outbox ++ [.snoop line (!hs.isEmpty || !cs.isEmpty) ws] }

/-- What the host's access finds at a word of device memory: a line of a retired position, a strand's image, what lanes have written
there, and the copies of its line, among whose holders the host is (R169, R395, R474). -/
def State.hostTouch (s : State) (pa : Nat) (req : CohReq) : State :=
  (((s.touchRetired (.mem pa)).checkImage (.mem pa)).showLoc (.mem pa)).cohRequest hostCache (pa / lineBytes) req

/-- The host reads and writes words of device memory, at the home, at system scope. -/
def State.hostMemRead (s : State) (pa n : Nat) : State × List MWord :=
  (List.range n).foldl (fun (acc : State × List MWord) i =>
    let s := acc.1.hostTouch (pa + 4 * i) .shared
    (s, acc.2 ++ [s.getW (.mem (pa + 4 * i))])) (s, [])
def State.hostMemWrite (s : State) (pa : Nat) (ws : List MWord) : State :=
  (ws.zipIdx).foldl (fun (s : State) x =>
    ((s.hostTouch (pa + 4 * x.2) .modified).lineClean (.mem (pa + 4 * x.2))).putW (.mem (pa + 4 * x.2)) 15 x.1) s

/-- HOST_MEMORY_ACCESS: CXL.mem, once device memory is offered (R401, R467); in stage 15 the stacks refresh themselves and serve nothing
(R475). -/
def execHostMemoryAccess (pa : Nat) (op : HostOp) (s : State) : Out :=
  let n := match op with | .read n => n | .write ws => ws.length
  if !s.memOffered || s.stage == 15 || deviceBytes < pa + 4 * n || pa % 4 != 0 then .next s
  else
    match op with
    | .read n =>
      let (t, ws) := s.hostMemRead pa n
      .next { t with outbox := t.outbox ++ [.host ws] }
    | .write ws => .next (s.hostMemWrite pa ws)

end Sys2Proof.Machine
end

