-- ==== Sys2Proof/Machine/Errors.lean ====
section
/-! DEFINITION. Errors of the hardware as they strike (R87, R88, R134, R153, R162, R194, R327, R405): a register's and a scratchpad's
are found when the word is read, other errors are repaired and counted, become poison, or close an error domain. -/
namespace Sys2Proof.Machine

/-- The counters of corrected and uncorrectable errors of a core, and of a stack's cluster (R446). -/
def State.countFix (s : State) (k : Nat) (fixed : Bool) : State := s.bump (if fixed then rCECNT k else rUECNT k) 0 32
def State.countFixL2 (s : State) (pa : Nat) (fixed : Bool) : State :=
  s.bump (if fixed then rL2CE (pa / stackBytes / 2) else rL2UE (pa / stackBytes / 2)) 0 32

/-- The sector of a byte: 32 bytes. -/
def sectorBytes : Nat := 32

/-- The words of a sector become poison with one token that names no record (R134). -/
def State.poisonSector (s : State) (pa : Nat) (tok : Word) : State :=
  s.putWords (.mem (pa / sectorBytes * sectorBytes)) (List.replicate 8 ⟨tok, true⟩)

/-- The valid context whose descriptor holds a byte of device memory (R375). -/
def State.descAt (s : State) (pa : Nat) : Option Nat :=
  let b := (s.reg rDCTXB).toNat
  if b ≤ pa && pa < b + 128 * 4096 && s.ctxValid ((pa - b) / 128) then some ((pa - b) / 128) else none

/-- The L1 of a core holds the line of a byte of device memory (R395). -/
def State.inL1 (s : State) (k pa : Nat) : Bool := (s.holders (pa / lineBytes)).any fun d => d.cache == k

/-- A strand's image has its lines in a register region: it is placed and not Out (R159). -/
def Strand.inRegion (st : Strand) : Bool :=
  match st.life with
  | .out _ => false
  | .retired => false
  | _ => true

/-- An error strikes. -/
def State.strike (s : State) (e : Strike) : State :=
  match e with
  | .reg sid i spare =>
    (match aget s.strands sid with
     | some st => if st.inRegion && i < st.bytes / 4 then s.modStrand sid fun st => { st with flips := aput st.flips i spare } else s
     | none => s)
  | .spad k row bank =>
    if k < 512 && bank < 40 && 256 * row < s.spadBytes k then { s with spadErr := aput s.spadErr (spadKey k row bank) () } else s
  | .sector pa inSlice fixed =>
    if deviceBytes ≤ pa then s
    else
      let s := s.countFixL2 pa fixed
      if fixed then s
      else
        let cause : BitVec 8 := if inSlice then 0x10 else 0x0F
        let s := match s.descAt pa with
          | some c => s.closeDomain (s.ctxPart c) cause (BitVec.ofNat 64 pa)
          | none => s
        s.poisonSector pa (mkTok cause 0x0B 0xFFFF)
  | .l1 k pa fixed =>
    if !s.inL1 k pa then s
    else
      let s := s.countFix k fixed
      if fixed then s else s.poisonSector pa (mkTok 0x11 0x02 0xFFFF)
  | .vector sid lanes fixed =>
    if (aget s.strands sid).isSome then s.modStrand sid fun st => { st with vecErr := st.vecErr ++ [(lanes, fixed)] } else s
  | .rows n rows fixed =>
    match s.matQ[n]? with
    | none => s
    | some m =>
      let s := s.countFix (s.coreOf m.sid) fixed
      if fixed || m.mark.isSome then s
      else
        let (s, t) := s.record m.sid (dataRec 0x2E 0x04 m.pc 0 none)
        let bad : MatPass := { m with a := (m.rows.zip m.a).map fun r => if rows.contains r.1 then (r.2.1, .tok t) else r.2 }
        { s with matQ := s.matQ.modify n fun _ => bad }
  | .line core ctx va word bit =>
    { s with icache := s.icache.map fun c =>
        if c.core == core && c.ctx == ctx && c.va == va then
          { c with words := c.words.modify word fun w => w ^^^ (1#32 <<< bit) }
        else c }
  | .control part cause addr => if part < 8 then s.closeDomain part cause addr else s
  | .completion line => { s with hostErr := aput s.hostErr line () }

end Sys2Proof.Machine
end

