-- ==== Sys2Proof/Machine/Matrix.lean ====
section
/-! DEFINITION. The meanings of group 0x7: the matrix units (R299 to R328). A pass takes its operands at issue and lands later; latches
are held as decoded at their MLATCH. -/
namespace Sys2Proof.Machine

/-! ### Shared operations -/

/-- K per row of a format, its bytes per row, and its scale blocks (R300). -/
def matK : Nat → Nat
  | 0 => 16
  | 1 => 32
  | 2 => 32
  | 7 => 128
  | 10 => 128
  | 11 => 128
  | 12 => 256
  | 13 => 320
  | 14 => 128
  | 15 => 128
  | _ => 64
def matWords (t : Nat) : Nat := if t = 5 || t = 6 then 12 else if 14 ≤ t then 8 else 16
def matBlocks (t : Nat) : Nat := matK t / 32

/-- The quarter of a MAT instruction, and the active lanes of it as row numbers (R303). -/
def matQuarter (b : MatBody) : Nat := fld b.var 0 2
def quarterRows (m : Lanes) (q : Nat) : List Nat := (List.range 32).filter fun i => m.getLsbD (32 * q + i)

/-- Integer formats, T5 among them (R119). -/
def isIntFmt (t : Nat) : Bool := 8 ≤ t && t ≤ 13

/-- A tile in use by an instruction (R73, R140). -/
def tileUse (t : Nat) (write : Bool) : Use := ⟨.tile, t, 1, write, false, false, 15⟩

/-- The number of a register operand. -/
def opNum : Operand → Nat
  | .vec n => n.toNat
  | .sc n => n.toNat
  | _ => 0

/-- A lane's string over consecutive vector registers, and the image addresses of its words (R303). -/
def State.laneString (s : State) (sid lane k n : Nat) : List MWord :=
  let st := s.strand sid
  (List.range n).map fun r => st.readWord s.tick (st.vecIx (k + r) lane)
def State.laneAddr (s : State) (sid lane k : Nat) (r : Nat) : Dword :=
  let st := s.strand sid
  st.wordVa (st.vecIx (k + r) lane)

/-- Turn the faults of an instruction's elements into tokens, one record for each cause (R128, R129). -/
def State.settleMat {α : Type} (s : State) (sid : Nat) (pc : Dword) (tag : Nat)
    (rs : List ((Nat × Nat × Nat) × Option Nat × Except ReplyVal α)) : State × List (Except Word α) :=
  let r := rs.foldl (fun (acc : State × List (Except Word α)) x =>
    match x.2.2 with
    | .ok v => (acc.1, .ok v :: acc.2)
    | .error (.bad c _ a) =>
      let (s, t) := acc.1.sharedToken sid tag (matRec c pc a x.2.1 x.1)
      (s, .error t :: acc.2)
    | .error (.tok t) => (acc.1, .error t :: acc.2)
    | .error (.words _) => (acc.1, .error 0 :: acc.2)) (s, [])
  (r.1.endTag sid tag, r.2.reverse)

/-- What a decoded line says, as it is kept. -/
def colAt (x : Except ReplyVal (List Val)) : ColAt :=
  match x with
  | .ok v => .vals v
  | .error (.bad c _ a) => .bad c a
  | .error (.tok t) => .tok t
  | .error (.words _) => .tok 0

/-! ### Scratchpad operands (R304, R305) -/

/-- The generic address of a window offset. -/
def windowAddr (nb : Bool) (off : Nat) : Dword := (if nb then 0xFD00000000000000 else 0xFE00000000000000) + BitVec.ofNat 64 off

/-- One aligned word of a window as the issuing fragment reads it; none outside it (R306). -/
def State.windowWord (s : State) (sid : Nat) (nb : Bool) (off : Nat) : Option MWord :=
  match (s.translate (s.whoOf sid) .read (windowAddr nb off)).2 with
  | .error _ => none
  | .ok p =>
    let w := s.getW p.loc
    let (h, m, hm) := (s.strand sid).heldOver p.loc w.data
    some (if w.mark && m != 15 then w else ⟨h, hm⟩)

/-- Consecutive words of a window, or the address of the first that lies outside. -/
def State.windowString (s : State) (sid : Nat) (nb : Bool) (off n : Nat) : Except Dword (List MWord) :=
  (List.range n).foldr (fun i acc =>
    match s.windowWord sid nb (off + 4 * i), acc with
    | some w, .ok l => .ok (w :: l)
    | some _, e => e
    | none, _ => .error (windowAddr nb (off + 4 * i))) (.ok [])

/-- Words of a window: whose it is, the offset of the first, and how many. -/
abbrev Span := Bool × Nat × Nat

/-- Scratchpad words are read: a wrong one is rebuilt or becomes poison, and every agent sees from then on what they hold (R162, R169,
R306). -/
def State.readSpans (s : State) (sid : Nat) (spans : List Span) : State :=
  if s.spadErr.isEmpty && s.lags.isEmpty then s
  else spans.foldl (fun s x => (List.range x.2.2).foldl (fun s i =>
    match (s.translate (s.whoOf sid) .read (windowAddr x.1 (x.2.1 + 4 * i))).2 with
    | .ok p => (s.checkSpad p.loc).showLoc p.loc
    | .error _ => s) s) s

/-- An access of the issuing fragment's lanes to these words has still to be performed: a read there must follow it (R169, R306). -/
def State.spansWait (s : State) (cx : Cx) (spans : List Span) : Bool :=
  if (s.unperformed cx.sid).isEmpty then false
  else spans.any fun x => (lanesOf cx.frag.mask).any fun l => s.waitsFor cx.sid l (windowAddr x.1 x.2.1) (4 * x.2.2) false

/-- Fields of a descriptor pair (R304). -/
def dBASE (d0 : Dword) : Nat := fld d0 0 32
def dRPITCH (d0 : Dword) : Nat := fld d0 32 16
def dTPITCH (d0 : Dword) : Nat := fld d0 48 16
def dQSTEP (d1 : Dword) : Nat := fld d1 17 1
def dNBW (d1 : Dword) : Bool := fld d1 16 1 == 1
def dCOUNT (d1 : Dword) : Nat := fld d1 8 6
def dROT (d1 : Dword) : Nat := fld d1 0 5

/-- COUNT is valid. -/
def countOk (d1 : Dword) : Bool := 1 ≤ dCOUNT d1 && dCOUNT d1 ≤ 32

/-- What is wrong with a descriptor pair and a scale offset in themselves (R305). -/
def descFault (d0 d1 : Dword) (sc : Option Dword) : Option (BitVec 8) :=
  if fld d1 18 46 != 0 || fld d1 14 2 != 0 || fld d1 5 3 != 0 || dBASE d0 % 8 != 0 || dRPITCH d0 % 8 != 0
      || dTPITCH d0 % 8 != 0 || (match sc with | some c => c.toNat % 8 != 0 || fld c 32 32 != 0 | none => false) then some 0x28
  else if countOk d1 then none else some 0x2D

/-- The window offset of row r of quarter q (R304). -/
def rowOffset (d0 d1 : Dword) (q r : Nat) : Nat :=
  dBASE d0 + dQSTEP d1 * q * dTPITCH d0 + r * dRPITCH d0 + 8 * (r * dROT d1 % 32)

/-- Strings of rows, or the first address outside the window. -/
def State.windowRows (s : State) (sid : Nat) (nb : Bool) (n : Nat) (offs : List Nat) : Except Dword (List (List MWord)) :=
  offs.foldr (fun o acc =>
    match s.windowString sid nb o n, acc with
    | .ok w, .ok l => .ok (w :: l)
    | .ok _, e => e
    | .error a, _ => .error a) (.ok [])

/-- One operand row as read: its words, its scale words, and their addresses. -/
structure RowIn where
  row : Nat
  lane : Option Nat
  words : List MWord
  scales : List MWord
  addr : Nat → Dword
  saddr : Dword

/-! ### Latch source records (R310) -/

/-- A latch source record. -/
structure LatchRec where
  head : Dword
  d0 : Dword
  d1 : Dword
  lscale : Dword
  ltable : Dword
  sscale : Dword
  stable : Dword
  /-- a bit of +0x38 to +0x7F is set -/
  spare : Bool
  /-- the token of a descriptor that was read as poison -/
  tok : Option Word
  deriving DecidableEq, Repr

/-- Read record b of a strand's image. -/
def Strand.latchRec (st : Strand) (b : Nat) : LatchRec :=
  let d (off : Nat) : Dword := st.dw (st.latchIx b off)
  let w (off : Nat) : MWord := let x := st.word (st.latchIx b off); ⟨x.data, x.mark⟩
  ⟨d 0x00, d 0x08, d 0x10, d 0x18, d 0x20, d 0x28, d 0x30, (List.range 9).any fun i => d (0x38 + 8 * i) != 0,
    match pairTok (w 0x08) (w 0x0C) with
    | some t => some t
    | none => pairTok (w 0x10) (w 0x14)⟩

def LatchRec.valid (r : LatchRec) : Bool := fld r.head 63 1 == 1
def LatchRec.bsp (r : LatchRec) : Bool := fld r.head 62 1 == 1
def LatchRec.scl (r : LatchRec) : Bool := fld r.head 61 1 == 1
def LatchRec.typeb (r : LatchRec) : Nat := fld r.head 52 4
def LatchRec.gen (r : LatchRec) : Nat := fld r.head 32 16

/-- Source words: kind, and value. -/
def skind (w : Dword) : Nat := fld w 62 2
def srcWord (kind : Nat) (nb : Bool) (val : Nat) : Dword := mk64 [(62, kind), (56, b2n nb), (0, val % 2 ^ 56)]

/-- A reserved bit is set, or a reserved SKIND stands, in a record (R311). -/
def LatchRec.corrupt (r : LatchRec) : Bool :=
  let badSrc (w : Dword) : Bool := fld w 57 5 != 0
  r.spare || fld r.head 56 2 != 0 || fld r.head 48 4 != 0 || fld r.head 0 32 != 0
    || (!r.bsp && (fld r.d0 10 54 != 0 || fld r.d1 32 32 != 0))
    || badSrc r.lscale || badSrc r.ltable || badSrc r.sscale || badSrc r.stable || skind r.ltable == 2 || skind r.stable == 2

/-! ### Reading a B tile (R303, R304, R307, R308) -/

/-- The scale words of a latch, the address of the first, and how many bytes of it come before the scales; R305 asks
no alignment of a staged address. -/
def State.latchScales (s : State) (sid : Nat) (r : LatchRec) : Except ReplyVal (List MWord × Dword × Nat) :=
  let w := r.lscale
  let st := s.strand sid
  match skind w with
  | 0 => .error (.bad (if fld w 0 56 = 0 then 0x2C else 0x28) 0x04 0)
  | 1 => .ok (s.stringOf sid (.vec (BitVec.ofNat 8 (fld w 0 8))), st.wordVa (st.vecIx (fld w 0 8) 0), 0)
  | 2 =>
    let off := fld w 0 56
    let nb := fld w 56 1 == 1
    let base := off / 4 * 4
    (match s.windowString sid nb base (8 * matBlocks r.typeb + (if off % 4 = 0 then 0 else 1)) with
     | .ok l => .ok (l, windowAddr nb base, off % 4)
     | .error a => .error (.bad 0x29 0x04 a))
  | _ => .error (.tok (loW w))

/-- The table words of a latch. -/
def State.latchTable (s : State) (sid : Nat) (r : LatchRec) : Except ReplyVal (List MWord × Nat) :=
  if r.typeb != 15 then .ok ([], 0)
  else
    match skind r.ltable with
    | 1 =>
      let k := fld r.ltable 0 8
      .ok (s.qtTable sid (.vec (BitVec.ofNat 8 k)), k)
    | 3 => .error (.tok (loW r.ltable))
    | _ => .error (.bad 0x2A 0x04 0)

/-- The scratchpad words that a latch's sources are. -/
def LatchRec.spans (r : LatchRec) : List Span :=
  (if r.bsp && (descFault r.d0 r.d1 none).isNone then
    (List.range (dCOUNT r.d1)).map fun j => (dNBW r.d1, rowOffset r.d0 r.d1 (fld r.head 58 2) j, matWords r.typeb) else [])
  ++ if r.scl && skind r.lscale == 2 then
    [(fld r.lscale 56 1 == 1, fld r.lscale 0 56 / 4 * 4, 8 * matBlocks r.typeb + (if fld r.lscale 0 2 = 0 then 0 else 1))] else []

/-- The image words that a latch's sources are: columns, scales and table. -/
def LatchRec.words (r : LatchRec) (st : Strand) : List Nat :=
  (if r.bsp then [] else
    ((List.range 32).filter fun j => r.d1.getLsbD j).flatMap fun j =>
      (List.range (matWords r.typeb)).map fun i => st.vecIx (fld r.d0 0 8 + i) (32 * fld r.d0 8 2 + j))
  ++ (if r.scl && skind r.lscale == 1 then (List.range (8 * matBlocks r.typeb)).map fun l => st.vecIx (fld r.lscale 0 8) l else [])
  ++ if r.typeb == 15 && skind r.ltable == 1 then
    [0, 1].flatMap fun i => (List.range 128).map fun l => st.vecIx (fld r.ltable 0 8 + i) l else []

/-- The sources of a latch are read (R87, R162). -/
def State.readLatch (s : State) (sid : Nat) (pc : Dword) (r : LatchRec) : State :=
  (s.checkParity sid pc (r.words (s.strand sid))).readSpans sid r.spans

/-- The columns that a latch reads: none for a column latched as zeros. -/
def State.latchStrings (s : State) (sid : Nat) (r : LatchRec) : Except ReplyVal (List (Option (List MWord × (Nat → Dword)))) :=
  let n := matWords r.typeb
  if r.bsp then
    match descFault r.d0 r.d1 none with
    | some c => .error (.bad c 0x04 0)
    | none =>
      let nb := dNBW r.d1
      let offs := (List.range (dCOUNT r.d1)).map (rowOffset r.d0 r.d1 (fld r.head 58 2))
      match s.windowRows sid nb n offs with
      | .error a => .error (.bad 0x29 0x04 a)
      | .ok rows =>
        .ok ((List.range 32).map fun j =>
          (rows[j]?).map fun w => (w, fun n => windowAddr nb (offs.getD j 0 + n)))
  else
    let k := fld r.d0 0 8
    let q := fld r.d0 8 2
    .ok ((List.range 32).map fun j =>
      if r.d1.getLsbD j then some (s.laneString sid (32 * q + j) k n, fun i => s.laneAddr sid (32 * q + j) k (i / 4)) else none)

/-- One column decoded to exact values, or the poison of its element of lowest k (R133, R308). -/
def latchCol (r : LatchRec) (scales : Option (List MWord × Dword × Nat)) (table : List MWord) (taddr : Nat → Dword) (j : Nat)
    (col : Option (List MWord × (Nat → Dword))) : Except ReplyVal (List Val) :=
  match col with
  | none => .ok (List.replicate (matK r.typeb) (.fin false 0 0))
  | some (ws, addr) =>
    (List.range (matK r.typeb)).foldr (fun e acc =>
      let at_ := 32 * (e / 32) + j + (scales.map (·.2.2)).getD 0
      let scale := scales.map fun x => readElem x.1 (8 * at_) 8
      let sa := ((scales.map (·.2.1)).getD 0) + BitVec.ofNat 64 (at_ / 4 * 4)
      match scaledElem ws table r.typeb e scale ⟨addr, taddr, sa⟩, acc with
      | .ok v, .ok l => .ok (v :: l)
      | .ok _, e => e
      | .error x, _ => .error x) (.ok [])

/-- The 32 columns that a record's sources give now (R308, R311). DESIGN CHOICE: of several faults of the whole latch, tokens of the
descriptor, the scale source and the table source stand first, then a fault of the columns, of the scale source, of the table
(assumption 115). -/
def State.latchCols (s : State) (sid : Nat) (r : LatchRec) : List (Except ReplyVal (List Val)) :=
  let all (v : ReplyVal) : List (Except ReplyVal (List Val)) := List.replicate 32 (.error v)
  let tokOf {α : Type} (x : Except ReplyVal α) : Option Word := match x with | .error (.tok k) => some k | _ => none
  let scales := if r.scl then (s.latchScales sid r).map some else .ok none
  let table := s.latchTable sid r
  match (if r.bsp then r.tok else none).or ((tokOf scales).or (tokOf table)) with
  | some k => all (.tok k)
  | none =>
    match s.latchStrings sid r, scales, table with
    | .error v, _, _ => all v
    | _, .error v, _ => all v
    | _, _, .error v => all v
    | .ok cols, .ok sc, .ok (tab, k) =>
      let st := s.strand sid
      (cols.zipIdx).map fun c => latchCol r sc tab (fun x => st.wordVa (st.vecIx k x)) c.2 c.1

/-- Settle columns into lines: a column of the register form is a lane's (R129, R303). -/
def State.settleCols (s : State) (sid : Nat) (pc : Dword) (tag : Nat) (l : LatchRec) (cols : List ColAt) : State × List MatLine :=
  s.settleLines sid pc tag ((cols.zipIdx).map fun c =>
    ((0, 0, c.2), if l.bsp then none else some (32 * fld l.d0 8 2 + c.2), c.1))

/-- Keep a latch as the strand's bank b. -/
def State.putLatch (s : State) (l : Latch) : State :=
  { s with latches := l :: s.latches.filter fun x => !(x.sid == l.sid && x.bank == l.bank) }

/-- What an MMQ finds in a bank: empty, a corrupt record, or its record, whether it re-latches, and its columns. -/
inductive BankRes where
  | empty
  | corrupt
  | cols (r : LatchRec) (fresh : Bool) (l : List ColAt)

/-- A column held from the MLATCH, as its source. -/
def heldCol (l : MatLine) : ColAt :=
  match l with
  | .vals v => .vals v
  | .tok t => .tok t

/-- A column held from the MLATCH says the same as its sources do at some moment: poison with a cause of its own is the token that the
MLATCH made of it. -/
def sameCol (held : MatLine) (now : ColAt) : Bool :=
  match held, now with
  | .vals v, .vals w => v == w
  | .tok t, .tok u => t == u
  | .tok t, .bad c _ => tokCause t == c
  | _, _ => false

/-- What a column of a latch may be taken as: as it was latched, as its sources have been since, or as they are (R312). -/
def Latch.choices (l : Latch) (now : List ColAt) (j : Nat) : List ColAt :=
  let held := l.cols.getD j (.vals [])
  heldCol held :: ((l.past.filter fun x => x.1 == j).map (·.2) ++ (now[j]?).toList).filter fun c => !sameCol held c

/-- A strand's latches note what their sources hold, where it is neither what was latched nor noted already (R312;
assumption 101). -/
def State.noteLatches (s : State) : State :=
  if s.latches.isEmpty then s
  else
    { s with latches := s.latches.map fun l =>
        let r := (s.strand l.sid).latchRec l.bank
        if !r.valid || r.corrupt || r.gen != l.gen then l
        else
          let now := ((s.latchCols l.sid r).map colAt).zipIdx
          { l with past := l.past ++ (now.filter fun c =>
              !(sameCol (l.cols.getD c.2 (.vals [])) c.1 || l.past.any fun x => x == (c.2, c.1))).map fun c => (c.2, c.1) } }

/-- The latch of bank b: as its MLATCH made it; a column whose sources have changed since is, by free choice, that, what they hold now,
or what they held between (R311, R312). -/
def State.bank (s : State) (sid : Nat) (pc : Dword) (b : Nat) : State × BankRes :=
  let r := (s.strand sid).latchRec b
  if !r.valid then (s, .empty)
  else if r.corrupt then (s, .corrupt)
  else
    match s.latches.find? fun l => l.sid == sid && l.bank == b && l.gen == r.gen with
    | none =>
      let s := s.readLatch sid pc r
      (s, .cols r true ((s.latchCols sid r).map colAt))
    | some l =>
      let now := (s.latchCols sid r).map colAt
      (s, .cols r false ((List.range 32).map fun j =>
        let cs := l.choices now j
        cs.getD (Config.choice s.tick j % cs.length) (.vals [])))

/-! ### MLATCH, MREL and staging (R307, R308, R313) -/

/-- Write a descriptor as a latch record keeps it: its value, or the poison it was read as (R308, R311). -/
def Strand.setSource (st : Strand) (ix : Nat) (d : Src) : Strand :=
  match d.tok with
  | none => st.setDw ix d.v
  | some t => (st.setWord ix ⟨t, true, true, false⟩).setWord (ix + 1) ⟨t, true, true, false⟩

/-- The latch record that an MLATCH makes from the one before it (R308, R310). -/
def latchNew (old : LatchRec) (b : MatBody) (q : Nat) (d0 d1 : Src) (bsp : Bool) : LatchRec :=
  { old with
    head := mk64 [(63, 1), (62, b2n bsp), (61, b2n b.scl), (60, if bsp then dQSTEP d1.v else 0), (58, if bsp then q else 0),
      (52, b.typb.toNat), (32, (old.gen + 1) % 65536)]
    d0 := d0.v
    d1 := d1.v
    lscale := if b.scl then old.sscale else 0
    ltable := if b.typb = 15 then old.stable else 0
    tok := match d0.tok with | some k => some k | none => d1.tok }

/-- Latch record b from sources read at this place. -/
def State.mlatch (s : State) (cx : Cx) (b : MatBody) (q : Nat) (d0 d1 : Src) (bsp : Bool) : State × List Hold × Go :=
  let bk := b2n b.bank
  let r := latchNew ((s.strand cx.sid).latchRec bk) b q d0 d1 bsp
  if s.spansWait cx r.spans then (s, [], .stall)
  else
    let cols := ((cx.src.readLatch cx.sid cx.pc r).latchCols cx.sid r).map colAt
    let s := (s.readLatch cx.sid cx.pc r).modStrand cx.sid fun st =>
      ((((st.setDw (st.latchIx bk 0) r.head).setSource (st.latchIx bk 8) d0).setSource (st.latchIx bk 0x10) d1).setDw
        (st.latchIx bk 0x18) r.lscale).setDw (st.latchIx bk 0x20) r.ltable
    let (s, ls) := s.settleCols cx.sid cx.pc s.tick r cols
    ((s.endTag cx.sid s.tick).putLatch ⟨cx.sid, bk, r.gen, ls, []⟩, [], .next)

/-- The matrix queue of a strand's partition holds 8 entries (R317). -/
def State.matFull (s : State) (sid : Nat) : Bool :=
  let part (sid : Nat) : Nat × Option Nat := (s.coreOf sid, (s.strand sid).slot.map (·.1))
  8 ≤ (s.matQ.filter fun x => part x.sid == part sid).length

/-- Issue an instruction that enters the matrix queue: not ready while the queue is full (R45, R317). -/
def State.issueMat (s : State) (legal : Bool) (h : Hdr) (us : List Use) (eff : State → Cx → State × List Hold × Go) : Out :=
  s.issue legal h us fun s cx => if s.matFull cx.sid then (s, [], .stall) else eff s cx

/-- MLATCH, register form (R303, R308). -/
def execMlatch (h : Hdr) (b : MatBody) (s : State) : Out :=
  s.issueMat (legal (.mlatch h b)) h (opUse b.a (matWords b.typb.toNat) h.lua false) fun s cx =>
    let q := matQuarter b
    s.mlatch cx b q (.ok (mk64 [(0, opNum b.a), (8, q)])) (.ok ((maskWord cx.act q).zeroExtend 64)) false

/-- MLATCH, scratchpad form (R304, R308). -/
def execMlatchScratchpad (h : Hdr) (b : MatBody) (s : State) : Out :=
  s.issueMat (legal (.mlatchScratchpad h b)) h (opUse b.a 1 h.lua false ++ opUse b.b 1 h.lub false) fun s cx =>
    let d0 := cx.src.readOp cx.sid 0 true b.a
    let d1 := cx.src.readOp cx.sid 0 true b.b
    s.mlatch cx b (matQuarter b) d0 d1 true

/-- The effect of MREL (R313). -/
def mrelEff (h : Hdr) (b : MatBody) (s : State) (cx : Cx) : State × List Hold × Go :=
  let bk := b2n b.bank
  let s := { s with latches := s.latches.filter fun x => !(x.sid == cx.sid && x.bank == bk) }
  (s.modStrand cx.sid fun st =>
    let ix := st.latchIx bk 0
    if (st.latchRec bk).valid then st.setDw ix (setFld (st.dw ix) 63 1 0) else st, [], .next)

/-- MREL (R313). -/
def execMrel (h : Hdr) (b : MatBody) (s : State) : Out :=
  s.issueMat (legal (.mrel h b)) h [] (mrelEff h b)

/-- Put a staged source word of a bank: the scale source at 0x28, the table source at 0x30 (R307). -/
def State.stageSource (s : State) (cx : Cx) (b : MatBody) (off : Nat) (w : Dword) : State × List Hold × Go :=
  (s.modStrand cx.sid fun st => st.setDw (st.latchIx (b2n b.bank) off) w, [], .next)

/-- MSCL (R307). -/
def execMscl (h : Hdr) (b : MatBody) (s : State) : Out :=
  s.issue (legal (.mscl h b)) h (opUse b.a 1 h.lua false) fun s cx =>
    s.stageSource cx b 0x28 (srcWord 1 false (opNum b.a))

/-- MTBL (R307). -/
def execMtbl (h : Hdr) (b : MatBody) (s : State) : Out :=
  s.issue (legal (.mtbl h b)) h (opUse b.a 2 h.lua false) fun s cx =>
    s.stageSource cx b 0x30 (srcWord 1 false (opNum b.a))

/-- The effect of MSCLA (R307): an address of another tag is staged as a source of no kind with a value, which no MLATCH accepts
(R308, cause 0x28). -/
def msclaEff (h : Hdr) (b : MatBody) (s : State) (cx : Cx) : State × List Hold × Go :=
  let a := cx.src.readOp cx.sid 0 true b.a
  let tag := fld a.v 56 8
  s.stageSource cx b 0x28 (match a.tok with
    | some t => srcWord 3 false t.toNat
    | none =>
      if tag = 0xFE || tag = 0xFD then srcWord 2 (tag == 0xFD) (fld a.v 0 56)
      else srcWord 0 false (fld a.v 0 56 ||| 1))

/-- MSCLA (R307): an address of another tag is staged as a source of no kind with a value, which no MLATCH accepts
(R308, cause 0x28). -/
def execMscla (h : Hdr) (b : MatBody) (s : State) : Out :=
  s.issue (legal (.mscla h b)) h (opUse b.a 1 h.lua false) (msclaEff h b)

/-! ### MMQ (R314, R315) -/

/-- What an MMQ takes as A: its rows, or a fault with the rows that it marks. -/
inductive AIn where
  | rows (l : List RowIn)
  | fault (rows : List Nat) (v : ReplyVal)

/-- Register rows: lanes of the quarter that are active, up to ROWS (R303). -/
def State.aRegs (s : State) (cx : Cx) (h : Hdr) (b : MatBody) : AIn :=
  let t := h.typ.toNat
  let q := matQuarter b
  .rows (((quarterRows cx.act q).filter fun i => i ≤ b.rows.toNat).map fun i =>
    let lane := 32 * q + i
    ⟨i, some lane, s.laneString cx.sid lane (opNum b.a) (matWords t),
      if b.scl then s.laneString cx.sid lane (opNum b.c) 3 else [], fun n => s.laneAddr cx.sid lane (opNum b.a) (n / 4),
      s.laneAddr cx.sid lane (opNum b.c) 0⟩)

/-- Scratchpad rows (R304, R305). -/
def State.aPad (s : State) (cx : Cx) (h : Hdr) (b : MatBody) : AIn :=
  let t := h.typ.toNat
  let q := matQuarter b
  let d0 := s.readOp cx.sid 0 true b.a
  let d1 := s.readOp cx.sid 0 true b.b
  let sc : Src := if b.scl then s.readOp cx.sid 0 true b.c else .ok 0
  let rows := if d1.tok.isSome || !countOk d1.v then List.range 32 else List.range (dCOUNT d1.v)
  match d0.tok, d1.tok, sc.tok with
  | some k, _, _ => .fault rows (.tok k)
  | _, some k, _ => .fault rows (.tok k)
  | _, _, some k => .fault rows (.tok k)
  | none, none, none =>
    match descFault d0.v d1.v (if b.scl then some sc.v else none) with
    | some c => .fault rows (.bad c 0x04 0)
    | none =>
      let nb := dNBW d1.v
      let offs := rows.map (rowOffset d0.v d1.v q)
      let soffs := rows.map fun r => fld sc.v 0 32 + dQSTEP d1.v * q * 512 + 16 * r
      let sw := if b.scl then s.windowRows cx.sid nb ((matBlocks t + 3) / 4) soffs else .ok (rows.map fun _ => [])
      match s.windowRows cx.sid nb (matWords t) offs, sw with
      | .ok ws, .ok ss =>
        .rows (rows.map fun i =>
          ⟨i, none, ws.getD i [], ss.getD i [], fun n => windowAddr nb (offs.getD i 0 + n), windowAddr nb (soffs.getD i 0)⟩)
      | .error a, _ => .fault rows (.bad 0x29 0x04 a)
      | _, .error a => .fault rows (.bad 0x29 0x04 a)

/-- The segment of a row that a step reads: its values, or its poison (R133, R314). -/
def rowLine (t : Nat) (scl : Bool) (ao k : Nat) (r : RowIn) : Except ReplyVal (List Val) :=
  ((List.range k).filter fun e => ao + e < matK t).foldr (fun e acc =>
    let e := ao + e
    let scale := if scl then some (readElem r.scales (8 * (e / 32)) 8) else none
    match scaledElem r.words [] t e scale ⟨r.addr, fun _ => 0, r.saddr + BitVec.ofNat 64 (e / 128 * 4)⟩, acc with
    | .ok v, .ok l => .ok (v :: l)
    | .ok _, x => x
    | .error x, _ => .error x) (.ok [])

/-- A segment of a latched column. -/
def colSegment (bo k : Nat) (l : MatLine) : MatLine :=
  match l with
  | .vals v => .vals ((v.drop bo).take k)
  | .tok t => .tok t

/-- Queue a pass (R317). -/
def State.queuePass (s : State) (m : MatPass) : State := { s with matQ := s.matQ ++ [m] }

/-- A reserved tile mode is an image corruption (R75). -/
def State.corruptMode (s : State) (cx : Cx) : State × List Hold × Go := (s.contain cx.sid 0x51 0 cx.pc none, [], .next)

/-- MMQ on its A operand (R315): what it reads is captured here; the tile's mode is judged when the pass lands. -/
def State.mmq (s : State) (cx : Cx) (h : Hdr) (b : MatBody) (a : AIn) : State × List Hold × Go :=
  let t := h.dest.toNat
  let ta := h.typ.toNat
  let g := fld b.var 2 4
  let rows := match a with | .rows l => l.map RowIn.row | .fault r _ => r
  let pass (s : State) (mark : Option Word) (integer : Bool) (al : List (Option Nat × ColAt)) (bl : List MatLine) : State :=
    s.queuePass ⟨cx.sid, cx.pc, s.tick, cx.frag.mask, t, rows, mark, integer, al, bl⟩
  let markAll (s : State) (v : ReplyVal) : State × List Hold × Go :=
    let (s, r) := s.settleMat (α := Unit) cx.sid cx.pc s.tick [((t, rows.headD 0, 0), none, .error v)]
    match r with
    | [.error k] => (pass s (some k) false [] [], [], .next)
    | _ => (s, [], .next)
  if quarterRows cx.act (matQuarter b) = [] || rows = [] then (s, [], .next)
  else if (s.strand cx.sid).accMode t = 3 then s.corruptMode cx
  else
    match a with
    | .fault _ v => markAll s v
    | .rows l =>
      match s.bank cx.sid cx.pc (b2n b.bank) with
      | (s, .empty) => markAll s (.bad 0x26 0x04 0)
      | (s, .corrupt) => markAll s (.bad 0x27 0x04 0)
      | (s, .cols r fresh cols) =>
        let k := min (matK ta) (matK r.typeb)
        let ao := if k < matK ta then g * k else 0
        let bo := if k < matK r.typeb then g * k else 0
        let integer := isIntFmt ta && isIntFmt r.typeb && !b.scl && !r.scl
        let (s, cols) := s.settleCols cx.sid cx.pc s.tick r cols
        let s := if fresh then s.putLatch ⟨cx.sid, b2n b.bank, r.gen, cols, []⟩ else s
        if (b.scl || r.scl) && (k % 32 != 0 || ao % 32 != 0 || bo % 32 != 0) then markAll s (.bad 0x2B 0x04 0)
        else
          (pass s none integer (l.map fun x => (x.lane, colAt (rowLine ta b.scl ao k x))) (cols.map (colSegment bo k)), [], .next)

/-- MMQ, register form. -/
def execMmq (h : Hdr) (b : MatBody) (s : State) : Out :=
  s.issueMat (legal (.mmq h b)) h
    (opUse b.a (matWords h.typ.toNat) h.lua false ++ (if b.scl then opUse b.c 3 h.luc false else [])
      ++ [tileUse h.dest.toNat true]) fun s cx => s.mmq cx h b (cx.src.aRegs cx h b)

/-- The scratchpad words of the A operand of an MMQ: rows and scales (R304). -/
def State.aSpans (s : State) (cx : Cx) (h : Hdr) (b : MatBody) : List Span :=
  let d0 := s.readOp cx.sid 0 true b.a
  let d1 := s.readOp cx.sid 0 true b.b
  let sc : Src := if b.scl then s.readOp cx.sid 0 true b.c else .ok 0
  if d0.tok.isSome || d1.tok.isSome || sc.tok.isSome || (descFault d0.v d1.v (if b.scl then some sc.v else none)).isSome then []
  else
    let q := matQuarter b
    let t := h.typ.toNat
    (List.range (dCOUNT d1.v)).flatMap fun r =>
      (dNBW d1.v, rowOffset d0.v d1.v q r, matWords t)
        :: if b.scl then [(dNBW d1.v, fld sc.v 0 32 + dQSTEP d1.v * q * 512 + 16 * r, (matBlocks t + 3) / 4)] else []

/-- The effect of MMQ in scratchpad form: its reads follow what the fragment has still to perform there (R306). -/
def mmqPadEff (h : Hdr) (b : MatBody) (s : State) (cx : Cx) : State × List Hold × Go :=
  let spans := if quarterRows cx.act (matQuarter b) = [] then [] else cx.src.aSpans cx h b
  if s.spansWait cx spans then (s, [], .stall)
  else (s.readSpans cx.sid spans).mmq cx h b ((cx.src.readSpans cx.sid spans).aPad cx h b)

/-- MMQ, scratchpad form. -/
def execMmqScratchpad (h : Hdr) (b : MatBody) (s : State) : Out :=
  s.issueMat (legal (.mmqScratchpad h b)) h
    (opUse b.a 1 h.lua false ++ opUse b.b 1 h.lub false ++ (if b.scl then opUse b.c 1 h.luc false else [])
      ++ [tileUse h.dest.toNat true]) (mmqPadEff h b)

/-! ### Accumulator instructions (R319 to R323) -/

/-- Zero a tile (R119, R319). -/
def State.zeroTile (s : State) (cx : Cx) (t : Nat) : State :=
  let s := s.drainTile cx.sid t cx.frag.mask
  let s := (List.range 2560).foldl (fun s i =>
    let ix := (s.strand cx.sid).accIx t (4 * i)
    if (s.strand cx.sid).word ix = .none then s else s.wrImg cx.sid ix ⟨0, false⟩) s
  s.modStrand cx.sid fun st => (st.setAccMode t 0).setAccOvf t false

/-- MACC.Z (R319). -/
def execMaccZ (h : Hdr) (b : MatBody) (s : State) : Out :=
  s.issueMat (legal (.maccZ h b)) h [tileUse h.dest.toNat true] fun s cx => (s.zeroTile cx h.dest.toNat, [], .next)

/-- MACC.Z.ALL: every tile of the budget (R319). -/
def execMaccZAll (h : Hdr) (b : MatBody) (s : State) : Out :=
  let n := match s.issuer with
    | some (sid, _, _) => fld ((s.strand sid).ctl ctlBUDGET) 16 5
    | none => 0
  s.issueMat (legal (.maccZAll h b)) h ((List.range n).map fun t => tileUse t true) fun s cx =>
    ((List.range n).foldl (fun s t => s.zeroTile cx t) s, [], .next)

/-- The element that MACC.LD writes for a source value (R320). -/
def loadAcc (integer : Bool) (rm : Nat) (v : Val) : StepRes :=
  if integer then
    match v with
    | .fin n m e =>
      let k : Int := roundAt rm n m e 0
      satAcc (if n then -k else k)
    | _ => .invalid
  else floatAcc v

/-- Registers of 32 elements of a width: one for each bit of it. -/
def accRegs (h : Hdr) (b : MatBody) : Nat := if b.var.getLsbD 3 then 32 else elemWidth h.typ.toNat

/-- The effect of MACC.LD (R320): VAR bit 2 .INT, bit 3 .I32. -/
def maccLdEff (h : Hdr) (b : MatBody) (s : State) (cx : Cx) : State × List Hold × Go :=
  let t := h.dest.toNat
  let q := matQuarter b
  let rows := quarterRows cx.act q
  let s := s.drainTile cx.sid t cx.frag.mask
  let integer := b.var.getLsbD 2
  let mode := if integer then 2 else 1
  let old := (s.strand cx.sid).accMode t
  if rows = [] then (s, [], .next)
  else if old = 3 then s.corruptMode cx
  else if old != 0 && old != mode then
    let (s, k) := s.record cx.sid (matRec 0x24 cx.pc 0 (some (32 * q + rows.headD 0)) (t, rows.headD 0, 0))
    (rows.foldl (fun s i => s.putAccRow cx.sid t i ((List.range 32).map fun j => (j, .error k))) s, [], .next)
  else
    let s := if old = 0 then (s.zeroRows cx.sid t (List.range 32)).modStrand cx.sid fun st => st.setAccMode t mode else s
    let w := accRegs h b
    let r := rows.foldl (fun (acc : State × Option Word) i =>
      let ws := cx.src.laneString cx.sid (32 * q + i) (opNum b.a) w
      acc.1.putSteps cx.sid t i cx.pc (some (32 * q + i)) acc.2 ((List.range 32).map fun j =>
        (j, match readElem ws (w * j) w with
          | .error k => .error k
          | .ok n => .ok (loadAcc integer b.rm.toNat
              (if b.var.getLsbD 3 then valInt (signed 32 n) else decodeElem h.typ.toNat n))))) (s, none)
    (r.1, [], .next)

/-- MACC.LD (R320): VAR bit 2 .INT, bit 3 .I32. -/
def execMaccLd (h : Hdr) (b : MatBody) (s : State) : Out :=
  let t := h.dest.toNat
  s.issueMat (legal (.maccLd h b)) h (opUse b.a (accRegs h b) h.lua false ++ [tileUse t true]) (maccLdEff h b)

/-- The value of an element under its tile's mode (R118, R119). -/
def accVal (mode bits : Nat) : Val :=
  if mode = 0 then .fin false 0 0 else if mode = 2 then valInt (accInt bits) else af80Decode bits

/-- The element that MACC.ST stores (R321, R124). -/
def storeAcc (h : Hdr) (b : MatBody) (v : Val) : Except ReplyVal Nat :=
  let r := if b.var.getLsbD 3 then (toInt b.rm.toNat (-(2 ^ 31)) (2 ^ 31 - 1) v).map fun i => (i % 2 ^ 32).toNat
    else encodeElem h.typ.toNat b.rm.toNat b.sat v
  match r with
  | some n => .ok n
  | none => .error (.bad 0x20 0x04 0)

/-- The effect of MACC.ST (R321). -/
def maccStEff (h : Hdr) (b : MatBody) (s : State) (cx : Cx) : State × List Hold × Go :=
  let t := b.atile.toNat
  let w := accRegs h b
  let q := matQuarter b
  let rows := quarterRows cx.act q
  let s := (s.drainTile cx.sid t cx.frag.mask).checkRows cx.sid cx.pc t rows
  let st := s.strand cx.sid
  if st.accMode t = 3 then s.corruptMode cx
  else
    let items := rows.flatMap fun i => (List.range 32).map fun j =>
      ((t, i, j), some (32 * q + i), match st.getAcc s.tick t i j with
        | .error k => .error (.tok k)
        | .ok n => storeAcc h b (accVal (st.accMode t) n))
    let (s, vs) := s.settleMat cx.sid cx.pc s.tick items
    let done := items.zip vs
    let s := rows.foldl (fun s i =>
      let es : List ElemW := (done.filter fun x => x.1.1.2.1 == i).map fun x => ⟨w * x.1.1.2.2, w, x.2⟩
      (List.range w).foldl (fun s r =>
        let mine := es.filter fun e => e.inWord r
        s.wrImg cx.sid ((s.strand cx.sid).vecIx (h.dest.toNat + r) (32 * q + i))
          (mergeElems ⟨0, false⟩ r (coverOf r mine) mine)) s) s
    (s, [], .next)

/-- MACC.ST (R321). -/
def execMaccSt (h : Hdr) (b : MatBody) (s : State) : Out :=
  let t := b.atile.toNat
  let w := accRegs h b
  s.issueMat (legal (.maccSt h b)) h [tileUse t false, vecDest h.dest w] (maccStEff h b)

/-- An element's bits as they read: every NaN is the canonical one, and bit 79 alone is the least integer (R118). -/
def accCanon (mode bits : Nat) : Nat :=
  if mode = 1 then (match af80.decode bits with | .qnan => af80.nanBits | .snan => af80.nanBits | _ => bits)
  else if mode = 2 then (if bits = 2 ^ 79 then 2 ^ 79 + 1 else bits)
  else 0

/-- Copy tile a's elements, mode and OVF into tile t (R322). -/
def State.copyTile (s : State) (sid t a : Nat) : State :=
  let src := s.strand sid
  let mode := src.accMode a
  let s := (List.range 32).foldl (fun s i => s.putAccRow sid t i ((List.range 32).map fun j =>
    (j, match src.getAcc s.tick a i j with
      | .ok n => .ok (accCanon mode n)
      | e => e))) s
  s.modStrand sid fun st => (st.setAccMode t mode).setAccOvf t (src.accOvf a)

/-- The effect of MACC.CP (R322). -/
def maccCpEff (h : Hdr) (b : MatBody) (s : State) (cx : Cx) : State × List Hold × Go :=
  let t := h.dest.toNat
  let a := b.atile.toNat
  let s := ((s.drainTile cx.sid a cx.frag.mask).drainTile cx.sid t cx.frag.mask).checkRows cx.sid cx.pc a (List.range 32)
  let st := s.strand cx.sid
  if st.accMode t = 3 || st.accMode a = 3 then s.corruptMode cx
  else (if t = a then s else s.copyTile cx.sid t a, [], .next)

/-- MACC.CP (R322). -/
def execMaccCp (h : Hdr) (b : MatBody) (s : State) : Out :=
  let t := h.dest.toNat
  let a := b.atile.toNat
  s.issueMat (legal (.maccCp h b)) h [tileUse t true, tileUse a false] (maccCpEff h b)

/-- The effect of MACC.CP.ADD (R322). -/
def maccCpAddEff (h : Hdr) (b : MatBody) (s : State) (cx : Cx) : State × List Hold × Go :=
  let t := h.dest.toNat
  let a := b.atile.toNat
  let s := ((s.drainTile cx.sid a cx.frag.mask).drainTile cx.sid t cx.frag.mask).checkRows cx.sid cx.pc a (List.range 32)
  let s := s.checkRows cx.sid cx.pc t (List.range 32)
  let st := s.strand cx.sid
  let mt := st.accMode t
  let ma := st.accMode a
  if mt = 3 || ma = 3 then s.corruptMode cx
  else if ma = 0 then (s, [], .next)
  else if mt = 0 then (s.copyTile cx.sid t a, [], .next)
  else if mt != ma then
    let (s, k) := s.record cx.sid (matRec 0x24 cx.pc 0 none (t, 0, 0))
    ((List.range 32).foldl (fun s i => s.putAccRow cx.sid t i ((List.range 32).map fun j => (j, .error k))) s, [], .next)
  else
    let r := (List.range 32).foldl (fun (acc : State × Option Word) i =>
      acc.1.putSteps cx.sid t i cx.pc none acc.2 ((List.range 32).map fun j =>
        (j, match st.getAcc s.tick t i j, st.getAcc s.tick a i j with
          | .error k, _ => .error k
          | _, .error k => .error k
          | .ok x, .ok y =>
            .ok (if mt = 2 then satAcc (accInt x + accInt y) else floatAcc (sumVals false [af80Decode x, af80Decode y])))))
      (s, none)
    (r.1.modStrand cx.sid fun x => if st.accOvf a then x.setAccOvf t true else x, [], .next)

/-- MACC.CP.ADD (R322). -/
def execMaccCpAdd (h : Hdr) (b : MatBody) (s : State) : Out :=
  let t := h.dest.toNat
  let a := b.atile.toNat
  s.issueMat (legal (.maccCpAdd h b)) h [tileUse t true, tileUse a false] (maccCpAddEff h b)

/-- A factor of MACC.SCL for a lane: 1 for the zero operand and for an inactive lane (R323). -/
def Cx.factor (cx : Cx) (o : Operand) (lane : Nat) : Except Word Val :=
  if o == .zero || !cx.act.getLsbD lane then .ok (.fin false 1 0)
  else
    let x := cx.src.readOp cx.sid lane false o
    match x.tok with
    | some k => .error k
    | none => .ok ((floatFmt 0).ofWord x.v)

/-- The effect of MACC.SCL (R323). DESIGN CHOICE: an element is multiplied by its row's factor first (assumption 117). -/
def maccSclEff (h : Hdr) (b : MatBody) (s : State) (cx : Cx) : State × List Hold × Go :=
  let t := h.dest.toNat
  let q := matQuarter b
  let rows := quarterRows cx.act q
  let s := (s.drainTile cx.sid t cx.frag.mask).checkRows cx.sid cx.pc t rows
  let st := s.strand cx.sid
  let mode := st.accMode t
  if rows = [] then (s, [], .next)
  else if mode = 3 then s.corruptMode cx
  else if mode = 0 then (s, [], .next)
  else if mode = 2 then
    let (s, k) := s.record cx.sid (matRec 0x24 cx.pc 0 (some (32 * q + rows.headD 0)) (t, rows.headD 0, 0))
    (rows.foldl (fun s i => s.putAccRow cx.sid t i ((List.range 32).map fun j => (j, .error k))) s, [], .next)
  else
    let cs := (List.range 32).map fun j => cx.factor b.b (32 * q + j)
    let r := rows.foldl (fun (acc : State × Option Word) i =>
      let ri := cx.factor b.a (32 * q + i)
      acc.1.putSteps cx.sid t i cx.pc (some (32 * q + i)) acc.2 ((List.range 32).map fun j =>
        (j, match ri, cs.getD j (.error 0), st.getAcc s.tick t i j with
          | .error k, _, _ => .error k
          | _, .error k, _ => .error k
          | _, _, .error k => .error k
          | .ok x, .ok y, .ok d => .ok (floatAcc (mulVal (mulVal (af80Decode d) x) y))))) (s, none)
    (r.1, [], .next)

/-- MACC.SCL (R323). -/
def execMaccScl (h : Hdr) (b : MatBody) (s : State) : Out :=
  let t := h.dest.toNat
  s.issueMat (legal (.maccScl h b)) h (opUse b.a 1 h.lua false ++ opUse b.b 1 h.lub false ++ [tileUse t true]) (maccSclEff h b)

/-! ### Waiting and status (R324, R325) -/

/-- MWAIT: every earlier pass of the strand lands. -/
def execMwait (h : Hdr) (b : MatBody) (s : State) : Out :=
  s.issueMat (legal (.mwait h b)) h [] fun s cx => (s.drainStrand cx.sid, [], .next)

/-- The status fields of a bank: VALID, SCL, QT table and TYPEB, from bit 0 up (R325). -/
def bankStatus (r : LatchRec) : Nat :=
  b2n r.valid * 128 + b2n r.scl * 64 + b2n (skind r.ltable == 1) * 32 + r.typeb

/-- MSTAT (R325). -/
def execMstat (h : Hdr) (b : MatBody) (s : State) : Out :=
  s.issueMat (legal (.mstat h b)) h (scDest h.dest 1) fun s cx =>
    let s := s.drainStrand cx.sid
    let st := s.strand cx.sid
    let m := st.ctl ctlACCMODE
    let (s, hs) := s.putScalarDest cx h.dest (res64 (mk64 [(32, fld m 0 32), (16, fld m 32 16), (8, bankStatus (st.latchRec 1)),
      (0, bankStatus (st.latchRec 0))]))
    (s, hs, .next)

end Sys2Proof.Machine
end

