-- ==== Sys2Proof/Machine/Dispatch.lean ====
section
/-! DEFINITION. The meaning of every instruction and event: one arm for each row of the opcode table. -/
namespace Sys2Proof.Machine

def exec (i : Instr) (s : State) : Host.Outcome State Fault Refusal :=
  match i with
  | .nop h b => Sys2Proof.Machine.execNop h b s
  | .bra h b => Sys2Proof.Machine.execBra h b s
  | .brc h b => Sys2Proof.Machine.execBrc h b s
  | .brany h b => Sys2Proof.Machine.execBrany h b s
  | .brall h b => Sys2Proof.Machine.execBrall h b s
  | .loopOp h b => Sys2Proof.Machine.execLoopOp h b s
  | .jtab h b => Sys2Proof.Machine.execJtab h b s
  | .call h b => Sys2Proof.Machine.execCall h b s
  | .callInd h b => Sys2Proof.Machine.execCallInd h b s
  | .callt h b => Sys2Proof.Machine.execCallt h b s
  | .ret h b => Sys2Proof.Machine.execRet h b s
  | .pad h b => Sys2Proof.Machine.execPad h b s
  | .brx h b => Sys2Proof.Machine.execBrx h b s
  | .exit h b => Sys2Proof.Machine.execExit h b s
  | .yield h b => Sys2Proof.Machine.execYield h b s
  | .prefI h b => Sys2Proof.Machine.execPrefI h b s
  | .icinv h b => Sys2Proof.Machine.execIcinv h b s
  | .icinvAll h b => Sys2Proof.Machine.execIcinvAll h b s
  | .fbar h b => Sys2Proof.Machine.execFbar h b s
  | .trap h b => Sys2Proof.Machine.execTrap h b s
  | .bkpt h b => Sys2Proof.Machine.execBkpt h b s
  | .getpc h b => Sys2Proof.Machine.execGetpc h b s
  | .iadd h b => Sys2Proof.Machine.execIadd h b s
  | .isub h b => Sys2Proof.Machine.execIsub h b s
  | .imul h b => Sys2Proof.Machine.execImul h b s
  | .imulh h b => Sys2Proof.Machine.execImulh h b s
  | .imad h b => Sys2Proof.Machine.execImad h b s
  | .imin h b => Sys2Proof.Machine.execImin h b s
  | .imax h b => Sys2Proof.Machine.execImax h b s
  | .iabs h b => Sys2Proof.Machine.execIabs h b s
  | .idiv h b => Sys2Proof.Machine.execIdiv h b s
  | .irem h b => Sys2Proof.Machine.execIrem h b s
  | .icmp h b => Sys2Proof.Machine.execIcmp h b s
  | .isel h b => Sys2Proof.Machine.execIsel h b s
  | .lea h b => Sys2Proof.Machine.execLea h b s
  | .mov h b => Sys2Proof.Machine.execMov h b s
  | .iadd3 h b => Sys2Proof.Machine.execIadd3 h b s
  | .iclamp h b => Sys2Proof.Machine.execIclamp h b s
  | .andOp h b => Sys2Proof.Machine.execAndOp h b s
  | .orOp h b => Sys2Proof.Machine.execOrOp h b s
  | .xorOp h b => Sys2Proof.Machine.execXorOp h b s
  | .andn h b => Sys2Proof.Machine.execAndn h b s
  | .notOp h b => Sys2Proof.Machine.execNotOp h b s
  | .logt h b => Sys2Proof.Machine.execLogt h b s
  | .shl h b => Sys2Proof.Machine.execShl h b s
  | .shr h b => Sys2Proof.Machine.execShr h b s
  | .sar h b => Sys2Proof.Machine.execSar h b s
  | .rot h b => Sys2Proof.Machine.execRot h b s
  | .dsh h b => Sys2Proof.Machine.execDsh h b s
  | .popc h b => Sys2Proof.Machine.execPopc h b s
  | .clz h b => Sys2Proof.Machine.execClz h b s
  | .ctz h b => Sys2Proof.Machine.execCtz h b s
  | .brev h b => Sys2Proof.Machine.execBrev h b s
  | .bswap h b => Sys2Proof.Machine.execBswap h b s
  | .fxt h b => Sys2Proof.Machine.execFxt h b s
  | .fins h b => Sys2Proof.Machine.execFins h b s
  | .bysel h b => Sys2Proof.Machine.execBysel h b s
  | .plogt h b => Sys2Proof.Machine.execPlogt h b s
  | .shfl h b => Sys2Proof.Machine.execShfl h b s
  | .shflq h b => Sys2Proof.Machine.execShflq h b s
  | .vote h b => Sys2Proof.Machine.execVote h b s
  | .matchOp h b => Sys2Proof.Machine.execMatchOp h b s
  | .prefixOp h b => Sys2Proof.Machine.execPrefixOp h b s
  | .redux h b => Sys2Proof.Machine.execRedux h b s
  | .bcast h b => Sys2Proof.Machine.execBcast h b s
  | .solo h b => Sys2Proof.Machine.execSolo h b s
  | .mget h b => Sys2Proof.Machine.execMget h b s
  | .p2s h b => Sys2Proof.Machine.execP2s h b s
  | .s2p h b => Sys2Proof.Machine.execS2p h b s
  | .pcnt h b => Sys2Proof.Machine.execPcnt h b s
  | .fadd h b => Sys2Proof.Machine.execFadd h b s
  | .fsub h b => Sys2Proof.Machine.execFsub h b s
  | .fmul h b => Sys2Proof.Machine.execFmul h b s
  | .ffma h b => Sys2Proof.Machine.execFfma h b s
  | .fmin h b => Sys2Proof.Machine.execFmin h b s
  | .fmax h b => Sys2Proof.Machine.execFmax h b s
  | .fabs h b => Sys2Proof.Machine.execFabs h b s
  | .fneg h b => Sys2Proof.Machine.execFneg h b s
  | .fcpys h b => Sys2Proof.Machine.execFcpys h b s
  | .fcmp h b => Sys2Proof.Machine.execFcmp h b s
  | .fclass h b => Sys2Proof.Machine.execFclass h b s
  | .frnd h b => Sys2Proof.Machine.execFrnd h b s
  | .fdiv h b => Sys2Proof.Machine.execFdiv h b s
  | .fsqrt h b => Sys2Proof.Machine.execFsqrt h b s
  | .fscale h b => Sys2Proof.Machine.execFscale h b s
  | .hadd2 h b => Sys2Proof.Machine.execHadd2 h b s
  | .hmul2 h b => Sys2Proof.Machine.execHmul2 h b s
  | .hfma2 h b => Sys2Proof.Machine.execHfma2 h b s
  | .hmin2 h b => Sys2Proof.Machine.execHmin2 h b s
  | .hmax2 h b => Sys2Proof.Machine.execHmax2 h b s
  | .frcp h b => Sys2Proof.Machine.execFrcp h b s
  | .frsq h b => Sys2Proof.Machine.execFrsq h b s
  | .fexp2 h b => Sys2Proof.Machine.execFexp2 h b s
  | .flog2 h b => Sys2Proof.Machine.execFlog2 h b s
  | .fsin h b => Sys2Proof.Machine.execFsin h b s
  | .fcos h b => Sys2Proof.Machine.execFcos h b s
  | .ftanh h b => Sys2Proof.Machine.execFtanh h b s
  | .fdot4 h b => Sys2Proof.Machine.execFdot4 h b s
  | .idot4 h b => Sys2Proof.Machine.execIdot4 h b s
  | .hdot2 h b => Sys2Proof.Machine.execHdot2 h b s
  | .cvt h b => Sys2Proof.Machine.execCvt h b s
  | .cvtp h b => Sys2Proof.Machine.execCvtp h b s
  | .cvts h b => Sys2Proof.Machine.execCvts h b s
  | .qnt h b => Sys2Proof.Machine.execQnt h b s
  | .qnts h b => Sys2Proof.Machine.execQnts h b s
  | .dqnt h b => Sys2Proof.Machine.execDqnt h b s
  | .latq h b => Sys2Proof.Machine.execLatq h b s
  | .pack h b => Sys2Proof.Machine.execPack h b s
  | .unpack h b => Sys2Proof.Machine.execUnpack h b s
  | .t5pk h b => Sys2Proof.Machine.execT5pk h b s
  | .t5up h b => Sys2Proof.Machine.execT5up h b s
  | .bmax h b => Sys2Proof.Machine.execBmax h b s
  | .mlatch h b => Sys2Proof.Machine.execMlatch h b s
  | .mlatchScratchpad h b => Sys2Proof.Machine.execMlatchScratchpad h b s
  | .mmq h b => Sys2Proof.Machine.execMmq h b s
  | .mmqScratchpad h b => Sys2Proof.Machine.execMmqScratchpad h b s
  | .maccZ h b => Sys2Proof.Machine.execMaccZ h b s
  | .maccZAll h b => Sys2Proof.Machine.execMaccZAll h b s
  | .maccLd h b => Sys2Proof.Machine.execMaccLd h b s
  | .maccSt h b => Sys2Proof.Machine.execMaccSt h b s
  | .maccCp h b => Sys2Proof.Machine.execMaccCp h b s
  | .maccCpAdd h b => Sys2Proof.Machine.execMaccCpAdd h b s
  | .maccScl h b => Sys2Proof.Machine.execMaccScl h b s
  | .mtbl h b => Sys2Proof.Machine.execMtbl h b s
  | .mscl h b => Sys2Proof.Machine.execMscl h b s
  | .mscla h b => Sys2Proof.Machine.execMscla h b s
  | .mrel h b => Sys2Proof.Machine.execMrel h b s
  | .mwait h b => Sys2Proof.Machine.execMwait h b s
  | .mstat h b => Sys2Proof.Machine.execMstat h b s
  | .ld h b => Sys2Proof.Machine.execLd h b s
  | .ldu h b => Sys2Proof.Machine.execLdu h b s
  | .lds h b => Sys2Proof.Machine.execLds h b s
  | .ldv h b => Sys2Proof.Machine.execLdv h b s
  | .prefD h b => Sys2Proof.Machine.execPrefD h b s
  | .probe h b => Sys2Proof.Machine.execProbe h b s
  | .st h b => Sys2Proof.Machine.execSt h b s
  | .sts h b => Sys2Proof.Machine.execSts h b s
  | .stv h b => Sys2Proof.Machine.execStv h b s
  | .stz h b => Sys2Proof.Machine.execStz h b s
  | .stzLine h b => Sys2Proof.Machine.execStzLine h b s
  | .tdef h b => Sys2Proof.Machine.execTdef h b s
  | .tld h b => Sys2Proof.Machine.execTld h b s
  | .tstr h b => Sys2Proof.Machine.execTstr h b s
  | .trel h b => Sys2Proof.Machine.execTrel h b s
  | .tqry h b => Sys2Proof.Machine.execTqry h b s
  | .cwb h b => Sys2Proof.Machine.execCwb h b s
  | .cflush h b => Sys2Proof.Machine.execCflush h b s
  | .cinv h b => Sys2Proof.Machine.execCinv h b s
  | .atom h b => Sys2Proof.Machine.execAtom h b s
  | .atoms h b => Sys2Proof.Machine.execAtoms h b s
  | .red h b => Sys2Proof.Machine.execRed h b s
  | .reds h b => Sys2Proof.Machine.execReds h b s
  | .cas h b => Sys2Proof.Machine.execCas h b s
  | .cass h b => Sys2Proof.Machine.execCass h b s
  | .cas2 h b => Sys2Proof.Machine.execCas2 h b s
  | .cas4 h b => Sys2Proof.Machine.execCas4 h b s
  | .enq h b => Sys2Proof.Machine.execEnq h b s
  | .chase h b => Sys2Proof.Machine.execChase h b s
  | .cred h b => Sys2Proof.Machine.execCred h b s
  | .opk h b => Sys2Proof.Machine.execOpk h b s
  | .opkScalar h b => Sys2Proof.Machine.execOpkScalar h b s
  | .opkx h b => Sys2Proof.Machine.execOpkx h b s
  | .opkxScalar h b => Sys2Proof.Machine.execOpkxScalar h b s
  | .barArr h b => Sys2Proof.Machine.execBarArr h b s
  | .barWait h b => Sys2Proof.Machine.execBarWait h b s
  | .barSync h b => Sys2Proof.Machine.execBarSync h b s
  | .objArr h b => Sys2Proof.Machine.execObjArr h b s
  | .objWait h b => Sys2Proof.Machine.execObjWait h b s
  | .objWaitEv h b => Sys2Proof.Machine.execObjWaitEv h b s
  | .waitc h b => Sys2Proof.Machine.execWaitc h b s
  | .signal h b => Sys2Proof.Machine.execSignal h b s
  | .fence h b => Sys2Proof.Machine.execFence h b s
  | .rgnOpen h b => Sys2Proof.Machine.execRgnOpen h b s
  | .commit h b => Sys2Proof.Machine.execCommit h b s
  | .commitPark h b => Sys2Proof.Machine.execCommitPark h b s
  | .commitR h b => Sys2Proof.Machine.execCommitR h b s
  | .commitRPark h b => Sys2Proof.Machine.execCommitRPark h b s
  | .rgnDrop h b => Sys2Proof.Machine.execRgnDrop h b s
  | .acopy h b => Sys2Proof.Machine.execAcopy h b s
  | .agath h b => Sys2Proof.Machine.execAgath h b s
  | .ascat h b => Sys2Proof.Machine.execAscat h b s
  | .acoll h b => Sys2Proof.Machine.execAcoll h b s
  | .afill h b => Sys2Proof.Machine.execAfill h b s
  | .acopyt h b => Sys2Proof.Machine.execAcopyt h b s
  | .apref h b => Sys2Proof.Machine.execApref h b s
  | .aqry h b => Sys2Proof.Machine.execAqry h b s
  | .lnch h b => Sys2Proof.Machine.execLnch h b s
  | .lnchPod h b => Sys2Proof.Machine.execLnchPod h b s
  | .join h b => Sys2Proof.Machine.execJoin h b s
  | .cancel h b => Sys2Proof.Machine.execCancel h b s
  | .cancelTerm h b => Sys2Proof.Machine.execCancelTerm h b s
  | .lrec h b => Sys2Proof.Machine.execLrec h b s
  | .lstat h b => Sys2Proof.Machine.execLstat h b s
  | .srd h b => Sys2Proof.Machine.execSrd h b s
  | .swr h b => Sys2Proof.Machine.execSwr h b s
  | .tbinv h b => Sys2Proof.Machine.execTbinv h b s
  | .tbsync h b => Sys2Proof.Machine.execTbsync h b s
  | .ctxswOut h b => Sys2Proof.Machine.execCtxswOut h b s
  | .ctxswIn h b => Sys2Proof.Machine.execCtxswIn h b s
  | .shalt h b => Sys2Proof.Machine.execShalt h b s
  | .sresm h b => Sys2Proof.Machine.execSresm h b s
  | .sresmFetch h b => Sys2Proof.Machine.execSresmFetch h b s
  | .sresmKill h b => Sys2Proof.Machine.execSresmKill h b s
  | .ievict h b => Sys2Proof.Machine.execIevict h b s
  | .pld h b => Sys2Proof.Machine.execPld h b s
  | .pst h b => Sys2Proof.Machine.execPst h b s
  | .convhcHc h b => Sys2Proof.Machine.execConvhcHc h b s
  | .convhcSm h b => Sys2Proof.Machine.execConvhcSm h b s
  | .fqpop h b => Sys2Proof.Machine.execFqpop h b s
  | .ttload h b => Sys2Proof.Machine.execTtload h b s
  | .cwball h b => Sys2Proof.Machine.execCwball h b s
  | .cwballInv h b => Sys2Proof.Machine.execCwballInv h b s
  | .hint w => Sys2Proof.Machine.execHint w s
  | .illegalInstruction w => Sys2Proof.Machine.execIllegalInstruction w s
  | .addRoutine p => Sys2Proof.Machine.execAddRoutine p s
  | .signedMinRoutine p => Sys2Proof.Machine.execSignedMinRoutine p s
  | .signedMaxRoutine p => Sys2Proof.Machine.execSignedMaxRoutine p s
  | .unsignedMinRoutine p => Sys2Proof.Machine.execUnsignedMinRoutine p s
  | .unsignedMaxRoutine p => Sys2Proof.Machine.execUnsignedMaxRoutine p s
  | .andRoutine p => Sys2Proof.Machine.execAndRoutine p s
  | .orRoutine p => Sys2Proof.Machine.execOrRoutine p s
  | .xorRoutine p => Sys2Proof.Machine.execXorRoutine p s
  | .swapRoutine p => Sys2Proof.Machine.execSwapRoutine p s
  | .casRoutine p => Sys2Proof.Machine.execCasRoutine p s
  | .f32AddRoutine p => Sys2Proof.Machine.execF32AddRoutine p s
  | .f16PairAddRoutine p => Sys2Proof.Machine.execF16PairAddRoutine p s
  | .b16PairAddRoutine p => Sys2Proof.Machine.execB16PairAddRoutine p s
  | .twoWordCasRoutine p => Sys2Proof.Machine.execTwoWordCasRoutine p s
  | .fourWordCasRoutine p => Sys2Proof.Machine.execFourWordCasRoutine p s
  | .listEnqueueRoutine p => Sys2Proof.Machine.execListEnqueueRoutine p s
  | .pointerChaseRoutine p => Sys2Proof.Machine.execPointerChaseRoutine p s
  | .contributorReductionRoutine p => Sys2Proof.Machine.execContributorReductionRoutine p s
  | .installedRoutine p => Sys2Proof.Machine.execInstalledRoutine p s
  | .fabricStoreRequest r => Sys2Proof.Machine.execFabricStoreRequest r s
  | .tileTransaction r => Sys2Proof.Machine.execTileTransaction r s
  | .ualinkStandardRequest r => Sys2Proof.Machine.execUalinkStandardRequest r s
  | .fabricAcknowledge src stn seq => Sys2Proof.Machine.execFabricAcknowledge src stn seq s
  | .fabricRetransmit id => Sys2Proof.Machine.execFabricRetransmit id s
  | .fabricRequestTimeout id => Sys2Proof.Machine.execFabricRequestTimeout id s
  | .tileLockTimeout t => Sys2Proof.Machine.execTileLockTimeout t s
  | .replyLand r => Sys2Proof.Machine.execReplyLand r s
  | .barrierObjectArrive a => Sys2Proof.Machine.execBarrierObjectArrive a s
  | .engineComplete c => Sys2Proof.Machine.execEngineComplete c s
  | .collectiveCombine op p esize sv => Sys2Proof.Machine.execCollectiveCombine op p esize sv s
  | .matrixPassComplete m => Sys2Proof.Machine.execMatrixPassComplete m s
  | .tileFillComplete t => Sys2Proof.Machine.execTileFillComplete t s
  | .tileDrainComplete t => Sys2Proof.Machine.execTileDrainComplete t s
  | .monitorMatch m => Sys2Proof.Machine.execMonitorMatch m s
  | .deadlineFire sid => Sys2Proof.Machine.execDeadlineFire sid s
  | .commitParkEnd sid => Sys2Proof.Machine.execCommitParkEnd sid s
  | .heldTrapTaken sid => Sys2Proof.Machine.execHeldTrapTaken sid s
  | .fetchTrap sid frag cause => Sys2Proof.Machine.execFetchTrap sid frag cause s
  | .instructionCacheFill core ctx va => Sys2Proof.Machine.execInstructionCacheFill core ctx va s
  | .starvationPromote sid frag => Sys2Proof.Machine.execStarvationPromote sid frag s
  | .strandRetire sid => Sys2Proof.Machine.execStrandRetire sid s
  | .gridComplete gid => Sys2Proof.Machine.execGridComplete gid s
  | .slotTakeback sid => Sys2Proof.Machine.execSlotTakeback sid s
  | .strandReadmit sid => Sys2Proof.Machine.execStrandReadmit sid s
  | .launchQueueHandoff core => Sys2Proof.Machine.execLaunchQueueHandoff core s
  | .overflowMove => Sys2Proof.Machine.execOverflowMove s
  | .postWindowWrite q host dev data => Sys2Proof.Machine.execPostWindowWrite q host dev data s
  | .launchPacketAccept q => Sys2Proof.Machine.execLaunchPacketAccept q s
  | .cancelPacket q => Sys2Proof.Machine.execCancelPacket q s
  | .cancelTermPacket q => Sys2Proof.Machine.execCancelTermPacket q s
  | .nbhdOffer clu gid => Sys2Proof.Machine.execNbhdOffer clu gid s
  | .nbhdPlace clu => Sys2Proof.Machine.execNbhdPlace clu s
  | .offerTimeout clu => Sys2Proof.Machine.execOfferTimeout clu s
  | .cstoreApply core => Sys2Proof.Machine.execCstoreApply core s
  | .ttLaunch n => Sys2Proof.Machine.execTtLaunch n s
  | .ttPreempt n => Sys2Proof.Machine.execTtPreempt n s
  | .ttResume n => Sys2Proof.Machine.execTtResume n s
  | .ttDelayExpiry n => Sys2Proof.Machine.execTtDelayExpiry n s
  | .gangBoundaryMarker gid ttime dev stn => Sys2Proof.Machine.execGangBoundaryMarker gid ttime dev stn s
  | .markerTimeout gid ttime dev => Sys2Proof.Machine.execMarkerTimeout gid ttime dev s
  | .agreementCheck gid ttime => Sys2Proof.Machine.execAgreementCheck gid ttime s
  | .agreementRequest gid ttime dev => Sys2Proof.Machine.execAgreementRequest gid ttime dev s
  | .switchPacket gid ttime => Sys2Proof.Machine.execSwitchPacket gid ttime s
  | .agreementTimeout gid ttime => Sys2Proof.Machine.execAgreementTimeout gid ttime s
  | .stragglerReport gid ttime dev lateness => Sys2Proof.Machine.execStragglerReport gid ttime dev lateness s
  | .podLaunchRecord src ctx r => Sys2Proof.Machine.execPodLaunchRecord src ctx r s
  | .accept src ctx grid => Sys2Proof.Machine.execAccept src ctx grid s
  | .reject src ctx grid => Sys2Proof.Machine.execReject src ctx grid s
  | .go src ctx grid => Sys2Proof.Machine.execGo src ctx grid s
  | .drop src ctx grid => Sys2Proof.Machine.execDrop src ctx grid s
  | .zenithReplyTimeout ctx grid => Sys2Proof.Machine.execZenithReplyTimeout ctx grid s
  | .completionReport src ctx grid r => Sys2Proof.Machine.execCompletionReport src ctx grid r s
  | .haloCancel src ctx grid term => Sys2Proof.Machine.execHaloCancel src ctx grid term s
  | .cancelMemberTimeout ctx grid dev => Sys2Proof.Machine.execCancelMemberTimeout ctx grid dev s
  | .haloMessageReceive src v good msg => Sys2Proof.Machine.execHaloMessageReceive src v good msg s
  | .haloRetransmit dst v => Sys2Proof.Machine.execHaloRetransmit dst v s
  | .stationDown stn => Sys2Proof.Machine.execStationDown stn s
  | .ptpEventMessage m => Sys2Proof.Machine.execPtpEventMessage m s
  | .timeInputLoss pps => Sys2Proof.Machine.execTimeInputLoss pps s
  | .hostSnoop line => Sys2Proof.Machine.execHostSnoop line s
  | .hostMemoryAccess pa op => Sys2Proof.Machine.execHostMemoryAccess pa op s
  | .hostBarAccess bar off op => Sys2Proof.Machine.execHostBarAccess bar off op s
  | .firmwareReload => Sys2Proof.Machine.execFirmwareReload s
  | .firmwareFault => Sys2Proof.Machine.execFirmwareFault s
  | .evictionNotice cache line dirty => Sys2Proof.Machine.execEvictionNotice cache line dirty s
  | .coherenceRequest cache line req => Sys2Proof.Machine.execCoherenceRequest cache line req s
  | .homeProbe cache line inval => Sys2Proof.Machine.execHomeProbe cache line inval s
  | .directoryRecall region => Sys2Proof.Machine.execDirectoryRecall region s
  | .regionMerge base size => Sys2Proof.Machine.execRegionMerge base size s
  | .dieReset die => Sys2Proof.Machine.execDieReset die s
  | .debugRightRevocation ctx => Sys2Proof.Machine.execDebugRightRevocation ctx s
  | .shadowSample who v => Sys2Proof.Machine.execShadowSample who v s
  | .shadowSampleDone => Sys2Proof.Machine.execShadowSampleDone s
  | .fqBufferPost => Sys2Proof.Machine.execFqBufferPost s
  | .fqheadWrite who v => Sys2Proof.Machine.execFqheadWrite who v s
  | .crtabWrite who v => Sys2Proof.Machine.execCrtabWrite who v s
  | .factbWrite who v => Sys2Proof.Machine.execFactbWrite who v s
  | .cstoreWrite who core v => Sys2Proof.Machine.execCstoreWrite who core v s
  | .cresvWrite who core v => Sys2Proof.Machine.execCresvWrite who core v s
  | .devicePartitionWrite who n v => Sys2Proof.Machine.execDevicePartitionWrite who n v s
  | .lqcfgWrite who q v => Sys2Proof.Machine.execLqcfgWrite who q v s
  | .journalControlWrite who n v => Sys2Proof.Machine.execJournalControlWrite who n v s
  | .errorLogControlWrite who n v => Sys2Proof.Machine.execErrorLogControlWrite who n v s
  | .overflowConfigWrite who n v => Sys2Proof.Machine.execOverflowConfigWrite who n v s
  | .tsrcWrite who v => Sys2Proof.Machine.execTsrcWrite who v s
  | .profileConfigWrite who core n v => Sys2Proof.Machine.execProfileConfigWrite who core n v s
  | .registerWrite who r v => Sys2Proof.Machine.execRegisterWrite who r v s
  | .rcRegisterRead who r => Sys2Proof.Machine.execRcRegisterRead who r s
  | .powerOnReset => Sys2Proof.Machine.execPowerOnReset s
  | .firmwareStageDone => Sys2Proof.Machine.execFirmwareStageDone s
  | .warmingDone cold => Sys2Proof.Machine.execWarmingDone cold s
  | .memoryTrainingDone => Sys2Proof.Machine.execMemoryTrainingDone s
  | .linksDone => Sys2Proof.Machine.execLinksDone s
  | .channelRetrain stack ch => Sys2Proof.Machine.execChannelRetrain stack ch s
  | .channelRetire stack ch => Sys2Proof.Machine.execChannelRetire stack ch s
  | .marginStretch core => Sys2Proof.Machine.execMarginStretch core s
  | .governorAdjust mhz mv => Sys2Proof.Machine.execGovernorAdjust mhz mv s
  | .emergencyStop => Sys2Proof.Machine.execEmergencyStop s
  | .errorDomainClose part => Sys2Proof.Machine.execErrorDomainClose part s
  | .haloAcknowledgement src v => Sys2Proof.Machine.execHaloAcknowledgement src v s
  | .channelRetrainingDone stack passed => Sys2Proof.Machine.execChannelRetrainingDone stack passed s
  | .ppsInputPulse second => Sys2Proof.Machine.execPpsInputPulse second s
  | .stationRestored stn => Sys2Proof.Machine.execStationRestored stn s

end Sys2Proof.Machine
end

