-- ==== Sys2Proof/Machine/Events.lean ====
section
/-! DEFINITION. Which events of the device are enabled in a state, time passing, the order in which a partition serves its fragments
(R46, R422), and what a fetch comes to. -/
namespace Sys2Proof.Machine

/-! ### Events -/

/-- What the device does of its own accord: the events among the instructions that a step may take unasked, each under its own
name. A packet stands for the event of its routine. -/
inductive DevEvent where
  | packet (p : Packet)
  | barrierObjectArrive (a : Arrival)
  | replyLand (r : Reply)
  | tileFillComplete (t : TileOp)
  | tileDrainComplete (t : TileOp)
  | engineComplete (c : Cmd)
  | matrixPassComplete (m : MatPass)
  | monitorMatch (m : Monitor)
  | deadlineFire (sid : Nat)
  | heldTrapTaken (sid : Nat)
  | commitParkEnd (sid : Nat)
  | strandRetire (sid : Nat)
  | slotTakeback (sid : Nat)
  | strandReadmit (sid : Nat)
  | starvationPromote (sid frag : Nat)
  | gridComplete (gid : Nat)
  | launchQueueHandoff (core : Nat)
  | overflowMove
  | postWindowWrite (q : Nat) (host : Bool) (dev : Nat) (data : List Dword)
  | cancelPacket (q : Nat)
  | cancelTermPacket (q : Nat)
  | launchPacketAccept (q : Nat)
  | nbhdOffer (clu gid : Nat)
  | nbhdPlace (clu : Nat)
  | offerTimeout (clu : Nat)
  | cstoreApply (core : Nat)
  | ttLaunch (n : Nat)
  | ttPreempt (n : Nat)
  | ttResume (n : Nat)
  | ttDelayExpiry (n : Nat)
  | agreementCheck (gid ttime : Nat)
  | agreementTimeout (gid ttime : Nat)
  | markerTimeout (gid ttime dev : Nat)
  | podLaunchRecord (src ctx : Nat) (r : List Dword)
  | accept (src ctx : Nat) (grid : Dword)
  | reject (src ctx : Nat) (grid : Dword)
  | go (src ctx : Nat) (grid : Dword)
  | drop (src ctx : Nat) (grid : Dword)
  | completionReport (src ctx : Nat) (grid : Dword) (r : Report)
  | haloCancel (src ctx : Nat) (grid : Dword) (term : Bool)
  | stragglerReport (gid ttime dev lateness : Nat)
  | agreementRequest (gid ttime dev : Nat)
  | switchPacket (gid ttime : Nat)
  | zenithReplyTimeout (ctx : Nat) (grid : Dword)
  | cancelMemberTimeout (ctx : Nat) (grid : Dword) (dev : Nat)
  | haloRetransmit (dst v : Nat)
  | fabricRetransmit (id : Nat)
  | fabricRequestTimeout (id : Nat)
  | powerOnReset
  | fqBufferPost
  | shadowSampleDone
  | debugRightRevocation (ctx : Nat)
  | dieReset (die : Nat)
  | fetchTrap (sid frag : Nat) (cause : BitVec 8)
  deriving DecidableEq, Repr

/-- An event of the device takes place: the meaning that its instruction has. -/
def DevEvent.perform (e : DevEvent) (s : State) : Out :=
  match e with
  | .packet p => State.performPacket p s
  | .barrierObjectArrive a => execBarrierObjectArrive a s
  | .replyLand r => execReplyLand r s
  | .tileFillComplete t => execTileFillComplete t s
  | .tileDrainComplete t => execTileDrainComplete t s
  | .engineComplete c => execEngineComplete c s
  | .matrixPassComplete m => execMatrixPassComplete m s
  | .monitorMatch m => execMonitorMatch m s
  | .deadlineFire sid => execDeadlineFire sid s
  | .heldTrapTaken sid => execHeldTrapTaken sid s
  | .commitParkEnd sid => execCommitParkEnd sid s
  | .strandRetire sid => execStrandRetire sid s
  | .slotTakeback sid => execSlotTakeback sid s
  | .strandReadmit sid => execStrandReadmit sid s
  | .starvationPromote sid frag => execStarvationPromote sid frag s
  | .gridComplete gid => execGridComplete gid s
  | .launchQueueHandoff core => execLaunchQueueHandoff core s
  | .overflowMove => execOverflowMove s
  | .postWindowWrite q host dev data => execPostWindowWrite q host dev data s
  | .cancelPacket q => execCancelPacket q s
  | .cancelTermPacket q => execCancelTermPacket q s
  | .launchPacketAccept q => execLaunchPacketAccept q s
  | .nbhdOffer clu gid => execNbhdOffer clu gid s
  | .nbhdPlace clu => execNbhdPlace clu s
  | .offerTimeout clu => execOfferTimeout clu s
  | .cstoreApply core => execCstoreApply core s
  | .ttLaunch n => execTtLaunch n s
  | .ttPreempt n => execTtPreempt n s
  | .ttResume n => execTtResume n s
  | .ttDelayExpiry n => execTtDelayExpiry n s
  | .agreementCheck gid ttime => execAgreementCheck gid ttime s
  | .agreementTimeout gid ttime => execAgreementTimeout gid ttime s
  | .markerTimeout gid ttime dev => execMarkerTimeout gid ttime dev s
  | .podLaunchRecord src ctx r => execPodLaunchRecord src ctx r s
  | .accept src ctx grid => execAccept src ctx grid s
  | .reject src ctx grid => execReject src ctx grid s
  | .go src ctx grid => execGo src ctx grid s
  | .drop src ctx grid => execDrop src ctx grid s
  | .completionReport src ctx grid r => execCompletionReport src ctx grid r s
  | .haloCancel src ctx grid term => execHaloCancel src ctx grid term s
  | .stragglerReport gid ttime dev lateness => execStragglerReport gid ttime dev lateness s
  | .agreementRequest gid ttime dev => execAgreementRequest gid ttime dev s
  | .switchPacket gid ttime => execSwitchPacket gid ttime s
  | .zenithReplyTimeout ctx grid => execZenithReplyTimeout ctx grid s
  | .cancelMemberTimeout ctx grid dev => execCancelMemberTimeout ctx grid dev s
  | .haloRetransmit dst v => execHaloRetransmit dst v s
  | .fabricRetransmit id => execFabricRetransmit id s
  | .fabricRequestTimeout id => execFabricRequestTimeout id s
  | .powerOnReset => execPowerOnReset s
  | .fqBufferPost => execFqBufferPost s
  | .shadowSampleDone => execShadowSampleDone s
  | .debugRightRevocation ctx => execDebugRightRevocation ctx s
  | .dieReset die => execDieReset die s
  | .fetchTrap sid frag cause => execFetchTrap sid frag cause s

/-! ### Time (R78, R79, R470) -/

/-- Time passes: pod time, less what slewing takes at no more than 100 ppm, device cycles, and $cycles of strands that are
Resident or Waiting; the model's counter advances (assumption 4). -/
def State.advance (s : State) : State :=
  let ns := Config.elapsedNs s.tick
  let cyc := Config.elapsedCycles s.tick
  let lost := min s.slew (ns / 10000)
  { s with
    tick := s.tick + 1
    ptime := s.ptime + ns - lost
    slew := s.slew - lost
    clock := s.clock + cyc
    walked := []
    retLines := s.retLines.filter fun e => Config.choice s.tick (0x1F0000 + e.1) % 2 == 0
    strands := s.strands.map fun e =>
      if e.2.life == .resident then (e.1, { e.2 with cycles := e.2.cycles + BitVec.ofNat 64 cyc }) else e }

/-! ### Packets at homes (R186 to R189) -/

/-- The packet that an event carries. -/
def packetOf : Instr → Option Packet
  | .addRoutine p => some p
  | .signedMinRoutine p => some p
  | .signedMaxRoutine p => some p
  | .unsignedMinRoutine p => some p
  | .unsignedMaxRoutine p => some p
  | .andRoutine p => some p
  | .orRoutine p => some p
  | .xorRoutine p => some p
  | .swapRoutine p => some p
  | .casRoutine p => some p
  | .f32AddRoutine p => some p
  | .f16PairAddRoutine p => some p
  | .b16PairAddRoutine p => some p
  | .twoWordCasRoutine p => some p
  | .fourWordCasRoutine p => some p
  | .listEnqueueRoutine p => some p
  | .pointerChaseRoutine p => some p
  | .contributorReductionRoutine p => some p
  | .installedRoutine p => some p
  | _ => none

/-- The packet that a clasp's body runs for. -/
def Strand.runs (st : Strand) : Option Packet := st.clasp.map fun r => r.pkt

/-- The oldest packet of each home; `seen` are the homes that take none (R186). -/
def State.firstPackets (s : State) (seen : List Nat) : List Packet → List Packet
  | [] => []
  | p :: r =>
    let h := s.homeOf p.place.loc
    if seen.contains h then s.firstPackets seen r else p :: s.firstPackets (h :: seen) r

/-- The request of another device is queued or runs at its home: what arrives under its number again is a retransmission (R189). -/
def State.inHand (s : State) (home : Nat) (src : Sender) : Bool :=
  (s.packets ++ s.strands.filterMap fun e => e.2.runs).any fun p => p.src == src && s.homeOf p.place.loc == home

/-- A packet of another device arrives (R189, R410, R440): a retransmission gets its reply again, or is dropped while the request is in
hand; with the home's reply cache full it is not accepted; refused requests are answered; any other joins its home's queue. In stage
15 none is taken (R475). -/
def State.arrive (s : State) (p : Packet) : State :=
  let home := s.homeOf p.place.loc
  match p.src with
  | .fabric dev stn seq ctx =>
    if s.stage = 15 then s
    else
    (match s.cached home dev stn seq with
     | some c => { s with outbox := s.outbox ++ [.reply dev stn seq c.val] }
     | none =>
       if s.repliesFull home || s.inHand home p.src then s
       else if !s.mayMem dev then s.replyTo p (.bad 0x06 0x0C p.va)
       else if !s.ctxValid ctx then s.replyTo p (.bad 0x3E 0x0C p.va)
       else if s.homeFull p.place.loc then s
       else { s with packets := s.packets ++ [p] })
  | _ => { s with packets := s.packets ++ [p] }

/-! ### Enabled events -/

/-- The first element for each key. -/
def firstPer {α : Type} (key : α → Nat) (seen : List Nat) : List α → List α
  | [] => []
  | x :: r => if seen.contains (key x) then firstPer key seen r else x :: firstPer key (key x :: seen) r

/-- What homes, engines and units do next. -/
def State.unitEvents (s : State) : List DevEvent :=
  (s.firstPackets ((s.strands.filterMap fun e => e.2.runs).map fun p => s.homeOf p.place.loc) s.packets).map .packet
    ++ s.arrivals.map .barrierObjectArrive
    ++ s.replies.map .replyLand
    ++ s.tileOps.map (fun t => if t.load then .tileFillComplete t else .tileDrainComplete t)
    ++ (firstPer s.engineOf [] (s.copyQ ++ s.gatherQ ++ s.collQ)).map .engineComplete
    ++ s.matQ.map .matrixPassComplete

/-- The deadline of a strand has passed (R80). -/
def State.deadlineDue (s : State) (st : Strand) : Bool :=
  st.clasp.isNone && (st.life == .resident || st.life == .slotless) && !st.due && st.ctl ctlDLINE != 0
    && (st.ctl ctlDLINE).toNat ≤ s.ptime

/-- What a strand's own state brings about; one that has stopped for a switch-out takes no trap, ends no park and moves to no slot
(R432). -/
def State.strandEvents (s : State) (e : Nat × Strand) : List DevEvent :=
  let st := e.2
  let goes := !s.stopped st.blk
  (if s.deadlineDue st then [.deadlineFire e.1] else [])
    ++ (if goes && st.life == .resident && st.trapDue then [.heldTrapTaken e.1] else [])
    ++ (if goes && st.life == .resident && st.parkServed then [.commitParkEnd e.1] else [])
    ++ (if s.canRetire e.1 then [.strandRetire e.1] else [])
    ++ (if goes && st.life == .resident && st.clasp.isNone && st.slot.isSome && st.evictable && s.slotWanted (s.coreOf e.1)
        then [.slotTakeback e.1] else [])
    ++ (if goes && st.waitOver && (s.anySlot (s.coreOf e.1)).isSome then [.strandReadmit e.1] else [])
    ++ (st.frags.filter fun f => 64 ≤ f.2.count && f.2.hit64 == 0).map (fun f => .starvationPromote e.1 f.1)

/-- What the queues, the pool and the dispatchers do next. -/
def State.workEvents (s : State) : List DevEvent :=
  ((s.grids.filter fun g => s.gridOver g.1).map fun g => .gridComplete g.1)
    ++ ((firstPer LqRec.core [] s.lq).filter fun r => r.since + handoffCycles ≤ s.clock).map (fun r => .launchQueueHandoff r.core)
    ++ (if !s.ovf.isEmpty && s.fwUp && s.poolRoom then [.overflowMove] else [])
    ++ ((firstPer Post.q [] s.posts).filter fun x => s.postRefused x || s.regF (rLQCFG x.q) 63 1 == 0
          || (s.queue x.q).length < queueLimit).map (fun x => .postWindowWrite x.q x.host x.dev x.data)
    ++ (match s.nextQueue with
        | some q =>
          match (s.queue q).head? with
          | some p => [if pkKind p = 2 then .cancelPacket q else if pkKind p = 3 then .cancelTermPacket q else .launchPacketAccept q]
          | none => []
        | none => [])
    ++ (match ((List.range 4).map fun i => (s.lastClu + 1 + i) % 4).findSome? fun c =>
          if (aget s.offers c).isSome then none else (s.nextOffer c).map fun o => (c, o.1) with
        | some (c, g) => [.nbhdOffer c g]
        | none => [])
    ++ (s.offers.map fun o => .nbhdPlace o.1)
    ++ ((s.offers.filter fun o => o.2.2.2 + offerCycles ≤ s.clock).map fun o => .offerTimeout o.1)
    ++ ((s.pendStore.filter fun p => (s.coreBlocks p.1).isEmpty).map fun p => .cstoreApply p.1)

/-- What timed actions and gangs bring about. -/
def State.timedEvents (s : State) : List DevEvent :=
  ((List.range s.ttab.length).flatMap fun n =>
      (if (s.ttDue n 1).isSome then [.ttLaunch n] else []) ++ (if (s.ttDue n 2).isSome then [.ttPreempt n] else [])
        ++ (if (s.ttDue n 3).isSome then [.ttResume n] else []))
    ++ (((s.ttDelay.zipIdx).filter fun x => s.fwUp && (!s.overrun x.1.1 || x.1.2 ≤ s.ptime) && s.ttMay x.1.1).map
          fun x => .ttDelayExpiry x.2)
    ++ (s.ttab.filterMap fun t => (s.gangCtx t).bind fun c =>
          let at_ := ttTime t.words
          if s.fwUp && !t.checked && at_ ≤ s.ptime + askBefore then some (.agreementCheck (s.gangId c) at_)
          else if s.fwUp && t.asked && at_ + switchWait ≤ s.ptime then some (.agreementTimeout (s.gangId c) at_)
          else none)
    ++ (s.gangs.flatMap fun g => (g.members.filter fun d => s.markerMissing g d).map fun d => .markerTimeout g.gid g.ttime d)

/-- The event of a Halo message. -/
def haloEvent (src : Nat) : HaloMsg → DevEvent
  | .record c r => .podLaunchRecord src c r
  | .accept c g => .accept src c g
  | .reject c g => .reject src c g
  | .go c g => .go src c g
  | .drop c g => .drop src c g
  | .report c g r => .completionReport src c g r
  | .cancel c g t => .haloCancel src c g t
  | .straggler g t l => .stragglerReport g t src l
  | .agreement g t => .agreementRequest g t src
  | .switch g t => .switchPacket g t

/-- What the pod's messages and this device's requests bring about. -/
def State.podEvents (s : State) : List DevEvent :=
  ((firstPer (fun x : Nat × HaloMsg => x.1) [] s.haloIn).map fun x => haloEvent x.1 x.2)
    ++ ((s.podHeld.filter fun h => h.gone && s.poolRoom).map fun h => .go h.src h.ctx (h.rcd.getD 2 0))
    ++ ((s.zeniths.filter fun z => z.phase == 0 && z.since + replyWait ≤ s.ptime).map
          fun z => .zenithReplyTimeout z.ctx (z.rcd.getD 2 0))
    ++ ((s.zeniths.filter fun z => z.cancelled && z.phase == 1 && z.cancelAt + cancelWait ≤ s.ptime).flatMap fun z =>
          (z.members.filter fun m => z.waitsFor m.1).map fun m => .cancelMemberTimeout z.ctx (z.rcd.getD 2 0) m.1)
    ++ ((s.haloOut.filter fun h => !h.waiting && h.last + resendWait ≤ s.ptime).map fun h => .haloRetransmit h.dst h.v)
    ++ ((s.outReqs.filter fun q => q.tries < resendMax && q.last + resendWait ≤ s.ptime).map fun q => .fabricRetransmit q.id)
    ++ ((s.outReqs.filter fun q => q.first + requestWait ≤ s.ptime).map fun q => .fabricRequestTimeout q.id)

/-- What the hub does next. -/
def State.hubEvents (s : State) : List DevEvent :=
  (if s.stage = 0 then [.powerOnReset] else [])
    ++ (if !s.fqBuf.isEmpty && !s.fqFull then [.fqBufferPost] else [])
    ++ (if s.shPend.isSome then [.shadowSampleDone] else [])
    ++ (match s.revoked with | c :: _ => [.debugRightRevocation c] | [] => [])
    ++ s.resetting.map .dieReset

/-- A watcher's condition holds, or its word is poisoned. -/
def State.satisfied (s : State) (m : Monitor) : Bool :=
  match m.watch with
  | .state3 => watchHolds .state3 (s.getD64 m.place.loc).1
  | _ => match s.watched m with | .ok w => watchHolds m.watch w | .error _ => true

/-- Every event of the device that may come next; none in stage 15, where the clock has stopped (R475). -/
def State.events (s : State) : List DevEvent :=
  if s.stage = 15 then []
  else s.unitEvents ++ s.strands.flatMap s.strandEvents ++ s.workEvents ++ s.timedEvents ++ s.podEvents ++ s.hubEvents

/-! ### Choosing an instruction (R45, R46, R422) -/

/-- The fragments of strands that hold a slot and have not stopped, where no wait holds them: strand, core and partition, slot, table
index, fragment. -/
def State.readyFrags (s : State) : List (Nat × (Nat × Nat) × Nat × Nat × Frag) :=
  if s.stage = 15 then [] else s.strands.flatMap fun e =>
    match e.2.life, e.2.slot with
    | .resident, some (q, n) =>
      if s.stopped e.2.blk then []
      else (e.2.frags.filter fun f => f.2.mayIssue).map fun f => (e.1, (s.coreOf e.1, q), n, f.1, f.2)
    | _, _ => []

/-- The YIELD interval of a fragment has not ended (R244). -/
def State.inYield (s : State) (f : Frag) : Bool := decide (s.clock < f.yieldEnd)

/-- A list without the elements of a condition, unless that leaves none. -/
def unlessEmpty {α : Type} (l : List α) (p : α → Bool) : List α :=
  match l with
  | [x] => [x]
  | _ => match l.filter fun x => !p x with | [] => l | m => m

/-- The least element by keys compared in turn, the first of equals. -/
def leastBy {α : Type} (lt : α → α → Bool) : List α → Option α
  | [] => none
  | x :: r => match leastBy lt r with | none => some x | some y => if lt y x then some y else some x

/-- Lexicographic order of lists of numbers. -/
def lexLt : List Nat → List Nat → Bool
  | [], _ => false
  | _ :: _, [] => false
  | a :: l, b :: m => if a < b then true else if a = b then lexLt l m else false

/-- The fragment that a partition issues among its ready ones (R422). -/
def State.select (s : State) (c : List (Nat × (Nat × Nat) × Nat × Nat × Frag)) : Option (Nat × Nat) :=
  let c := unlessEmpty c fun x => s.inYield x.2.2.2.2
  let old := match c with | [_] => [] | _ => c.filter fun x => 64 ≤ x.2.2.2.2.count
  let key (x : Nat × (Nat × Nat) × Nat × Nat × Frag) : List Nat :=
    if old.isEmpty then [(s.grid (s.strand x.1).gid).cls, x.2.2.2.2.readyAt, x.2.2.1, x.2.2.2.1]
    else [x.2.2.2.2.hit64, x.2.2.1, x.2.2.2.1]
  (leastBy (fun x y => lexLt (key x) (key y)) (if old.isEmpty then c else old)).map fun x => (x.1, x.2.2.2.1)

/-- What a fragment that is not ready keeps: its wait starts anew (R45, R422). -/
def Frag.notYet (f : Frag) : Frag :=
  { f with wait := if f.wait == .ready then .scoreboard else f.wait, count := 0, hit64 := 0 }

/-- A fragment whose next instruction has become ready in the cycle before (R45, R422). -/
def Frag.nowReady (f : Frag) (was : Nat) : Frag := if f.wait == .scoreboard then { f with wait := .ready, readyAt := was } else f

/-- What a fragment that another was chosen before keeps: one more in its wait, and when that reached 64 (R422). -/
def Frag.waited (f : Frag) (now : Nat) : Frag := { f with count := f.count + 1 }.starve now

/-- What a fetch at a fragment's pc comes to: an event to take instead, a state reached without an instruction, or an
instruction and the state it runs in (R197, R231, R371). -/
inductive Fetch where
  | trap (e : DevEvent)
  | done (s : State)
  | run (i : Instr) (s : State)

/-- Fetch and decode for the fragment that issues. -/
def State.fetchInsn (s : State) (sid idx : Nat) (f : Frag) : Fetch :=
  if pcInvalid f.pc then .done (s.hold sid idx f.pc ((lanesOf f.mask).map fun l => ⟨l, 0x43, 0⟩))
  else
    match s.fetchLine sid f.pc with
    | (_, .error c) => .trap (.fetchTrap sid idx c)
    | (t, .ok l) =>
      match (t.strand sid).dueFails f l with
      | some c => .done (t.failDue sid idx f c)
      | none =>
        let (w0, w1, w2) := slotWords l (fld f.pc 0 3)
        if f.due.isSome then .done (t.passDue sid idx f) else .run (decodeWords w0 w1 w2) t

end Sys2Proof.Machine
end

