-- ==== Sys2Proof/Machine/Issue.lean ====
section
/-! DEFINITION. What a step does: issue (R45, R422), the choice among enabled events, inputs and issuing fragments (R48, R59), performing
it, and placing an instruction where a step fetches it. -/
namespace Sys2Proof.Machine

/-- What may happen next: an event of the device, something from outside, an error of the hardware, a request of this device
performed at its home elsewhere (R189), a write of another device to its own memory (R191), a switch-out going on (R432), a timed
launch that has waited for the pool (R411), a fragment's issue, the end of a routine's body that has run too long, or nothing. -/
inductive Action where
  | event (e : DevEvent)
  | input (i : Input)
  | error (e : Strike)
  | serve (q : OutReq)
  | abroad (w : Nat × Nat × MWord)
  | switch (w : Switching)
  | launch (t : TtRec)
  | issue (sid idx : Nat)
  | bodyOver (sid : Nat)
  | idle
  deriving DecidableEq, Repr

/-! ### Issue -/

/-- The state in which a fragment's instruction is fetched and executed. -/
def State.issuing (s : State) (sid idx : Nat) : State := { s with cur := some (sid, idx), notReady := false }

/-- The instruction that a fragment would issue is not ready: a source is not available, it must follow an access still to be
performed, or its unit is busy (R45, R422). -/
def State.stalled (s : State) (sid idx : Nat) : Bool :=
  match (s.strand sid).frag? idx with
  | none => true
  | some f =>
    match (s.issuing sid idx).fetchInsn sid idx f with
    | .run i t => (match exec i t with | .next u => u.notReady | _ => false)
    | _ => false

/-- The partition among all of the device's. -/
def partKey (x : Nat × (Nat × Nat) × Nat × Nat × Frag) : Nat := x.2.1.1 * 4 + x.2.1.2

/-- The fragments of one partition. -/
def State.inPart (s : State) (k : Nat) : List (Nat × (Nat × Nat) × Nat × Nat × Frag) := s.readyFrags.filter fun y => partKey y == k

/-- The ready fragments of one partition. -/
def State.readyIn (s : State) (k : Nat) : List (Nat × (Nat × Nat) × Nat × Nat × Frag) :=
  (s.inPart k).filter fun y => y.2.2.2.2.wait == .ready

/-- The fragments that may issue: one for each partition that has a ready one. -/
def State.issues (s : State) : List (Nat × Nat) :=
  (firstPer partKey [] s.readyFrags).filterMap fun x => s.select (s.readyIn (partKey x))

/-- A fragment changes in its strand's table. -/
def State.modFrag (s : State) (sid idx : Nat) (g : Frag → Frag) : State :=
  s.modStrand sid fun st =>
    match st.frag? idx with
    | some f => st.setFrag idx (g f)
    | none => st

/-- The wait counts of the other fragments that a partition chose among as one issues; those in their YIELD intervals are among them
only where all are (R422). -/
def State.countWaits (s : State) (sid idx : Nat) : State :=
  match (s.strand sid).slot with
  | none => s
  | some (q, _) =>
    let c := unlessEmpty (s.readyIn (s.coreOf sid * 4 + q)) fun x => s.inYield x.2.2.2.2
    (c.filter fun y => y.1 != sid || y.2.2.2.1 != idx).foldl (fun (t : State) y =>
      t.modFrag y.1 y.2.2.2.1 fun f => f.waited s.clock) s

/-! ### What a cycle finds (R45, R312, R422) -/

/-- The fragments of a strand as the partition finds them: ready or not; of one that does not issue, none is ready, and their waits are
0. -/
def State.lookStrand (s : State) (was sid : Nat) (st : Strand) : Strand :=
  let issues := st.life == .resident && st.slot.isSome && !s.stopped st.blk
  let found (i : Nat) (f : Frag) : Frag :=
    if !issues then { f with count := 0, hit64 := 0 }
    else if !f.mayIssue then f
    else if s.stalled sid i then f.notYet
    else f.nowReady was
  if st.clasp.isSome then st
  else { st with splits := st.splits.map fun x => (x.1, match x.2 with | .frag f => .frag (found x.1 f) | .group g => .group g) }

/-- What a cycle finds before anything happens in it: which fragments are ready, those that have become so since `was` with that cycle
as the one in which they last did (R422); and what the sources of latched columns hold (R312). -/
def State.look (s : State) (was : Nat) : State :=
  if s.stage = 15 then s
  else { s.noteLatches with strands := s.strands.map fun e => (e.1, s.lookStrand was e.1 e.2) }

/-- The fragment that issues: its wait starts anew. -/
def Frag.chosen (f : Frag) : Frag := { f with wait := .ready, count := 0, hit64 := 0 }

/-- Count an instruction that a body has issued (R479). -/
def State.countBody (s : State) (sid : Nat) : State :=
  match (s.strand sid).clasp with
  | some r => s.modStrand sid fun st => { st with clasp := some { r with count := r.count + 1 } }
  | none => s

/-- The end of an issue: nothing happened where the instruction was not ready (R45); else no one issues any more. -/
def State.endIssue (s : State) (sid idx : Nat) (o : Out) : Out :=
  match o with
  | .next t => .next (if t.notReady then s.modFrag sid idx Frag.notYet else { t with cur := none }.countBody sid)
  | o => o

/-- Issue the next instruction of a fragment (R45, R214, R371): a line whose fetch faults gives its trap instead. -/
def State.issueFrag (s : State) (sid idx : Nat) : Out :=
  match (s.strand sid).frag? idx with
  | none => .next s
  | some f =>
    match (((s.countWaits sid idx).modFrag sid idx Frag.chosen).issuing sid idx).fetchInsn sid idx f with
    | .trap e => e.perform s
    | .done t => .next { t with cur := none }
    | .run i t => s.endIssue sid idx (exec i t)

/-! ### Routine bodies (R479) -/

/-- Instructions that a body may issue (R479). -/
def bodyLimit : Nat := 65536

/-- The words of the line that a clasp's body holds (R479). -/
def State.claspLine (s : State) (p : Packet) : List MWord :=
  (List.range 32).map fun i => s.getW ((p.place.loc.align 128).add (4 * i))

/-- Something changes a line that a body holds and goes on to hold. -/
def State.breaksLine (s t : State) : Bool :=
  s.strands.any fun e =>
    match e.2.runs with
    | some p => (aget t.strands e.1).isSome && s.claspLine p != t.claspLine p
    | none => false

/-- What happens while bodies wait may not change the lines that they hold, which are read and written in one step: an access that
would do so waits (R186, R479). -/
def State.keepLines (s : State) (o : Out) : Out :=
  match o with
  | .next t => if s.breaksLine t then .next s else .next t
  | o => o

/-- A fragment's issue would have to wait for a line that a body holds. -/
def State.lineWaits (s : State) (sid idx : Nat) : Bool :=
  match s.issueFrag sid idx with
  | .next t => s.breaksLine t
  | _ => false

/-- A body that can go on does, until it ends; while one waits, everything else goes on (R186). In stage 15 the clock has stopped
(R475). -/
def State.bodyNext (s : State) : Option Action :=
  if s.stage = 15 then none
  else s.strands.findSome? fun e =>
    match e.2.clasp with
    | none => none
    | some r =>
      if bodyLimit ≤ r.count then some (.bodyOver e.1)
      else (e.2.frags.find? fun f => f.2.mayIssue && !s.stalled e.1 f.1 && !s.lineWaits e.1 f.1).map fun f => .issue e.1 f.1

/-! ### The next action -/

/-- Switch-outs that may go on, and timed launches that may be accepted (R411, R432); none in stage 15. -/
def State.turns (s : State) : List Action :=
  if s.stage = 15 then []
  else ((firstPer Switching.ctx [] s.switching).filter s.switchReady).map .switch
    ++ (s.ttWait.filter fun t => s.fwUp && s.ttMay t).map .launch

/-- Everything that may happen next. -/
def State.actions (s : State) : List Action :=
  s.events.map .event ++ (s.strikes.take 1).map .error ++ (s.inputs.take 1).map .input ++ s.servable.map .serve
    ++ (s.abroad.take 1).map .abroad ++ s.turns ++ s.issues.map fun x => .issue x.1 x.2

/-- One of several actions, by a free choice (R48, R59). -/
def State.pick (s : State) : List Action → Action
  | [] => .idle
  | [a] => a
  | l => l.getD (Config.order s.tick % l.length) .idle

/-- What happens next: a watcher that is satisfied comes first, then a clasp's body that can go on, then a free choice. -/
def State.nextAction (s : State) : Action :=
  match s.monitors.find? s.satisfied with
  | some m => .event (.monitorMatch m)
  | none =>
    match s.bodyNext with
    | some a => a
    | none => s.pick s.actions

/-- A vendor header with a reserved bit set, or of a reserved kind (R464). -/
def headerBad (h : BitVec 128) : Bool :=
  let d0 : Dword := h.extractLsb' 0 64
  let d1 : Dword := h.extractLsb' 64 64
  fld d0 60 4 == 0 || 7 ≤ fld d0 60 4 || fld d0 24 10 != 0 || fld d1 32 16 != 0

/-- The message of a bad header is discarded and logged as a refused message, of the source that it names (R449, R464; assumption
122). -/
def State.discard (s : State) (h : BitVec 128) : State := s.logErr 4 0xFFF 0 (fld (h.extractLsb' 0 64 : Dword) 38 10) 0 0 0 0

/-- The token of words whose beat failed its check (R464). -/
def beatTok : Word := mkTok 0x3F 0x0C 0xFFFF

/-- Words of a payload, those of failed beats poisoned. -/
def markBeats (bad : List Nat) (ws : List MWord) : List MWord :=
  (ws.zipIdx).map fun x => if bad.contains (x.2 / 16) then ⟨beatTok, true⟩ else x.1

/-- A request of another device, with what its failed beats carried poisoned. -/
def withBad (r : FabReq) (bad : List Nat) : FabReq :=
  { r with kind := match r.kind with
    | .store be ws => .store be (markBeats bad ws)
    | .write ws => .write (markBeats bad ws)
    | .tileStore b p ws => .tileStore b p (markBeats bad ws)
    | k => k }

/-- A message takes place with what its failed beats carried poisoned: a request's words, a tile's, or a reply (R464). -/
def State.takeMsg (s : State) (bad : List Nat) (i : Instr) : Out :=
  if bad.isEmpty then exec i s
  else
    match i with
    | .fabricStoreRequest r => execFabricStoreRequest (withBad r bad) s
    | .tileTransaction r => execTileTransaction (withBad r bad) s
    | .ualinkStandardRequest r => execUalinkStandardRequest (withBad r bad) s
    | .tileFillComplete t => execTileFillComplete { t with data := markBeats bad t.data } s
    | .replyLand r => execReplyLand { r with val := .bad 0x3F 0x0C r.va } s
    | i => exec i s

/-- The post that comes from outside. -/
def postOf : Instr → Option Post
  | .postWindowWrite q host dev data => some ⟨q, host, dev, data⟩
  | _ => none

/-- Take something from outside: a packet of another device joins its home's queue, a post those that wait for their queue, and
anything else takes place; a message with a bad header is discarded (R406, R464). -/
def State.takeInput (s : State) (x : Input) : Out :=
  let s := { s with inputs := s.inputs.drop 1 }
  match x.hdr.filter headerBad with
  | some h => .next (s.discard h)
  | none =>
    match packetOf x.what, postOf x.what with
    | some p, _ => .next (s.arrive (if x.badBeats.isEmpty then p else { p with optok := some beatTok }))
    | none, some q => .next (s.post q)
    | none, none => s.takeMsg x.badBeats x.what

/-- Another device writes a word of its own memory: what replies still due say of its line is old (R190, R191). -/
def State.abroadWrite (s : State) (x : Nat × Nat × MWord) : State :=
  let l : Loc := (Loc.rem x.1 x.2.1).align 4
  (s.staleReqs l).putW l 15 x.2.2

/-- A switch-out goes on with its next block, or ends (R432). -/
def State.switchOn (s : State) (w : Switching) : State := if w.blocks.isEmpty then s.switchOver w else s.switchBlock w

/-- Perform an action. -/
def State.act (s : State) (a : Action) : Out :=
  s.keepLines <|
    match a with
    | .event e => e.perform s
    | .input i => s.takeInput i
    | .error e => .next ({ s with strikes := s.strikes.drop 1 }.strike e)
    | .serve q => s.serveRemote q
    | .abroad w => .next ({ s with abroad := s.abroad.drop 1 }.abroadWrite w)
    | .switch w => .next (s.switchOn w)
    | .launch t => .next (s.ttGo t)
    | .issue sid idx => s.issueFrag sid idx
    | .bodyOver sid => .next (s.claspEnd sid claspFault)
    | .idle => .next s

/-! ### Placing an instruction -/

/-- The line word of a line with its parity bits (R193, R194), given its TGT and PAIR bits. -/
def ctlWord (l : List Word) (low : Nat) : Word :=
  let bits := ((List.range 5).flatMap fun s => (List.range 2).map fun h => (10 + 2 * s + h, b2n (oddBits (slotHalf l s h))))
  let c := (mk64 ((0, low) :: bits)).setWidth 32
  if oddBits c then c ||| 0x100000#32 else c

/-- A line with the words of one slot replaced; the slot may be the target of a transfer. -/
def lineWith (l : List Word) (slot : Nat) (w : Nat) : List Word :=
  let l := ((l.set (3 * slot) (BitVec.ofNat 32 w)).set (3 * slot + 1) (BitVec.ofNat 32 (w / 2 ^ 32))).set (3 * slot + 2)
    (BitVec.ofNat 32 (w / 2 ^ 64))
  l.set 15 (ctlWord l (fld (lineCtl l) 0 10 ||| 2 ^ slot))

/-- Store an instruction at a fragment's pc, and drop the copies of its line that the fetch could find. -/
def State.storeAtPc (s : State) (sid : Nat) (pc : Dword) (w : Nat) : State :=
  match s.translate (s.whoFetch sid) .fetch (pc &&& 0xFFFFFFFFFFFFFFC0) with
  | (_, .error _) => s
  | (_, .ok p) =>
    let l := lineWith (s.memLine p) (fld pc 0 3) w
    let s := s.putWords (p.loc.align 64) (l.map fun x => ⟨x, false⟩)
    { s.modStrand sid fun st => { st with lines := [] } with
      icache := s.icache.filter (fun (c : ICLine) => c.va != pc.toNat / 256)
      oldLines := s.oldLines.filter fun (o : OldLine) => o.loc != p.loc.align lineBytes }

/-- The page table of the context that runs a placed instruction: its first GiB is the first GiB of device memory. -/
def demoTables (s : State) : State :=
  ((s.putDwords 0x200000 [0x201001]).putDwords 0x201000 [0x202001]).putDwords 0x202000 [0x7F]

/-- Its launch record: one block of one strand of 128 lanes with the largest budget. -/
def demoRecord : List Dword :=
  [0x100000, 0, 0, mk64 [(0, 1), (8, 1), (16, 1), (24, 127), (44, 1)], 1, mk64 [(0, 32), (8, 64), (16, 16)], 0, 0, 0, 0, 0, 0,
    0, 0, 0, 0]

/-- Its descriptor: context 1, system level, partition 0. -/
def demoDesc : List Dword :=
  [mk64 [(63, 1), (62, 1), (0, 1)], 0x200000] ++ List.replicate 14 0

/-- A strand of it, about to issue at 0x100000. -/
def demoStrand : Strand :=
  let st : Strand := { (default : Strand) with
    ctx := 1, gid := 0, blk := 0, num := 0, slot := some (0, 0), base := 0x10000000
    frames := (List.range 5).map fun i => 0x1000 + i
    vRegs := 256, sRegs := 64, tiles := 16, life := .resident
    splits := [(0, .frag (Frag.fresh 0 (BitVec.allOnes 128) 0x100000 none))] }
  st.setCtl ctlBUDGET (demoRecord.getD 5 0)

/-- A state in which nothing runs is given a context, a grid, a block and a strand, as a launch through stage 5 would have
left them (assumption 6). -/
def State.withStrand (s : State) : State :=
  let s := (demoTables s).setRegF rBRSTAT 60 4 5
  { s with
    fwUp := true
    ctxs := [CtxIn.mk 1 demoDesc]
    grids := [(0, { Grid.fresh 1 demoRecord 0 0xFE 0 0 with next := 1, dispatched := true, blocksPlaced := 1 })]
    nextGrid := 1
    nbhds := [(0, ⟨0, 0, 0, 0, 0, [0], false, false, false, 0⟩)]
    nextNbhd := 1
    blocks := [(0, { (default : Block) with bars := freshBars 1, strands := [0] })]
    nextBlock := 1
    strands := [(0, demoStrand)]
    nextStrand := 1 }

end Sys2Proof.Machine
end

