-- ==== Sys2Proof/Machine/Step.lean ====
section
/-! DEFINITION. One step of the device, and placing an instruction where the next step fetches it. -/
namespace Sys2Proof.Machine

/-- What a step finds: time has passed, and the partitions have looked at their fragments. -/
def State.begun (s : State) : State := s.advance.look s.clock

/-- One step: time passes, and one action takes place. -/
def step (s : State) : Host.Outcome State Fault Refusal := s.begun.act s.begun.nextAction

/-- The state with an instruction stored where the next step fetches: at the pc of the fragment that is ready, or at that of
a strand that is made for it where there is none (assumption 6). -/
def State.withFetchWord (s : State) (_nbits w : Nat) : State :=
  match s.readyFrags with
  | x :: _ => s.storeAtPc x.1 x.2.2.2.2.pc w
  | [] => s.withStrand.storeAtPc 0 0x100000 w

end Sys2Proof.Machine
end

