-- ==== Sys2Proof/Safety.lean ====
section
/-! DEFINITION. What claims say of safe runs and of states: a run that never stops, the canonical form that every memory keeps, an
instruction that issues with nothing in its way, and the state that its effect leaves behind. -/
namespace Sys2Proof.Machine

/-- n steps from a state stop at no fault and no refusal. -/
def SafeFor (n : Nat) (s : State) : Prop := ∃ t, Sys2Proof.core.run n s = .next t

/-- Every memory of the state is in canonical form: device memory, host memory, memory of other devices, the mailbox, and
the scratchpad of every core. -/
def State.Canonical (s : State) : Prop :=
  s.mem.wf = true ∧ s.host.wf = true ∧ s.bar4.wf = true ∧ (∀ e ∈ s.remote, e.2.wf = true) ∧ (∀ e ∈ s.spads, e.2.wf = true)

/-- Nothing stands before the effect of an instruction with this header and these register uses (R214): a fragment is
issuing, its image's budget is sound (R75), the sources are available (R45), no register word of
the strand has wrong parity (R87), no reserved field is set (R211), the guard passes the lanes `act` and none of its
words is poisoned (R201, R89), some lane passes, every register is within the budget (R73), none that is written is live-in
of an open region (R140), and no predicate source is poisoned for these lanes. -/
structure Clear (s : State) (ok : Bool) (h : Hdr) (us : List Use) (sid idx : Nat) (f : Frag) (act : Lanes) : Prop where
  issuing : s.issuer = some (sid, idx, f)
  sound : (s.strand sid).budgetCorrupt = false
  available : (s.strand sid).available h us f.mask = true
  whole : (s.strand sid).flips = []
  allowed : ok = true
  passes : (s.strand sid).guard s.tick h f.mask = (act, [])
  active : act ≠ 0
  within : us.any (fun u => u.over (s.strand sid)) = false
  unprotected : us.any (fun u => u.protected (s.strand sid)) = false
  readable : ∀ u ∈ predSources us, ((s.strand sid).readPred s.tick u.n u.quarters act).2 = []

/-- What the sources of an instruction leave where nothing stands before its effect. -/
def State.used (s : State) (cx : Cx) (h : Hdr) (us : List Use) : State := s.spent cx.sid h us cx.frag.mask cx.act cx.act

/-- What becomes of the fragment after an effect: what died of lanes that the effect holds lives on, lanes are held, the rest is sent
where the effect sends it, and for a routine's body its packet is answered when an access of it failed. `s` is the state before. -/
def State.after (s : State) (cx : Cx) (us : List Use) (r : State × List Hold × Go) : State :=
  ((r.1.buried cx.sid (s.strand cx.sid) us cx.act r.2.1).finish cx.sid cx.idx cx.frag.pc r.2.1 r.2.2).claspCheck cx.sid

/-- What one instruction form asks of its issue, when its effect completes, what the effect leaves, and what is done once the
fragment has gone on. The condition and the effect see the state that the sources leave, and in `Cx.src` the state before. -/
structure Row where
  h : Hdr
  uses : State → List Use
  ok : State → Cx → Bool
  res : State → Cx → State × List Hold × Go
  post : Cx → State → State := fun _ t => t

/-- A form's condition is met in a state: nothing stands before its effect, and its own condition holds. -/
structure Row.Ready (r : Row) (i : Instr) (s : State) (cx : Cx) : Prop where
  clear : Clear s (legal i) r.h (r.uses s) cx.sid cx.idx cx.frag cx.act
  source : cx.src = s
  ok : r.ok (s.used cx r.h (r.uses s)) cx = true

/-- What a form leaves. -/
def Row.result (r : Row) (s : State) (cx : Cx) : State :=
  r.post cx (s.after cx (r.uses s) (r.res (s.used cx r.h (r.uses s)) cx))

/-- Every form of a table completes: where its condition is met it answers the next state that its effect leaves. -/
def Completes (rows : Instr → Option Row) : Prop :=
  ∀ i r, rows i = some r → ∀ s cx, r.Ready i s cx → exec i s = .next (r.result s cx)

/-- When an event is due or a request may be served, and the state that it leaves. -/
structure EvRow where
  ok : State → Bool
  res : State → State

/-- Every event of a table takes place: where its condition holds it answers the state that it leaves. -/
def TakesPlace (rows : Instr → Option EvRow) : Prop :=
  ∀ i r, rows i = some r → ∀ s, r.ok s = true → exec i s = .next (r.res s)

end Sys2Proof.Machine
end

