-- ==== Sys2Proof/Certificates/Slice0/Obligations.lean ====
section
/-! DEFINITION. The statements for the provers. Tables first: for each family of the opcode table, when each form completes and what
it leaves; then the obligations. -/
namespace Sys2Proof.Claims
open Sys2Proof.Machine

/-! ### Shapes of rows -/

/-- A condition that asks nothing. -/
def always (_ : State) (_ : Cx) : Bool := true

/-- An effect that holds no lane and sends the fragment on. -/
def onward (f : State → Cx → State) (s : State) (cx : Cx) : State × List Hold × Go := (f s cx, [], .next)

/-- The state of an effect, with no lane held and the fragment sent on. -/
def leaves (e : State → Cx → State × List Hold × Go) : State → Cx → State × List Hold × Go := onward fun s cx => (e s cx).1

/-- The form completes always: its effect holds no lane. -/
def plain (h : Hdr) (us : List Use) (f : State → Cx → State) : Row := { h := h, uses := fun _ => us, ok := always, res := onward f }

/-- The form completes where its condition holds. -/
def plainIf (h : Hdr) (us : List Use) (ok : State → Cx → Bool) (f : State → Cx → State) : Row :=
  { h := h, uses := fun _ => us, ok := ok, res := onward f }

/-- Not poisoned. -/
def isWords : ReplyVal → Bool
  | .words _ => true
  | _ => false

/-- A value may go to a scalar destination: a poisoned one may not go to $deadline (R256). -/
def landable (d : BitVec 8) (v : ReplyVal) : Bool := d != specDEADLINE || isWords v

/-- A value goes to the scalar destination. -/
def toScalar (d : BitVec 8) (v : State → Cx → ReplyVal) : State → Cx → State × List Hold × Go :=
  onward fun s cx => (s.putScalarDest cx d (v s cx)).1

/-- The form gives its scalar destination a value that is not poisoned. -/
def gives (h : Hdr) (us : List Use) (v : State → Cx → Dword) : Row :=
  { h := h, uses := fun _ => us, ok := always, res := toScalar h.dest fun s cx => res64 (v s cx) }

/-! ### Control (R230 to R251) -/

/-- The target check of a plain transfer. -/
def jump (cx : Cx) : TargetCheck := ⟨cx.pc, true, 0, 0⟩

/-- Every set of lanes passes the checks of R231. -/
def reaches (s : State) (cx : Cx) (c : TargetCheck) (ts : List (Lanes × Dword)) : Bool :=
  (s.checkTargets cx.sid c ts).2.2.isEmpty

/-- The sets go to their targets; the other lanes go on, and the sets meet again at `rcv` where it is given (R39). -/
def goes (s : State) (cx : Cx) (c : TargetCheck) (ts : List (Lanes × Dword)) (rcv : Option Dword) : State × List Hold × Go :=
  let r := s.checkTargets cx.sid c ts
  (r.1, [], .goto r.2.1 rcv)

/-- The sets go to their targets with the return address in their link pair, written at once or once the checks that are still due
have passed (R231, R239). -/
def calls (s : State) (cx : Cx) (d : BitVec 8) (c : TargetCheck) (ts : List (Lanes × Dword)) : State × List Hold × Go :=
  let r := s.checkTargets cx.sid c ts
  (r.1.putLinks cx d r.2.1, [], .goto (withLink d cx.nextPc r.2.1) (some cx.nextPc))

/-- The whole fragment goes where a condition holds of it, else on (R235). -/
def wholeOk (s : State) (cx : Cx) (b : CtlBody) (cond : Bool) : Bool :=
  !cond || reaches s cx (jump cx) [(cx.frag.mask, dispPc cx.pc b)]
def whole (s : State) (cx : Cx) (b : CtlBody) (cond : Bool) : State × List Hold × Go :=
  if cond then goes s cx (jump cx) [(cx.frag.mask, dispPc cx.pc b)] none else (s, [], .next)

/-- Every access that a transfer's table or links take could be made: none waits for an access before it (R45, R232). -/
def unhindered (r : State × List Hold × Go) : Bool := !r.1.notReady

/-- LOOP's count as it is after this pass, and the state that holds it (R236). -/
def loopCount (h : Hdr) (cx : Cx) : Src := cx.src.readOp cx.sid 0 true (.sc (h.dest.extractLsb' 0 6))
def loopState (h : Hdr) (s : State) (cx : Cx) : State := s.putSc cx.sid h.dest.toNat 1 (res64 ((loopCount h cx).v - 1))

/-- What JTAB and CALLT read from their table (R232). -/
def tableLabel (s : State) (cx : Cx) (b : CtlBody) : State × List (Lanes × Dword) × List Hold × TargetCheck :=
  let r := s.tableTargets cx b.a (ctlB b)
  (r.1, groupLanes r.2.1, r.2.2.1, ⟨cx.pc, true, 2, r.2.2.2⟩)

/-- The groups that BRX's table lists, when it lists them all and its count is 1 to 1023 (R232, R242). -/
def brxGroups (s : State) (cx : Cx) (b : CtlBody) : Option (State × List (Lanes × Dword)) :=
  let (ts, hs) := cx.targets b.a
  let tab := dispPc cx.pc b
  match ts, hs with
  | (l0, _) :: _, [] =>
    match s.tableRead cx l0 tab with
    | (_, .error _) => none
    | (s, .ok hd) =>
      if hd.toNat = 0 || 1023 < hd.toNat then none
      else
        match s.listedGroups cx tab hd.toNat (groupLanes ts) [] with
        | (s, gos, []) => some (s, gos)
        | _ => none
  | _, _ => none

/-- EXIT leaves no poison in the locket of a strand whose last lanes exit (R147). -/
def exitClean (s : State) (cx : Cx) : Bool :=
  (s.strand cx.sid).liveLanes &&& ~~~cx.act != 0 || ((s.strand cx.sid).locket.findSome? entryTok).isNone

/-- Group 0x0. -/
def controlRows : Instr → Option Row
  | .nop h _ => some (plain h [] fun s _ => s)
  | .pad h _ => some (plain h [] fun s _ => s)
  | .prefI h b => some (plain h [] fun s cx =>
      (List.range (b.var.toNat + 1)).foldl (fun s i =>
        s.prefetchLine cx.sid ((dispPc cx.pc b &&& 0xFFFFFFFFFFFFFF00) + BitVec.ofNat 64 (256 * i))) s)
  | .fbar h _ => some (plain h [] fun s cx => s.modStrand cx.sid fun st => { st with lines := [] })
  | .yield h _ => some { plain h [] (fun s _ => s) with
      post := fun cx t => if t.notReady || cx.act = 0 then t else t.markYield cx.sid cx.idx }
  | .exit h _ => some (plainIf h [] exitClean fun s cx => s.exitWith cx.sid cx.idx cx.pc cx.act)
  | .getpc h b => some (plain h (scDest h.dest 1) fun s cx =>
      s.putSc cx.sid h.dest.toNat 1 (res64 (if pcInvalid (dispPc cx.pc b) then 0 else dispPc cx.pc b)))
  | .trap h b => some { h := h, uses := fun _ => [], ok := always, res := fun s cx =>
      (s, holdAll cx.act 0x4E (b.aux.zeroExtend 64), .next) }
  | .bra h b => some { h := h, uses := fun _ => []
                       ok := fun s cx => reaches s cx (jump cx) [(cx.act, dispPc cx.pc b)]
                       res := fun s cx => goes s cx (jump cx) [(cx.act, dispPc cx.pc b)] none }
  | .brc h b => some { h := h, uses := fun _ => opUse b.a 1 h.lua true
                       ok := fun s cx => !pcInvalid (auxPc cx.pc b) && reaches s cx (jump cx) [(cx.taken b, dispPc cx.pc b)]
                       res := fun s cx => goes s cx (jump cx) [(cx.taken b, dispPc cx.pc b)] (some (auxPc cx.pc b)) }
  | .brany h b => some { h := h, uses := fun _ => opUse b.a 1 h.lua true
                         ok := fun s cx => wholeOk s cx b (cx.taken b != 0)
                         res := fun s cx => whole s cx b (cx.taken b != 0) }
  | .brall h b => some { h := h, uses := fun _ => opUse b.a 1 h.lua true
                         ok := fun s cx => wholeOk s cx b (cx.taken b == cx.act)
                         res := fun s cx => whole s cx b (cx.taken b == cx.act) }
  | .loopOp h b => some { h := h
                          uses := fun _ => [⟨.sc, h.dest.toNat, 1, false, false, true, 15⟩, ⟨.sc, h.dest.toNat, 1, true, false, false, 15⟩]
                          ok := fun s cx => (loopCount h cx).tok.isNone
                            && wholeOk (loopState h s cx) cx b ((loopCount h cx).v - 1 != 0)
                          res := fun s cx => whole (loopState h s cx) cx b ((loopCount h cx).v - 1 != 0) }
  | .jtab h b => some { h := h, uses := fun _ => opUse b.a 1 h.lua true ++ opUse (ctlB b) 1 h.lub true
                        ok := fun s cx => let r := tableLabel s cx b
                          !pcInvalid (auxPc cx.pc b) && r.2.2.1.isEmpty && reaches r.1 cx r.2.2.2 r.2.1
                            && unhindered (goes r.1 cx r.2.2.2 r.2.1 (some (auxPc cx.pc b)))
                        res := fun s cx => let r := tableLabel s cx b
                          goes r.1 cx r.2.2.2 r.2.1 (some (auxPc cx.pc b)) }
  | .call h b => some { h := h, uses := fun _ => [vecDest h.dest 2]
                        ok := fun s cx => reaches s cx ⟨cx.pc, true, 3, 0⟩ [(cx.act, dispPc cx.pc b)]
                        res := fun s cx => calls s cx h.dest ⟨cx.pc, true, 3, 0⟩ [(cx.act, dispPc cx.pc b)] }
  | .callInd h b => some { h := h, uses := fun _ => opUse (ctlB b) 2 h.lub true ++ [vecDest h.dest 2]
                           ok := fun s cx => (cx.targets (ctlB b)).2.isEmpty
                             && reaches s cx ⟨cx.pc, true, 1, 0⟩ (groupLanes (cx.targets (ctlB b)).1)
                           res := fun s cx => calls s cx h.dest ⟨cx.pc, true, 1, 0⟩ (groupLanes (cx.targets (ctlB b)).1) }
  | .callt h b => some { h := h, uses := fun _ => opUse b.a 1 h.lua true ++ opUse (ctlB b) 1 h.lub true ++ [vecDest h.dest 2]
                         ok := fun s cx => let r := tableLabel s cx b
                           r.2.2.1.isEmpty && reaches r.1 cx r.2.2.2 r.2.1 && unhindered (calls r.1 cx h.dest r.2.2.2 r.2.1)
                         res := fun s cx => let r := tableLabel s cx b
                           calls r.1 cx h.dest r.2.2.2 r.2.1 }
  | .ret h b => some { h := h, uses := fun _ => opUse b.a 2 h.lua true
                       ok := fun s cx => (cx.targets b.a).2.isEmpty
                         && reaches s cx ⟨cx.pc, false, 0, 0⟩ (groupLanes (cx.targets b.a).1)
                       res := fun s cx => goes s cx ⟨cx.pc, false, 0, 0⟩ (groupLanes (cx.targets b.a).1) none }
  | .brx h b => some { h := h, uses := fun _ => opUse b.a 2 h.lua true
                       ok := fun s cx => fld (dispPc cx.pc b) 0 3 == 0
                         && (match brxGroups s cx b with
                             | some r => reaches r.1 cx (jump cx) r.2 && unhindered (goes r.1 cx (jump cx) r.2 none)
                             | none => false)
                       res := fun s cx =>
                         match brxGroups s cx b with | some r => goes r.1 cx (jump cx) r.2 none | none => (s, [], .next) }
  | .icinv h b => some (plainIf h (opUse b.a 1 h.lua true)
      (fun s cx => s.allDone cx.sid cx.frag.mask && (cx.src.readOp cx.sid 0 true b.a).tok.isNone)
      fun s cx =>
        match s.locate cx.sid (cx.src.readOp cx.sid 0 true b.a).v with
        | (s, some p) => s.icDrop (s.coreOf cx.sid) (b.var.toNat % 8) fun c => c.loc == p.loc.align 256
        | (s, none) => s)
  | .icinvAll h b => some (plainIf h [] (fun s cx => s.allDone cx.sid cx.frag.mask) fun s cx =>
      s.icDrop (s.coreOf cx.sid) (b.var.toNat % 8) fun c => c.ctx == (s.strand cx.sid).ctx)
  | .bkpt h b => some
      { h := h, uses := fun _ => []
        ok := always
        res := fun s cx =>
          if fld (s.dbgWord (s.strand cx.sid).ctx) 59 2 == 3 then
            (s.modStrand cx.sid fun st => { st with life := .halted 0 }.saveSplits, [], .next)
          else (s, holdAll cx.act 0x4F (b.aux.zeroExtend 64), .next)
        post := fun cx t =>
          if (t.strand cx.sid).life == .halted 0 && !(t.strand cx.sid).contained then t.halt cx.sid 2 b.aux.toNat 0 (pcPlus cx.frag.pc 1)
          else t }
  | _ => none

/-! ### Masks (R270) -/

/-- MGET and P2S. -/
def maskRows : Instr → Option Row
  | .mget h b => some (gives h (scDest h.dest 1) fun _ cx =>
      maskDw (if b.var.getLsbD 3 then cx.act else cx.frag.mask) (b2n (b.var.getLsbD 2)))
  | .p2s h b =>
    let q := if b.var.getLsbD 4 then 12 else 3
    some (gives h (⟨.pred, fld b.var 0 4, 1, false, false, true, q⟩ :: scDest h.dest 1) fun _ cx =>
      maskDw ((cx.src.strand cx.sid).readPred cx.src.tick (fld b.var 0 4) q cx.act).1 (b2n (b.var.getLsbD 4)))
  | _ => none

/-! ### Groups 0x1 to 0x6: what each lane's sources give -/

/-- An instruction of the classes VV, VI, SS and SI that writes registers: the sources it reads, whether its result is 64 bits
wide, and its results as a function of the sources of all lanes. -/
structure AluForm where
  h : Hdr
  b : AluBody
  r : Reads
  wide : Bool
  f : List LaneIn → List (Nat × ReplyVal)

/-- A function of one lane's sources: poison goes first, in the order of R130. -/
def lanewise (f : Dword → Dword → Dword → ReplyVal) : List LaneIn → List (Nat × ReplyVal) := List.map (perLane f)

/-- IntOp (R253): the exact integer, saturated under .SAT and wrapped to the width. -/
def intForm (h : Hdr) (b : AluBody) (nb nc : Bool) (e : Int → Int → Int → Int) : AluForm :=
  ⟨h, b, intReads b nb nc, vWide b, lanewise fun x y z =>
    let r := e (intVal (vU b) (vWide b) x) (intVal (vU b) (vWide b) y) (intVal (vU b) (vWide b) z)
    resW (vWide b) (dword (if b.sat then satInt (vU b) (vWide b) r else r))⟩

/-- IDIV and IREM: a divisor of 0 gives poison with cause 0x25. -/
def divForm (h : Hdr) (b : AluBody) (e : Int → Int → Int) : AluForm :=
  ⟨h, b, intReads b true false, vWide b, lanewise fun x y _ =>
    if intVal (vU b) (vWide b) y = 0 then .bad 0x25 0x01 0
    else
      let r := e (intVal (vU b) (vWide b) x) (intVal (vU b) (vWide b) y)
      resW (vWide b) (dword (if b.sat then satInt (vU b) (vWide b) r else r))⟩

/-- A bit operation on w-bit strings (R258 to R260). -/
def bitForm (h : Hdr) (b : AluBody) (rb : Option Bool) (nc : Bool) (f : Nat → Nat → Nat → Nat) : AluForm :=
  ⟨h, b, bitReads b rb nc, vWide b, lanewise fun x y z =>
    resW (vWide b) (BitVec.ofNat 64 (f x.toNat y.toNat z.toNat % 2 ^ width (vWide b)))⟩

/-- FloatOp (R275): the exact value, rounded and perhaps saturated. -/
def floatForm (h : Hdr) (b : AluBody) (nb nc : Bool) (e : Val → Val → Val → Val) : AluForm :=
  ⟨h, b, floatReads nb nc, false, lanewise (floatOp (typFmt h) b e)⟩

/-- A packed pair (R280): both halves. -/
def pairForm (h : Hdr) (b : AluBody) (nc : Bool) (e : Val → Val → Val → Val) : AluForm :=
  ⟨h, b, { floatReads true nc with imm := immPair }, false, lanewise (halves (typFmt h) b e)⟩

/-- A transcendental (R281, R282): a free result within its bounds. -/
def approxForm (h : Hdr) (b : AluBody) (op : Nat) : AluForm :=
  ⟨h, b, floatReads false false, false, lanewise fun x _ _ =>
    floatRes (approxResult op h.typ.toNat (x.toNat % 2 ^ ((typFmt h).ew + (typFmt h).fw + 1)))⟩

/-- A float dot product (R284). -/
def dotForm (h : Hdr) (b : AluBody) (n w : Nat) : AluForm :=
  ⟨h, b, floatReads true true, false, lanewise fun x y z =>
    floatRes ((floatFmt 0).encode b.rm.toNat b.sat
      (sumVals (rmDown b) ((floatFmt 0).ofWord z :: products n w b.ty2.toNat b.ty3.toNat x y)))⟩

/-- Groups 0x1 and 0x2 (R252 to R261). -/
def intForms : Instr → Option AluForm
  | .iadd h b => some (intForm h b true false fun x y _ => x + y)
  | .isub h b => some (intForm h b true false fun x y _ => x - y)
  | .imul h b => some (intForm h b true false fun x y _ => x * y)
  | .imulh h b => some (intForm h b true false fun x y _ => x * y / 2 ^ width (vWide b))
  | .imad h b => some (intForm h b true true fun x y z => x * y + z)
  | .imin h b => some (intForm h b true false fun x y _ => min x y)
  | .imax h b => some (intForm h b true false fun x y _ => max x y)
  | .iabs h b => some (intForm h b false false fun x _ _ => x.natAbs)
  | .idiv h b => some (divForm h b Int.tdiv)
  | .irem h b => some (divForm h b Int.tmod)
  | .iadd3 h b => some (intForm h b true true fun x y z => x + y + z)
  | .iclamp h b => some (intForm h b true true fun x y z => min (max x y) z)
  | .isel h b => some ⟨h, b, intReads b true true, vWide b, lanewise fun x y z => resW (vWide b) (if z != 0 then x else y)⟩
  | .lea h b => some ⟨h, b, ⟨some true, some false, none, immS⟩, true, lanewise fun x y _ =>
      res64 (x + (if vU b then (loW y).zeroExtend 64 else (loW y).signExtend 64) <<< fld b.var 2 3)⟩
  | .mov h b =>
    if h.oc.getLsbD 0 then some ⟨h, b, ⟨none, some (vWide b), none, immS⟩, vWide b, lanewise fun _ y _ => resW (vWide b) y⟩
    else some ⟨h, b, ⟨some (vWide b), none, none, immS⟩, vWide b, lanewise fun x _ _ => resW (vWide b) x⟩
  | .andOp h b => some (bitForm h b (some (vWide b)) false fun x y _ => x &&& y)
  | .orOp h b => some (bitForm h b (some (vWide b)) false fun x y _ => x ||| y)
  | .xorOp h b => some (bitForm h b (some (vWide b)) false fun x y _ => x ^^^ y)
  | .andn h b => some (bitForm h b (some (vWide b)) false fun x y _ => x &&& (2 ^ 64 - 1 - y))
  | .notOp h b => some (bitForm h b none false fun x _ _ => 2 ^ 64 - 1 - x)
  | .logt h b => some ⟨h, b, ⟨some false, some false, some false, immS⟩, false, lanewise fun x y z =>
      res32 (BitVec.ofNat 64 (bitsOf 32 fun i => tableBit b.var (x.getLsbD i) (y.getLsbD i) (z.getLsbD i)))⟩
  | .shl h b => some (bitForm h b (some false) false fun x y _ => if width (vWide b) ≤ y then 0 else x * 2 ^ y)
  | .shr h b => some (bitForm h b (some false) false fun x y _ => if width (vWide b) ≤ y then 0 else x / 2 ^ y)
  | .sar h b => some (bitForm h b (some false) false fun x y _ =>
      (dword (signed (width (vWide b)) x / 2 ^ min y (width (vWide b) - 1))).toNat)
  | .rot h b => some (bitForm h b (some false) false fun x y _ =>
      x * 2 ^ (y % width (vWide b)) + x / 2 ^ (width (vWide b) - y % width (vWide b)))
  | .dsh h b => some (bitForm h b (some false) true fun x y z =>
      let v := z * 2 ^ width (vWide b) + x
      let n := min y (width (vWide b))
      if b.var.getLsbD 2 then v * 2 ^ n / 2 ^ width (vWide b) else v / 2 ^ n)
  | .popc h b => some (bitForm h b none false fun x _ _ => ((List.range 64).filter x.testBit).length)
  | .clz h b => some (bitForm h b none false fun x _ _ => width (vWide b) - (if x = 0 then 0 else x.log2 + 1))
  | .ctz h b => some (bitForm h b none false fun x _ _ =>
      ((List.range (width (vWide b))).find? x.testBit).getD (width (vWide b)))
  | .brev h b => some (bitForm h b none false fun x _ _ =>
      bitsOf (width (vWide b)) fun i => x.testBit (width (vWide b) - 1 - i))
  | .bswap h b => some (bitForm h b none false fun x _ _ =>
      bitsOf (width (vWide b)) fun i => x.testBit (8 * (width (vWide b) / 8 - 1 - i / 8) + i % 8))
  | .fxt h b => some (bitForm h b (some false) false fun x y _ =>
      let (lo, len) := fieldOf (width (vWide b)) y
      let f := x / 2 ^ lo % 2 ^ len
      if len = 0 then 0 else if vU b then f else (dword (signed len f)).toNat)
  | .fins h b => some (bitForm h b (some false) true fun x y z =>
      let (lo, len) := fieldOf (width (vWide b)) y
      if len = 0 then z else z - z / 2 ^ lo % 2 ^ len * 2 ^ lo + x % 2 ^ len * 2 ^ lo)
  | .bysel h b => some ⟨h, b, ⟨some false, some false, some false, immS⟩, false, lanewise fun x y z =>
      let g := y.toNat * 2 ^ 32 + x.toNat
      res32 (BitVec.ofNat 64 ((List.range 4).foldl (fun a k => a + byselByte g (fld z (8 * k) 8) * 2 ^ (8 * k)) 0))⟩
  | _ => none

/-- Group 0x3 (R263 to R269), VOTE.MASK among it. -/
def crossForms : Instr → Option AluForm
  | .shfl h b => some ⟨h, b, shflReads b, vWide b, shuffle (vWide b) (b.var.getLsbD 5) (shflLane (fld b.var 2 3))⟩
  | .shflq h b => some ⟨h, b, shflReads b, vWide b, shuffle (vWide b) (b.var.getLsbD 5) (shflqLane (fld b.var 2 3))⟩
  | .bcast h b => some ⟨h, b, ⟨some (vWide b), some false, none, immS⟩, vWide b, fun ins =>
      let sel := (ins.head?.map LaneIn.b).getD default
      ins.map fun x => (x.lane, match sel.tok with
        | some t => .tok t
        | none => srcRes (vWide b) ((laneOf ins sel.v.toNat).getD x).a)⟩
  | .vote h b =>
    if fld b.var 2 2 = 3 then
      some ⟨h, b, ⟨some false, some false, none, immS⟩, false, fun ins =>
        ins.map fun x => (x.lane, match x.b.tok with
          | some t => .tok t
          | none => voteWord (trueMask ins) (b.b == .reg .zero) x)⟩
    else none
  | .pcnt h b => some ⟨h, b, ⟨some false, none, none, immS⟩, false, fun ins =>
      ins.map fun x => (x.lane, .words [BitVec.ofNat 32
        (ins.filter fun y => y.a.v != 0 && (!b.var.getLsbD 2 || y.lane < x.lane)).length])⟩
  | .matchOp h b => some ⟨h, b, ⟨some (vWide b), none, none, immS⟩, false, fun ins =>
      ins.map fun x => (x.lane, match lowTokA ins with
        | some t => .tok t
        | none => .words [BitVec.ofNat 32 (matchVal (fld b.var 2 2) ins x)])⟩
  | .prefixOp h b => some ⟨h, b, ⟨some (vWide b), none, none, immS⟩, vWide b, fun ins =>
      ins.map fun x => (x.lane, combineAll (fld b.var 2 3) (vU b) (vWide b)
        (ins.filter fun y => if b.var.getLsbD 5 then y.lane < x.lane else y.lane ≤ x.lane))⟩
  | .redux h b => some ⟨h, b, ⟨some (vWide b), none, none, immS⟩, vWide b, fun ins =>
      ins.map fun x => (x.lane, combineAll (fld b.var 2 3) (vU b) (vWide b) ins)⟩
  | _ => none

/-- Groups 0x4 and 0x5 (R275 to R284). -/
def floatForms : Instr → Option AluForm
  | .fadd h b => some (floatForm h b true false fun x y _ => sumVals (rmDown b) [x, y])
  | .fsub h b => some (floatForm h b true false fun x y _ => sumVals (rmDown b) [x, negVal y])
  | .fmul h b => some (floatForm h b true false fun x y _ => mulVal x y)
  | .ffma h b => some (floatForm h b true true fun x y z => sumVals (rmDown b) [mulVal x y, z])
  | .fmin h b => some (floatForm h b true false fun x y _ => minE x y)
  | .fmax h b => some (floatForm h b true false fun x y _ => maxE x y)
  | .fabs h b => some (floatForm h b false false fun x _ _ => withSign false x)
  | .fneg h b => some (floatForm h b false false fun x _ _ => negVal x)
  | .fcpys h b => some (floatForm h b true false fun x y _ => nan2 x y (withSign (signOf y) x))
  | .fdiv h b => some (floatForm h b true false fun x y _ => divVal x y)
  | .fsqrt h b => some (floatForm h b false false fun x _ _ => sqrtVal x)
  | .frnd h b => some (floatForm h b false false fun x _ _ => integral b.rm.toNat x)
  | .fscale h b => some ⟨h, b, ⟨some false, some false, none, immS⟩, false, lanewise fun x y _ =>
      floatRes ((typFmt h).encode b.rm.toNat b.sat (scaleBy ((typFmt h).ofWord x) (loW y).toInt))⟩
  | .fclass h b => some ⟨h, b, floatReads false false, false, lanewise fun x _ _ =>
      .words [BitVec.ofNat 32 (2 ^ classBit (typFmt h) (x.toNat % 2 ^ ((typFmt h).ew + (typFmt h).fw + 1)))]⟩
  | .hadd2 h b => some (pairForm h b false fun x y _ => sumVals (rmDown b) [x, y])
  | .hmul2 h b => some (pairForm h b false fun x y _ => mulVal x y)
  | .hfma2 h b => some (pairForm h b true fun x y z => sumVals (rmDown b) [mulVal x y, z])
  | .hmin2 h b => some (pairForm h b false fun x y _ => minE x y)
  | .hmax2 h b => some (pairForm h b false fun x y _ => maxE x y)
  | .frcp h b => some (approxForm h b 0x140)
  | .frsq h b => some (approxForm h b 0x141)
  | .fexp2 h b => some (approxForm h b 0x142)
  | .flog2 h b => some (approxForm h b 0x143)
  | .fsin h b => some (approxForm h b 0x144)
  | .fcos h b => some (approxForm h b 0x145)
  | .ftanh h b => some (approxForm h b 0x146)
  | .fdot4 h b => some (dotForm h b 4 8)
  | .hdot2 h b => some (dotForm h b 2 16)
  | .idot4 h b => some ⟨h, b, floatReads true true, false, lanewise fun x y z =>
      let sum := (List.range 4).foldl (fun (a : Int) i => a + byteInt b.ty2.toNat x i * byteInt b.ty3.toNat y i) (loW z).toInt
      .words [wordI (if b.sat then max (-(2 ^ 31)) (min (2 ^ 31 - 1) sum) else sum)]⟩
  | _ => none

/-- Group 0x6, the forms that write whole registers (R288, R292, R293). -/
def convertForms : Instr → Option AluForm
  | .cvts h b =>
    let n := width (vWide b)
    if b.var.getLsbD 2 then
      some ⟨h, b, ⟨some false, none, none, immZ⟩, vWide b, lanewise fun x _ _ =>
        match toInt b.rm.toNat (if vU b then 0 else -(2 ^ (n - 1))) (if vU b then 2 ^ n - 1 else 2 ^ (n - 1) - 1)
            ((typFmt h).ofWord x) with
        | some k => resW (vWide b) (dword k)
        | none => .bad 0x20 0x01 0⟩
    else
      some ⟨h, b, ⟨some (vWide b), none, none, immZ⟩, false, lanewise fun x _ _ =>
        encodeRes h.typ.toNat b.rm.toNat b.sat (valInt (intVal (vU b) (vWide b) x))⟩
  | .t5pk h b => some ⟨h, b, readsA, false, lanewise fun x _ _ =>
      .words [BitVec.ofNat 32 ((List.range 5).foldl (fun a k =>
        a + (max (-1) (signed 2 (fld x (2 * k) 2)) + 1).toNat * 3 ^ k) 0)]⟩
  | .bmax h b => some ⟨h, b, readsA, false, fun ins =>
      let quarter (q : Nat) : ReplyVal :=
        match blockVals b.ty2.toNat (quarterIns ins q) true with
        | .error v => v
        | .ok vs =>
          if vs.any fun v => !isFin v.2 then floatRes (some (floatFmt 0).infBits)
          else floatRes ((floatFmt 0).encode 0 false (.fin false (maxMag vs).1 (maxMag vs).2))
      ins.map fun x => (x.lane, ((List.range 4).map quarter).getD (x.lane / 32) (.words []))⟩
  | _ => none

/-- A form completes, a scalar result that is poisoned and goes to $deadline apart (R256). -/
def AluForm.row (a : AluForm) : Row :=
  { h := a.h, uses := fun _ => srcUses a.h a.b a.r ++ aluDest a.h (if a.wide then 2 else 1)
    ok := fun _ cx => !isScalar a.h || landable a.h.dest ((cx.results a.h a.b a.r a.f).headD (0, .words [])).2
    res := leaves (aluEff a.h a.b a.r a.wide a.f) }

/-- The forms that write predicates (R255, R259, R266, R269, R270). -/
structure PredForm where
  h : Hdr
  b : AluBody
  r : Reads
  f : List LaneIn → List (Nat × ReplyVal)

def predForms : Instr → Option PredForm
  | .icmp h b => some ⟨h, b, intReads b true false, lanewise fun x y _ =>
      resB (cmpInt (fld b.var 2 3) (intVal (vU b) (vWide b) x) (intVal (vU b) (vWide b) y))⟩
  | .plogt h b => some ⟨h, b, ⟨some false, some false, some false, immS⟩, lanewise fun x y z =>
      resB (tableBit b.var (x != 0) (y != 0) (z != 0))⟩
  | .fcmp h b => some ⟨h, b, floatReads true false, lanewise fun x y _ =>
      let u := (typFmt h).ofWord x
      let v := (typFmt h).ofWord y
      if u = .snan || v = .snan then .bad 0x20 0x01 0 else resB (cmpFloat (fld b.var 2 3) u v)⟩
  | .vote h b =>
    if fld b.var 2 2 = 3 then none
    else
      some ⟨h, b, ⟨some false, none, none, immS⟩, fun ins =>
        let any1 := ins.any fun x => x.a.v != 0
        let all1 := ins.all fun x => x.a.v != 0
        ins.map fun x => (x.lane, resB (match fld b.var 2 2 with | 0 => any1 | 1 => all1 | _ => all1 || !any1))⟩
  | .solo h b => some ⟨h, b, ⟨none, none, none, immS⟩, fun ins =>
      let pick := if b.var.getLsbD 2 then ins.getLast? else ins.head?
      ins.map fun x => (x.lane, resB (pick.map LaneIn.lane == some x.lane))⟩
  | .s2p h b => some ⟨h, b, ⟨some true, some true, none, immS⟩, List.map fun x =>
      let src := if x.lane < 64 then x.a else x.b
      (x.lane, match src.tok with
        | some t => .tok t
        | none => resB (src.v.getLsbD (x.lane % 64)))⟩
  | _ => none

def PredForm.row (a : PredForm) : Row :=
  { h := a.h, uses := fun _ => srcUses a.h a.b a.r ++ [predDest a.h.dest], ok := always
    res := leaves (aluPredEff a.h a.b a.r a.f) }

/-- Every form of groups 0x1 to 0x6 that writes whole registers or a predicate. -/
def aluForms (i : Instr) : Option AluForm :=
  (intForms i).or ((crossForms i).or ((floatForms i).or (convertForms i)))
def aluRows (i : Instr) : Option Row := (aluForms i).map AluForm.row
def predRows (i : Instr) : Option Row := (predForms i).map PredForm.row

/-! ### Group 0x6: strings of elements (R285 to R297) -/

/-- T5UP's results. -/
def t5Results (b : AluBody) (cx : Cx) : List LaneIn → List (Nat × ReplyVal) :=
  List.map fun x => perLane (fun v _ _ => t5Result cx.src.issuerStrand b.a x.lane v) x

/-- The parts that CVT and CVTP write. -/
def cvtPart (h : Hdr) (b : AluBody) (x : LaneIn) : List (Nat × Nat × ReplyVal) :=
  let t := h.typ.toNat
  let t2 := b.ty2.toNat
  [(fld b.var 4 4 * elemWidth t, elemWidth t, match x.a.tok with
    | some t => .tok t
    | none => encodeRes t b.rm.toNat b.sat (decodeElem t2 (fld x.a.v (fld b.var 0 4 * elemWidth t2) (elemWidth t2))))]
def cvtpPart (h : Hdr) (b : AluBody) (x : LaneIn) : List (Nat × Nat × ReplyVal) :=
  let t := h.typ.toNat
  let w := elemWidth t
  let k := 2 * b2n (b.var.getLsbD 2)
  let conv (y : Src) : ReplyVal := match x.a.tok.or x.b.tok with
    | some t => .tok t
    | none => encodeRes t b.rm.toNat b.sat ((floatFmt 0).ofWord y.v)
  [(k * w, w, conv x.a), ((k + 1) * w, w, conv x.b)]

/-- CVT and CVTP complete where no lane is held: a poisoned result may not go to $deadline (R256). -/
def partRow (h : Hdr) (b : AluBody) (r : Reads) (f : LaneIn → List (Nat × Nat × ReplyVal)) : Row :=
  { h := h, uses := fun _ => srcUses h b r ++ aluDest h 1, ok := fun s cx => (partEff h b r f s cx).2.1.isEmpty
    res := leaves (partEff h b r f) }

def stringRows : Instr → Option Row
  | .cvt h b => some (partRow h b (floatReads false false) (cvtPart h b))
  | .cvtp h b => some (partRow h b (floatReads true false) (cvtpPart h b))
  | .t5up h b => some
      { h := h, uses := fun _ => srcUses h b readsA ++ aluDest h 1
        ok := fun _ cx => !isScalar h || landable h.dest ((cx.results h b readsA (t5Results b cx)).headD (0, .words [])).2
        res := fun s cx => leaves (aluEff h b readsA false (t5Results b cx)) s cx }
  | .pack h b => some { h := h, uses := fun _ => srcUses h b readsA ++ [vecDest h.dest 1], ok := always
                        res := leaves (packEff h b) }
  | .unpack h b => some
      { h := h, ok := always, res := leaves (unpackEff h b)
        uses := fun _ => strUse b.a (.elems b.ty2.toNat (fld b.var 0 4)) 1 h.lua ++ [vecDest h.dest 1] }
  | .qnt h b => some
      { h := h, ok := always, res := leaves (qntEff h b)
        uses := fun _ => srcUses h b readsA ++ (if h.typ.toNat = 15 then strUse (srcBOp b.b) .str 2 h.lub else [])
          ++ [vecDest h.dest 1] }
  | .qnts h b => some { h := h, uses := fun _ => srcUses h b readsA ++ [vecDest h.dest 1], ok := always
                        res := leaves (qntsEff h b) }
  | .dqnt h b => some
      { h := h, ok := always, res := leaves (dqntEff h b)
        uses := fun _ => strUse b.a (.elems b.ty2.toNat (fld b.var 0 4)) 1 h.lua ++ strUse (srcBOp b.b) (.lane (fld b.var 0 4)) 1 h.lub
          ++ (if b.ty2.toNat = 15 then opUse b.c 2 h.luc false else []) ++ [vecDest h.dest 1] }
  | .latq h b => some { h := h, uses := fun _ => srcUses h b readsA ++ [vecDest h.dest 1], ok := always
                        res := leaves (latqEff h b) }
  | _ => none

/-! ### Group 0x7: the matrix units (R299 to R325) -/

/-- No tile that the form names has the reserved mode (R75). -/
def modeOk (s : State) (cx : Cx) (ts : List Nat) : Bool := ts.all fun t => (s.strand cx.sid).accMode t != 3

/-- The state in which MACC forms find their tiles: earlier passes of these lanes have landed (R316). -/
def drained (s : State) (cx : Cx) (ts : List Nat) : State := ts.foldl (fun s t => s.drainTile cx.sid t cx.frag.mask) s

/-- The same with the parity of the rows that the form reads checked (R87). -/
def checkedRows (s : State) (cx : Cx) (ts : List Nat) (t : Nat) (rows : List Nat) : State :=
  (drained s cx ts).checkRows cx.sid cx.pc t rows

/-- What a latch is staged with, and what it holds then (R308). -/
def latches (b : MatBody) (s : State) (cx : Cx) (d0 d1 : Src) (bsp : Bool) : LatchRec :=
  latchNew ((s.strand cx.sid).latchRec (b2n b.bank)) b (matQuarter b) d0 d1 bsp

/-- MLATCH completes where no access of the fragment to the words that it reads is still to be performed (R169, R306). -/
def latchRow (h : Hdr) (b : MatBody) (us : List Use) (d0 d1 : Cx → Src) (bsp : Bool) : Row :=
  plainIf h us (fun s cx => !s.matFull cx.sid && !s.spansWait cx (latches b s cx (d0 cx) (d1 cx) bsp).spans) fun s cx =>
    (s.mlatch cx b (matQuarter b) (d0 cx) (d1 cx) bsp).1

/-- What MMQ reads of a scratchpad. -/
def padSpans (h : Hdr) (b : MatBody) (cx : Cx) : List Span :=
  if quarterRows cx.act (matQuarter b) = [] then [] else cx.src.aSpans cx h b

/-- The status word of MSTAT (R325). -/
def statusOf (s : State) (cx : Cx) : Dword :=
  let st := s.strand cx.sid
  mk64 [(32, fld (st.ctl ctlACCMODE) 0 32), (16, fld (st.ctl ctlACCMODE) 32 16), (8, bankStatus (st.latchRec 1)),
    (0, bankStatus (st.latchRec 0))]

/-- The tiles of an issuing strand's budget. -/
def budgetTiles (s : State) : Nat :=
  match s.issuer with
  | some (sid, _, _) => fld ((s.strand sid).ctl ctlBUDGET) 16 5
  | none => 0

/-- A form that enters the matrix queue: there is room in it (R317). -/
def queuedIf (h : Hdr) (us : List Use) (ok : State → Cx → Bool) (f : State → Cx → State) : Row :=
  plainIf h us (fun s cx => !s.matFull cx.sid && ok s cx) f
def queued (h : Hdr) (us : List Use) (f : State → Cx → State) : Row := queuedIf h us always f

def matrixRows : Instr → Option Row
  | .mlatch h b => some (latchRow h b (opUse b.a (matWords b.typb.toNat) h.lua false)
      (fun _ => .ok (mk64 [(0, opNum b.a), (8, matQuarter b)])) (fun cx => .ok ((maskWord cx.act (matQuarter b)).zeroExtend 64)) false)
  | .mlatchScratchpad h b => some (latchRow h b (opUse b.a 1 h.lua false ++ opUse b.b 1 h.lub false)
      (fun cx => cx.src.readOp cx.sid 0 true b.a) (fun cx => cx.src.readOp cx.sid 0 true b.b) true)
  | .mrel h b => some (queued h [] fun s cx => (mrelEff h b s cx).1)
  | .mscl h b => some (plain h (opUse b.a 1 h.lua false) fun s cx =>
      (s.stageSource cx b 0x28 (srcWord 1 false (opNum b.a))).1)
  | .mtbl h b => some (plain h (opUse b.a 2 h.lua false) fun s cx =>
      (s.stageSource cx b 0x30 (srcWord 1 false (opNum b.a))).1)
  | .mscla h b => some (plain h (opUse b.a 1 h.lua false) fun s cx => (msclaEff h b s cx).1)
  | .mmq h b => some (queuedIf h
      (opUse b.a (matWords h.typ.toNat) h.lua false ++ (if b.scl then opUse b.c 3 h.luc false else [])
        ++ [tileUse h.dest.toNat true])
      (fun s cx => modeOk s cx [h.dest.toNat]) fun s cx => (s.mmq cx h b (cx.src.aRegs cx h b)).1)
  | .mmqScratchpad h b => some (queuedIf h
      (opUse b.a 1 h.lua false ++ opUse b.b 1 h.lub false ++ (if b.scl then opUse b.c 1 h.luc false else [])
        ++ [tileUse h.dest.toNat true])
      (fun s cx => !s.spansWait cx (padSpans h b cx) && modeOk (s.readSpans cx.sid (padSpans h b cx)) cx [h.dest.toNat])
      fun s cx => (mmqPadEff h b s cx).1)
  | .maccZ h _ => some (queued h [tileUse h.dest.toNat true] fun s cx => s.zeroTile cx h.dest.toNat)
  | .maccZAll h _ => some
      { h := h, uses := fun s => (List.range (budgetTiles s)).map fun t => tileUse t true, ok := fun s cx => !s.matFull cx.sid
        res := onward fun s cx => (List.range (budgetTiles cx.src)).foldl (fun s t => s.zeroTile cx t) s }
  | .maccLd h b => some (queuedIf h (opUse b.a (accRegs h b) h.lua false ++ [tileUse h.dest.toNat true])
      (fun s cx => modeOk (drained s cx [h.dest.toNat]) cx [h.dest.toNat]) fun s cx => (maccLdEff h b s cx).1)
  | .maccSt h b => some (queuedIf h [tileUse b.atile.toNat false, vecDest h.dest (accRegs h b)]
      (fun s cx => modeOk (checkedRows s cx [b.atile.toNat] b.atile.toNat (quarterRows cx.act (matQuarter b))) cx [b.atile.toNat])
      fun s cx => (maccStEff h b s cx).1)
  | .maccCp h b => some (queuedIf h [tileUse h.dest.toNat true, tileUse b.atile.toNat false]
      (fun s cx => modeOk (checkedRows s cx [b.atile.toNat, h.dest.toNat] b.atile.toNat (List.range 32)) cx
        [h.dest.toNat, b.atile.toNat]) fun s cx => (maccCpEff h b s cx).1)
  | .maccCpAdd h b => some (queuedIf h [tileUse h.dest.toNat true, tileUse b.atile.toNat false]
      (fun s cx => modeOk ((checkedRows s cx [b.atile.toNat, h.dest.toNat] b.atile.toNat (List.range 32)).checkRows cx.sid cx.pc
        h.dest.toNat (List.range 32)) cx [h.dest.toNat, b.atile.toNat]) fun s cx => (maccCpAddEff h b s cx).1)
  | .maccScl h b => some (queuedIf h (opUse b.a 1 h.lua false ++ opUse b.b 1 h.lub false ++ [tileUse h.dest.toNat true])
      (fun s cx => modeOk (checkedRows s cx [h.dest.toNat] h.dest.toNat (quarterRows cx.act (matQuarter b))) cx [h.dest.toNat])
      fun s cx => (maccSclEff h b s cx).1)
  | .mwait h _ => some (queued h [] fun s cx => s.drainStrand cx.sid)
  | .mstat h _ => some (queued h (scDest h.dest 1) fun s cx =>
      ((s.drainStrand cx.sid).putScalarDest cx h.dest (res64 (statusOf (s.drainStrand cx.sid) cx))).1)
  | _ => none

/-! ### Groups 0x8 and 0x9: loads, stores and cache maintenance (R329 to R336) -/

/-- Registers of a load of a size. -/
def loadSpan (b : MemBody) : Nat := if b.size = 3 then 2 else 1

/-- A form that accesses `len` bytes for some lanes: it need not wait for an access before it (R45, R169, R170). -/
def accessIf (h : Hdr) (b : MemBody) (us : List Use) (lanes : Cx → List Nat) (len : Nat) (rel : Bool) (ok : State → Cx → Bool)
    (f : State → Cx → State) : Row :=
  plainIf h us (fun s cx => !s.mustWait cx b (lanes cx) false len rel && ok s cx) f

/-- The lanes of a form that accesses memory for each active lane, or once for the fragment. -/
def eachLane (cx : Cx) : List Nat := lanesOf cx.act
def oneLane (cx : Cx) : List Nat := [cx.once]

def loadRows : Instr → Option Row
  | .ld h b => some (accessIf h b (eaUses h b false ++ [vecDest h.dest (loadSpan b)]) eachLane (memSize b) false always
      fun s cx => (ldEff h b s cx).1)
  | .ldu h b => some (accessIf h b (eaUses h b false ++ [vecDest h.dest (loadSpan b)]) oneLane (memSize b) false always
      fun s cx => (lduEff h b s cx).1)
  | .ldv h b => some (accessIf h b (eaUses h b false ++ [vecDest h.dest (Check.vCount b)]) eachLane (4 * Check.vCount b) false always
      fun s cx => (ldvEff h b s cx).1)
  | .probe h b => some (plain h (eaUses h b false ++ [vecDest h.dest 1]) fun s cx => (probeEff h b s cx).1)
  | .prefD h b => some (plain h (eaUses h b false) fun s cx => s.clearEvent cx.sid (memSpecials b))
  | .lds h b => some (accessIf h b (eaUses h b false ++ scDest h.dest 1) oneLane (memSize b) false
      (fun s cx => landable h.dest (loadVal b true (s.loadLane cx b cx.once (memSize b)).2)) fun s cx =>
        let r := s.loadLane cx b cx.once (memSize b)
        (r.1.putScalarDest cx h.dest (loadVal b true r.2)).1.clearEvent cx.sid (memSpecials b))
  | _ => none

/-- The stores of a form: an instruction of group 0x9 that writes memory, with its lanes, the bytes that each accesses at its address,
the bytes of one store, addresses and data. -/
structure StoreForm where
  h : Hdr
  b : MemBody
  uses : List Use
  lanes : Cx → List Nat
  len : Nat
  size : Nat
  addr : Dword → Except Dword Dword
  data : Cx → Nat → Except Word (List Dword)

def storeForms : Instr → Option StoreForm
  | .st h b => some ⟨h, b, eaUses h b true ++ opUse b.data (loadSpan b) h.luc true, eachLane, memSize b, memSize b, .ok,
      fun cx => cx.datum b⟩
  | .sts h b => some ⟨h, b, eaUses h b true ++ opUse b.data 1 h.luc true, oneLane, memSize b, memSize b, .ok,
      fun cx => cx.datum b⟩
  | .stv h b => some ⟨h, b, eaUses h b true ++ opUse b.data (Check.vCount b) h.luc true, eachLane, 4 * Check.vCount b, 8, aligned16,
      fun cx => cx.regPairs (Check.vecNum b.data) (Check.vCount b)⟩
  | .stz h b => some ⟨h, b, eaUses h b true, eachLane, memSize b, memSize b, .ok, fun _ _ => .ok [0]⟩
  | .stzLine h b => some ⟨h, b, eaUses h b true, eachLane, 4, 8, fun a => .ok (a &&& 0xFFFFFFFFFFFFFF80),
      fun _ _ => .ok (List.replicate 16 0)⟩
  | _ => none

/-- What the stores of a form do. -/
def StoreForm.run (a : StoreForm) (s : State) (cx : Cx) : State × List Hold :=
  s.storeLanes cx a.b (a.lanes cx) a.size a.addr (a.data cx)

/-- A form stores where no lane is trapped with 0x4C or 0x4D (R137, R140). -/
def StoreForm.row (a : StoreForm) : Row :=
  accessIf a.h a.b a.uses a.lanes a.len (isRel a.b) (fun s cx => (a.run s cx).2.isEmpty) fun s cx => (a.run s cx).1

/-- Cache maintenance of each lane's line, once the fragment's earlier accesses to it have been performed (R336); a poisoned address finds room for its entry (R135). -/
def cacheRow (h : Hdr) (b : MemBody) (drop : Bool) : Row :=
  plainIf h (eaUses h b true) (fun s cx => !s.cacheWaits cx b && (s.cacheOp cx b drop).2.isEmpty) fun s cx => (s.cacheOp cx b drop).1

def storeRows (i : Instr) : Option Row :=
  match i with
  | .cwb h b => some (cacheRow h b false)
  | .cflush h b => some (cacheRow h b true)
  | .cinv h b => some (cacheRow h b true)
  | i => (storeForms i).map StoreForm.row

/-! ### Tiles (R337 to R340) -/

/-- A tile's block, and its entry. -/
def tileBlk (s : State) (cx : Cx) : Nat := (s.strand cx.sid).blk
def tileEnt (s : State) (cx : Cx) (b : MemBody) : TileEntry := s.tileAt (tileBlk s cx) (tileNo b)

/-- The address and the places of a transfer, where nothing is wrong with it: the entry is ready and sound, the address is
not poisoned, every line may be reached (R180), and no access of the fragment before it is still to be performed (R169, R170). -/
def tileMove (s : State) (cx : Cx) (b : MemBody) (kind : AccessKind) (rel : Bool) : Option (State × Dword × List (Dword × Place)) :=
  match s.tileBusy (tileBlk s cx) (tileNo b), (tileEnt s cx b).st == .empty,
    tileDefect (tileEnt s cx b).desc (s.block (tileBlk s cx)).spadBytes, cx.tileEa b with
  | false, false, none, .ok a =>
    (match s.tilePlaces (s.whoOf cx.sid) kind (tileEnt s cx b).desc a with
     | (_, .error _) => none
     | (t, .ok ps) => if t.tileWaits cx (ps.map (·.2)) rel then none else some (t, a, ps))
  | _, _, _, _ => none

/-- The rows of a tile as TSTR reads them; a release shows the fragment's earlier stores first (R170). -/
def tileWords (s t : State) (cx : Cx) (b : MemBody) : State × List MWord :=
  let t := if b.ord.getLsbD 1 then t.showLanes cx.sid cx.frag.mask else t
  t.readTile cx.sid ((t.tileSpad (tileBlk s cx) (tileEnt s cx b).desc).map fun l => (0, ⟨l, 1, false⟩))

/-- The drain of an issued TSTR: with a region open its words are held in the locket instead. -/
def tileDrain (s : State) (cx : Cx) (b : MemBody) (a : Dword) (ps : List (Dword × Place)) (ws : List MWord) (open_ : Bool)
    (u : State) : State :=
  { u.tileState (tileBlk s cx) (tileNo b) .draining with
    tileOps := u.tileOps ++ [⟨cx.sid, cx.idx, tileBlk s cx, tileNo b, false, cx.pc, a, b.scope, (tileEnt s cx b).desc,
      if open_ then [] else ws, if open_ then [] else ps.map (·.2)⟩] }

def tileRowsOf : Instr → Option Row
  | .tdef h b => some (plainIf h (opUse b.data 1 h.luc true)
      (fun s cx => !s.tileBusy (tileBlk s cx) (tileNo b) && (cx.src.readOp cx.sid cx.once true b.data).tok.isNone)
      fun s cx =>
        let d := (cx.src.readOp cx.sid cx.once true b.data).v
        s.setTile (tileBlk s cx) (tileNo b) ⟨.ready, d, (tileDefect d (s.block (tileBlk s cx)).spadBytes).isSome⟩)
  | .trel h b => some (plainIf h [] (fun s cx => !s.tileBusy (tileBlk s cx) (tileNo b)) fun s cx =>
      s.setTile (tileBlk s cx) (tileNo b) ⟨.empty, 0, false⟩)
  | .tqry h b => some { h := h, uses := fun _ => scDest h.dest 1, ok := always
                        res := toScalar h.dest fun s cx => res64 (tileWord (tileEnt s cx b)) }
  | .tld h b => some (plainIf h (eaUses h b false) (fun s cx => (tileMove s cx b .read false).isSome) fun s cx =>
      match tileMove s cx b .read false with
      | some (t, a, ps) => (t.readTile cx.sid ps).1.startFill cx b (tileEnt s cx b).desc a (t.readTile cx.sid ps).2
          (if (tileRemote (ps.map (·.2))).isSome then ps.map (·.2) else [])
      | none => s)
  | .tstr h b => some
      { h := h, uses := fun _ => eaUses h b true
        ok := fun s cx =>
          match tileMove s cx b .write (b.ord.getLsbD 1) with
          | some (t, _, ps) =>
            let r := tileWords s t cx b
            (r.2.find? MWord.mark).isNone
              && (!(r.1.strand cx.sid).regionOpen
                || (r.1.holdTile cx b (tileRows (tileEnt s cx b).desc) (ps.zip r.2)).2 == .done)
          | none => false
        res := fun s cx =>
          match tileMove s cx b .write (b.ord.getLsbD 1) with
          | some (t, a, ps) =>
            let r := tileWords s t cx b
            if (r.1.strand cx.sid).regionOpen then
              (tileDrain s cx b a ps r.2 true (r.1.holdTile cx b (tileRows (tileEnt s cx b).desc) (ps.zip r.2)).1, [], .next)
            else (tileDrain s cx b a ps r.2 false r.1, [], .next)
          | none => (s, [], .next) }
  | _ => none

/-! ### Group 0xA: operation packets (R341 to R343) -/

/-- The forms: once for the fragment, operands, extension, no reply, read-only, CAS4's operands. -/
def atomForms : Instr → Option (Hdr × MemBody × AtomForm)
  | .atom h b => some (h, b, ⟨false, 1, false, false, false, false⟩)
  | .atoms h b => some (h, b, ⟨true, 1, false, false, false, false⟩)
  | .red h b => some (h, b, ⟨false, 1, false, true, false, false⟩)
  | .reds h b => some (h, b, ⟨true, 1, false, true, false, false⟩)
  | .cas h b => some (h, b, ⟨false, 2, false, false, false, false⟩)
  | .cass h b => some (h, b, ⟨true, 2, false, false, false, false⟩)
  | .cas2 h b => some (h, b, ⟨false, 2, false, false, false, false⟩)
  | .cas4 h b => some (h, b, ⟨true, 2, true, false, false, true⟩)
  | .enq h b => some (h, b, ⟨false, 2, false, false, false, false⟩)
  | .chase h b => some (h, b, ⟨false, 2, false, false, true, false⟩)
  | .cred h b => some (h, b, ⟨false, 2, false, false, false, false⟩)
  | .opk h b => some (h, b, ⟨false, 2, false, false, b.off.extractLsb' 12 8 == 0x1B, false⟩)
  | .opkScalar h b => some (h, b, ⟨true, 2, false, false, b.off.extractLsb' 12 8 == 0x1B, false⟩)
  | .opkx h b => some (h, b, ⟨false, 2, true, false, b.off.extractLsb' 12 8 == 0x1B, false⟩)
  | .opkxScalar h b => some (h, b, ⟨true, 2, true, false, b.off.extractLsb' 12 8 == 0x1B, false⟩)
  | _ => none

/-- A packet leaves for every lane: no lane is stopped or trapped, no access before it is still to be performed, and the homes'
queues have room; the words of the return slots are due from then on (R45, R71, R186). -/
def atomRow (a : Hdr × MemBody × AtomForm) : Row :=
  plainIf a.1 (atomUses a.1 a.2.1 a.2.2)
    (fun s cx =>
      let r := s.atomOps cx a.1 a.2.1 a.2.2
      !s.mustWait cx a.2.1 (cx.atomLanes a.2.2) true (if a.2.1.size = 3 then 8 else 4) (isRel a.2.1) && r.1.homesHold (sentPackets r.2)
        && (stoppedLanes r.2).isEmpty && (trappedLanes r.2).isEmpty)
    fun s cx =>
      let r := s.atomOps cx a.1 a.2.1 a.2.2
      (((sentPackets r.2).foldl State.sendPacket ((r.1.clearEvent cx.sid (memSpecials a.2.1)).released cx a.2.1)).awaitWords cx.sid
        ((cx.atomLanes a.2.2).flatMap (replyWords (s.strand cx.sid) a.2.2 a.2.1 a.1.dest)) cx.src.tick).endTag cx.sid cx.src.tick

def atomRows (i : Instr) : Option Row := (atomForms i).map atomRow

/-! ### Group 0xB: barriers, waits and signals (R344 to R349) -/

/-- The fragment waits for the barrier's phase, or goes on. -/
def atBarrier (s : State) (cx : Cx) (b : AluBody) : State × List Hold × Go :=
  (s, [], if s.barWaits cx.sid (barNo b) then .block (.barrier (barNo b)) else .next)

/-- A watcher can stand: its word is not poisoned, and it is satisfied with a result that may be written, or a monitor is
free for it (R191). -/
def watchOk (s : State) (d : BitVec 8) (m : Monitor) : Bool :=
  match (s.watchRead m).watched m with
  | .error _ => false
  | .ok w => if watchHolds m.watch w then landable d (watchResult m.watch w) else !m.held || (s.watchRead m).monitorFree m.place.loc

/-- A satisfied watcher gives its result at once; another makes the fragment wait. -/
def watches (s : State) (cx : Cx) (d : BitVec 8) (m : Monitor) : State × List Hold × Go :=
  let t := s.watchRead m
  match t.watched m with
  | .error _ => (t, [], .next)
  | .ok w =>
    if watchHolds m.watch w then ((t.putScalarDest cx d (watchResult m.watch w)).1, [], .next)
    else ({ t with monitors := t.monitors ++ [m] }, [], .block (if m.held then .monitor else .obj))

/-- The watcher of a word, where its address is aligned and may be read; `wide` bytes. -/
def wordWatch (s : State) (cx : Cx) (d : BitVec 8) (a : Dword) (size : Nat) (w : Watch) : Option (State × Monitor) :=
  if a.toNat % size != 0 then none
  else
    match s.translate (s.whoOf cx.sid) .read a with
    | (_, .error _) => none
    | (t, .ok p) => some (t, ⟨cx.sid, cx.idx, true, a, p, w, d⟩)

/-- The watcher of an object's phase, once the lanes' accesses have been performed (R346). -/
def objWatch (s : State) (cx : Cx) (h : Hdr) (b : MemBody) (ev : Bool) : Option (State × Monitor) :=
  if !s.allDone cx.sid cx.act then none else
  match cx.eaData b with
  | .error _ => none
  | .ok (a, p) =>
    match (s.clearEvent cx.sid (memSpecials b)).translate ((s.clearEvent cx.sid (memSpecials b)).whoOf cx.sid) .read a with
    | (_, .error _) => none
    | (t, .ok pl) =>
      match (t.objTouch cx.sid pl).objRead pl a with
      | .error _ => none
      | .ok _ => some (t.objTouch cx.sid pl, ⟨cx.sid, cx.idx, ev, a, pl, .phase (p.getLsbD 0), h.dest⟩)

/-- A form that waits on a watcher. -/
def watchRow (h : Hdr) (us : List Use) (w : State → Cx → Option (State × Monitor)) : Row :=
  { h := h, uses := fun _ => us
    ok := fun s cx => match w s cx with | some r => watchOk r.1 h.dest r.2 | none => false
    res := fun s cx => match w s cx with | some r => watches r.1 cx h.dest r.2 | none => (s, [], .next) }

/-- The place of an operation of `len` bytes on an object or a word to be signalled, with its value, where the address may be reached:
a release, so that the lanes' accesses have been performed and what they wrote is seen (R172), and no live-in register of an open
region stands there (R140). -/
def syncPlace (s : State) (cx : Cx) (b : MemBody) (len : Nat) : Option (State × Dword × Dword × Place) :=
  let u := (s.clearEvent cx.sid (memSpecials b)).showLanes cx.sid cx.act
  match s.allDone cx.sid cx.act, cx.eaData b with
  | true, .ok (a, v) =>
    (match u.packetPlace (u.whoOf cx.sid) false a with
     | (_, .error _) => none
     | (t, .ok p) => if (t.strand cx.sid).regionOpen && t.hitsLiveIn cx.sid p.loc len then none else some (t, a, v, p))
  | _, _ => none

/-- The packet of a SIGNAL: routine 0x01 with no reply. -/
def signalPacket (cx : Cx) (b : MemBody) (a v : Dword) (p : Place) : Packet :=
  ⟨.strand cx.sid cx.idx cx.once cx.pc [] cx.src.tick, 0x01, a, p, v, 0, b.scope, true, true, false, true, false, 0, [], cx.act,
    none⟩

/-- The arrival of an OBJ.ARR, and its sending: to the object's home, over the fabric where that is another device's (R182, R189). -/
def arrivalOf (cx : Cx) (h : Hdr) (b : MemBody) (a e : Dword) (p : Place) : Arrival :=
  ⟨cx.sid, cx.idx, cx.once, cx.pc, cx.src.tick, h.dest, a, p, e, b.scope, cx.act⟩
def arrivalSent (t : State) (a : Arrival) : Option State :=
  if a.place.loc.remote then t.sendTo a.place.loc (.arrival a) else some { t with arrivals := t.arrivals ++ [a] }

/-- What a FENCE leaves (R172, R176, R349). -/
def fenced (s : State) (cx : Cx) (b : AluBody) : State :=
  let k := s.coreOf cx.sid
  if fenceKind b = 4 then
    (if fenceScope b = 0 then s
     else { s with recCache := s.recCache.map fun r =>
       if r.engine = 2 * k || r.engine = 2 * k + 1 || r.engine = 1024 then { r with barred := cx.sid :: r.barred } else r })
  else if (fenceKind b = 0 || fenceKind b = 2) && fenceScope b != 0 then s.showLanes cx.sid cx.frag.mask
  else s

def syncRows : Instr → Option Row
  | .barArr h b => some (plainIf h [] (fun s cx => s.allDone cx.sid cx.frag.mask) fun s cx => s.arriveAt cx (barNo b))
  | .barWait h b => some { h := h, uses := fun _ => [], ok := always, res := fun s cx => atBarrier s cx b }
  | .barSync h b => some { h := h, uses := fun _ => [], ok := fun s cx => s.allDone cx.sid cx.frag.mask
                           res := fun s cx => atBarrier (s.arriveAt cx (barNo b)) cx b }
  | .objArr h b => some (plainIf h (syncUses h b true ++ scDest h.dest 1)
      (fun s cx =>
        match syncPlace s cx b 16 with
        | some (t, a, e, p) => decide (e.toNat ≤ 0x7FFFFF) && (arrivalSent t (arrivalOf cx h b a e p)).isSome
        | none => false)
      fun s cx =>
        match syncPlace s cx b 16 with
        | some (t, a, e, p) =>
          let u := (arrivalSent t (arrivalOf cx h b a e p)).getD t
          u.awaitWords cx.sid ((u.strand cx.sid).scalarWords h.dest) cx.src.tick
        | none => s)
  | .objWait h b => some (watchRow h (syncUses h b false ++ scDest h.dest 1) fun s cx => objWatch s cx h b false)
  | .objWaitEv h b => some (watchRow h (syncUses h b false ++ scDest h.dest 1) fun s cx => objWatch s cx h b true)
  | .waitc h b => some (watchRow h (syncUses h b false ++ scDest h.dest 1) fun s cx =>
      if !s.allDone cx.sid cx.act then none else
      match cx.eaData b with
      | .error _ => none
      | .ok (a, v) =>
        wordWatch (s.clearEvent cx.sid (memSpecials b)) cx h.dest a (memSize b) (.cmp b.var b.sx (b.size == 3) v))
  | .signal h b => some (plainIf h (syncUses h b true)
      (fun s cx =>
        match syncPlace s cx b 8 with
        | some (t, a, v, p) => a.toNat % 8 == 0 && t.homesHold [signalPacket cx b a v p]
        | none => false)
      fun s cx =>
        match syncPlace s cx b 8 with
        | some (t, a, v, p) => t.sendPacket (signalPacket cx b a v p)
        | none => s)
  | .fence h b => some (plainIf h [] (fun s cx => s.allDone cx.sid cx.frag.mask) fun s cx => fenced s cx b)
  | _ => none

/-! ### Regions (R139 to R144, R350, R351) -/

/-- The live set that RGN.OPEN or COMMIT reads is sound: no reserved bit, no register beyond the budget (R351). -/
def setOk (s : State) (cx : Cx) (l : LiveSet) : Bool := !l.reserved && !l.over (s.strand cx.sid)

/-- What a COMMIT finds: the state once earlier passes have landed and the set is read, and the set. -/
def commitSet (s : State) (cx : Cx) (b : CtlBody) : State × Except Word LiveSet := (s.drainStrand cx.sid).readLiveSet cx b.a

/-- A COMMIT completes where the fragment holds every lane and a region is open, earlier instructions have completed, and
the set is sound; a park for the sixteenth time contains the strand instead (R144). -/
def commitRow (h : Hdr) (b : CtlBody) (parks reopen : Bool) : Row :=
  { h := h, uses := fun s => if s.misuse true then [] else commitUses h b
    ok := fun s cx =>
      let r := commitSet s cx b
      !cx.src.misuse true && !s.earlierPending cx.sid && (match r.2 with | .ok l => setOk r.1 cx l | .error _ => true)
        && (!parks || ((r.1.strand cx.sid).livePoison r.2).isEmpty || ((r.1.eatFound cx.sid r.2).strand cx.sid).rstate 20 4 != 15)
    res := fun s cx =>
      let r := commitSet s cx b
      match (r.1.strand cx.sid).livePoison r.2 with
      | [] => (r.1.commitRelease cx h.dest reopen, [], .next)
      | t :: ts =>
        let u := r.1.eatFound cx.sid r.2
        if parks then ((u.dropLocket cx.sid).park cx t, [], .own) else (u.commitRecover cx h b (t :: ts), [], .own) }

def regionRows : Instr → Option Row
  | .rgnOpen h b => some
      { h := h, uses := fun s => if s.misuse false then [] else opUse b.a 1 h.lua true
        ok := fun s cx => !cx.src.misuse false
          && (match s.readLiveSet cx b.a with | (t, .ok l) => setOk t cx l | _ => false)
        res := onward fun s cx =>
          match s.readLiveSet cx b.a with
          | (t, .ok l) => t.modStrand cx.sid fun st => st.openRegion cx.nextPc (fld (Check.immOf b) 0 16) l
          | _ => s }
  | .commit h b => some (commitRow h b false false)
  | .commitPark h b => some (commitRow h b true false)
  | .commitR h b => some (commitRow h b false true)
  | .commitRPark h b => some (commitRow h b true true)
  | .rgnDrop h _ => some (plainIf h [] (fun _ cx => !cx.src.misuse true) fun s cx =>
      (s.dropLocket cx.sid).modStrand cx.sid fun st => st.closeRegion.setRstate 20 4 0)
  | _ => none

/-! ### Group 0xC: engine commands and launches (R352 to R364) -/

/-- The sources of a command, of which it reads those that its form uses. -/
def cmdA (cx : Cx) (b : AsyBody) (op : EngOp) : Src := cx.cmdSrc (cmdReads b op).1 b.a
def cmdB (cx : Cx) (b : AsyBody) (op : EngOp) : Src := cx.cmdSrc (cmdReads b op).2.1 b.b
def cmdC (cx : Cx) (b : AsyBody) (op : EngOp) : Src := cx.cmdSrc (cmdReads b op).2.2 b.c

/-- A command enters its engine's queue: the queue has room, the fragment's accesses have been performed, the tile it names is neither
busy nor empty, no source is poisoned (R176, R352). -/
def commandRow (h : Hdr) (b : AsyBody) (op : EngOp) : Row :=
  plainIf h (cmdUses h b op)
    (fun s cx =>
      let blk := (s.strand cx.sid).blk
      !(s.queueFull cx.sid op || (b.tv && s.tileBusy blk b.tile.toNat)) && s.allDone cx.sid cx.frag.mask
        && ((cmdA cx b op).tok.or ((cmdB cx b op).tok.or (cmdC cx b op).tok)).isNone
        && !(b.tv && ((s.showLanes cx.sid cx.frag.mask).tileAt blk b.tile.toNat).st == .empty))
    fun s cx =>
      let u := s.showLanes cx.sid cx.frag.mask
      let t := if b.tv then u.tileState (s.strand cx.sid).blk b.tile.toNat (if tileSource op then .draining else .filling) else u
      t.pushCmd ⟨op, cx.sid, cx.idx, cx.pc, (cmdA cx b op).v, (cmdB cx b op).v, (cmdC cx b op).v, (cmdReads b op).2.1 && b.b != .zero,
        if b.tv then some b.tile.toNat else none, b.scope, b.var, none⟩

/-- The commands of a strand that a queue holds, at most 255. -/
def ownCmds (cx : Cx) (q : List Cmd) : Nat := min 255 (q.filter fun c => c.sid == cx.sid).length

def engineRows : Instr → Option Row
  | .acopy h b => some (commandRow h b (if b.var.getLsbD 0 then .copyFrom else .copy))
  | .agath h b => some (commandRow h b .gather)
  | .ascat h b => some (commandRow h b .scatter)
  | .acoll h b => some (commandRow h b .coll)
  | .afill h b => some (commandRow h b .fill)
  | .acopyt h b => some (commandRow h b .copyT)
  | .apref h b => some (commandRow h b .pref)
  | .aqry h _ => some (gives h (scDest h.dest 1) fun s cx =>
      mk64 [(0, ownCmds cx s.copyQ), (8, ownCmds cx s.gatherQ), (16, ownCmds cx s.collQ)])
  | _ => none

/-- A launch record enters the core's queue: there is room, the fragment's accesses have been performed, and its sixteen doublewords
can be read (R361). -/
def launchRow (h : Hdr) (b : AsyBody) (pod : Bool) : Row :=
  plainIf h (opUse b.a 1 h.lua true)
    (fun s cx => decide ((s.lqOf (s.coreOf cx.sid)).length < lqLimit) && s.allDone cx.sid cx.frag.mask && (cx.asySrc b.a).tok.isNone
      && (cx.asySrc b.a).v.toNat % 128 == 0
      && (match ((s.showLanes cx.sid cx.frag.mask).peekDwords cx.sid cx.once (cx.asySrc b.a).v 16).2 with
          | .ok _ => true | .error _ => false))
    fun s cx =>
      match (s.showLanes cx.sid cx.frag.mask).peekDwords cx.sid cx.once (cx.asySrc b.a).v 16 with
      | (t, .ok r) => { t with lq := t.lq ++ [⟨s.coreOf cx.sid, (t.strand cx.sid).ctx, (cx.asySrc b.a).v, r, pod, t.clock, false⟩] }
      | (t, .error _) => t

/-- A cancellation reaches the grids of the strand's context that have the identifier (R363). -/
def cancelRow (h : Hdr) (b : AsyBody) (term : Bool) : Row :=
  plainIf h (opUse b.a 1 h.lua true) (fun _ cx => (cx.asySrc b.a).tok.isNone) fun s cx =>
    if b.scope == 6 then s.cancelPod (s.strand cx.sid).ctx (cx.asySrc b.a).v term
    else s.cancelHere (s.strand cx.sid).ctx (cx.asySrc b.a).v term

/-- The launch record of the strand's grid. -/
def ownRecord (s : State) (cx : Cx) : List Dword := (List.range 16).map fun i => (s.grid (s.strand cx.sid).gid).rcd.getD i 0

def launchRows : Instr → Option Row
  | .lnch h b => some (launchRow h b false)
  | .lnchPod h b => some (launchRow h b true)
  | .join h b => some (watchRow h (opUse b.a 1 h.lua false ++ opUse b.b 1 h.lub false ++ scDest h.dest 1) fun s cx =>
      if !s.allDone cx.sid cx.act || ((cx.asySrc b.a).tok.or (cx.asySrc b.b).tok).isSome then none
      else wordWatch s cx h.dest (cx.asySrc b.a).v 8 (.cmp 2 false true (cx.asySrc b.b).v))
  | .cancel h b => some (cancelRow h b false)
  | .cancelTerm h b => some (cancelRow h b true)
  | .lrec h b => some (plainIf h (opUse b.a 1 h.lua true)
      (fun s cx => (cx.asySrc b.a).tok.isNone && !s.waitsFor cx.sid cx.once (cx.asySrc b.a).v 128 false
        && (s.storeDwords cx (cx.asySrc b.a).v (ownRecord s cx)).2.isEmpty)
      fun s cx => (s.storeDwords cx (cx.asySrc b.a).v (ownRecord s cx)).1)
  | .lstat h _ => some (gives h (scDest h.dest 1) fun s cx =>
      mk64 [(0, (s.lqOf (s.coreOf cx.sid)).length % 8), (8, b2n (!s.poolRoom)), (9, b2n (!s.ovf.isEmpty))])
  | _ => none

/-! ### Group 0xD: privileged instructions (R374, R380 to R384, R390, R392, R400, R437) -/

/-- What a privileged form acts on: what the fragment has written is seen by every agent (R381). -/
def shown (s : State) (cx : Cx) : State := s.showLanes cx.sid cx.frag.mask

/-- A privileged form may act: at system level, once the fragment's accesses have been performed, and where its own condition holds
(R374, R381). -/
def sysOk (ok : State → Cx → Bool) (s : State) (cx : Cx) : Bool :=
  cx.src.sysLevel cx.sid && s.allDone cx.sid cx.frag.mask && ok (shown s cx) cx

/-- A privileged form with a condition of its own. -/
def sysRow (h : Hdr) (us : List Use) (ok : State → Cx → Bool) (res : State → Cx → State) : Row :=
  plainIf h us (sysOk ok) fun s cx => res (shown s cx) cx

/-- A number goes to the destination. -/
def numTo (d : BitVec 8) (cx : Cx) (r : State × Nat) : State := (r.1.putScalarDest cx d (res64 (BitVec.ofNat 64 r.2))).1

/-- The context that SRCA names, when its value is not poisoned and the issuer has the right that is asked for. -/
def onCtxOk (cx : Cx) (b : SysBody) (may : Nat → Bool) : Bool := (cx.sysSrc b.a).tok.isNone && may (ctxOf (cx.sysSrc b.a).v)

/-- The strand that SRCA and SRCB name. -/
def named (s : State) (cx : Cx) (b : SysBody) : Option Nat := s.strandNamed (ctxOf (cx.sysSrc b.a).v) (cx.sysSrc b.b).v

/-- A form on the strand named: nothing where there is none. -/
def strandRow (h : Hdr) (b : SysBody) (may : State → Cx → Nat → Bool) (f : State → Nat → State) : Row :=
  sysRow h (sysUses h b) (fun s cx => ((cx.sysSrc b.a).tok.or (cx.sysSrc b.b).tok).isNone && may s cx (ctxOf (cx.sysSrc b.a).v))
    fun s cx => match named s cx b with | some sid => f s sid | none => s

/-- What SHALT gives: the next PC of the strand it halts, or of one that is halted; 0 where there is none (R456). One that is Out
comes back Halted. -/
def shalts (h : Hdr) (b : SysBody) (s : State) (cx : Cx) : State :=
  match named s cx b with
  | none => numTo h.dest cx (s, 0)
  | some sid =>
    let st := s.strand sid
    let pc := if sid = cx.sid then cx.nextPc else st.nextPc
    ((if st.isHalted then s else s.shalt sid pc).putScalarDest cx h.dest (res64 pc)).1

/-- What PLD reads at a place. -/
def rawRead (s : State) (cx : Cx) (b : SysBody) : State × ReplyVal :=
  match s.rawPlace (cx.sysSrc b.a).v (rawSize b) with
  | .error c => (s, .bad c 0x02 (cx.sysSrc b.a).v)
  | .ok p =>
    let r := (s.drainAt cx.sid p.loc).readPart (rawWho (s.ownCtx cx)) default (cx.sysSrc b.a).v (rawSize b) p
    (r.1, match r.2 with | .words [w] => .words [w, 0] | v => v)

/-- The oldest entry of the fault queue. -/
def oldest (s : State) : List Dword :=
  (List.range 8).map fun i =>
    match s.physLoc ((s.reg rFQBASE).toNat + 64 * (s.regF rFQHEAD 0 32 % s.fqSize) + 8 * i) with
    | some l => (s.getD64 l).1
    | none => 0

/-- FQPOP: the entry goes to memory, the head moves on, and the number that is left goes to the destination (R392). -/
def pops (h : Hdr) (b : SysBody) (s : State) (cx : Cx) : State :=
  if s.fqCount = 0 then (s.putScalarDest cx h.dest (res64 0xFFFFFFFFFFFFFFFF)).1
  else
    let hd := s.regF rFQHEAD 0 32 % s.fqSize
    let t := (s.storeDwords cx (cx.sysSrc b.a).v (oldest s)).1
    let t := t.setReg rFQHEAD (BitVec.ofNat 64 ((hd + 1) % t.fqSize))
    numTo h.dest cx (t, t.fqCount)

def systemRows : Instr → Option Row
  | .srd h b => some (sysRow h (scDest h.dest 1) (fun _ cx => b.sreg == 0 || (cx.src.sregOf b).isSome) fun s cx =>
      match s.regOfNumber cx.sid b.sreg.toNat with
      | none => (s.putScalarDest cx h.dest (res64 (s.xctx (s.ownCtx cx)))).1
      | some r =>
        let t := s.regRead (.ctx (s.ownCtx cx)) r
        (t.1.putScalarDest cx h.dest (res64 t.2)).1)
  | .swr h b => some (sysRow h (sysUses h b)
      (fun _ cx => (match cx.src.sregOf b with | some r => !regReadOnly r | none => false) && (cx.sysSrc b.a).tok.isNone)
      fun s cx =>
        match s.regOfNumber cx.sid b.sreg.toNat with
        | some r => s.regWrite (.ctx (s.ownCtx cx)) r (cx.sysSrc b.a).v
        | none => s)
  | .tbinv h b => some (sysRow h (sysUses h b)
      (fun s cx => ((cx.sysSrc b.a).tok.or (cx.sysSrc b.b).tok).isNone
        && (fld b.var 0 2 == 2 || s.mayAct (s.ownCtx cx) (ctxOf (cx.sysSrc b.b).v)))
      fun s cx => s.tlbDrop (s.tbScope cx b) fun t =>
        if fld b.var 0 2 = 0 then t.covers (ctxOf (cx.sysSrc b.b).v) (fld (cx.sysSrc b.a).v 0 56)
        else if fld b.var 0 2 = 1 then t.ctx == ctxOf (cx.sysSrc b.b).v else true)
  | .tbsync h b => some (sysRow h [] (fun s _ => s.translationsDone) fun s _ =>
      let t := (s.strands.map (·.1)).foldl State.moveImage s
      if fld b.var 4 3 = 5 then t.refreshDebug else t)
  | .ctxswOut h b => some
      { h := h, uses := fun _ => sysUses h b ++ scDest h.dest 1
        ok := sysOk fun s cx => onCtxOk cx b (s.mayAct (s.ownCtx cx))
        res := fun s cx =>
          let t := shown s cx
          let st := t.strand cx.sid
          ((t.awaitWords cx.sid (st.scalarWords h.dest) cx.src.tick).switchOut (ctxOf (cx.sysSrc b.a).v) (some (cx.later st h.dest))
            none false, [], .block .system) }
  | .ctxswIn h b => some (sysRow h (sysUses h b ++ scDest h.dest 1) (fun s cx => onCtxOk cx b (s.mayAct (s.ownCtx cx)))
      fun s cx => numTo h.dest cx (s.switchIn (ctxOf (cx.sysSrc b.a).v)))
  | .shalt h b => some { sysRow h (sysUses h b ++ scDest h.dest 1)
      (fun s cx => (cx.sysSrc b.b).tok.isNone && onCtxOk cx b (s.debugRight (s.ownCtx cx)))
      (shalts h b) with post := fun cx t => t.resave cx.sid }
  | .sresm h b => some (strandRow h b (fun s cx => s.debugRight (s.ownCtx cx)) State.unhalt)
  | .sresmFetch h b => some (strandRow h b (fun s cx => s.mayAct (s.ownCtx cx)) fun s sid =>
      s.modStrand sid fun st => { st with lines := [] }.onTable fun st =>
        st.fetchParks.foldl (fun (st : Strand) (p : Nat × Frag × BitVec 8) =>
          st.setFrag p.1 { p.2.1 with wait := .ready, readyAt := s.clock }) st)
  | .sresmKill h b => some (strandRow h b (fun s cx => s.mayAct (s.ownCtx cx)) fun s sid =>
      match (s.strand sid).fetchParks with
      | p :: _ => s.contain sid p.2.2 0 p.2.1.pc none
      | [] => s)
  | .ievict h b => some (strandRow h b (fun s cx => s.mayAct (s.ownCtx cx)) State.writeLines)
  | .pld h b => some (sysRow h (sysUses h b ++ scDest h.dest 1)
      (fun s cx => (cx.sysSrc b.a).tok.isNone && landable h.dest (rawRead s cx b).2
        && (match s.rawPlace (cx.sysSrc b.a).v (rawSize b) with | .ok p => !noRegister p.loc false | .error _ => true))
      fun s cx => ((rawRead s cx b).1.putScalarDest cx h.dest (rawRead s cx b).2).1)
  | .pst h b => some (sysRow h (sysUses h b)
      (fun s cx => ((cx.sysSrc b.a).tok.or (cx.sysSrc b.b).tok).isNone
        && (match s.rawPlace (cx.sysSrc b.a).v (rawSize b) with | .ok p => !noRegister p.loc true | .error _ => false))
      fun s cx =>
        match s.rawPlace (cx.sysSrc b.a).v (rawSize b) with
        | .ok p => (s.drainAt cx.sid p.loc).writeBytes (rawWho (s.ownCtx cx)) (cx.sysSrc b.a).v (rawSize b) p (cx.sysSrc b.b).v
        | .error _ => s)
  | .convhcHc h b => some (sysRow h (sysUses h b ++ scDest h.dest 1)
      (fun _ cx => ((cx.sysSrc b.a).tok.or (cx.sysSrc b.b).tok).isNone && (convUnits (cx.sysSrc b.a).v (cx.sysSrc b.b).v).isSome)
      fun s cx => numTo h.dest cx (s.toHc ((convUnits (cx.sysSrc b.a).v (cx.sysSrc b.b).v).getD [])))
  | .convhcSm h b => some (sysRow h (sysUses h b ++ scDest h.dest 1)
      (fun _ cx => ((cx.sysSrc b.a).tok.or (cx.sysSrc b.b).tok).isNone && (convUnits (cx.sysSrc b.a).v (cx.sysSrc b.b).v).isSome)
      fun s cx => numTo h.dest cx (s.toSm ((convUnits (cx.sysSrc b.a).v (cx.sysSrc b.b).v).getD []), 0))
  | .fqpop h b => some (sysRow h (sysUses h b ++ scDest h.dest 1)
      (fun s cx => (cx.sysSrc b.a).tok.isNone
        && (s.fqCount == 0 || (s.storeDwords cx (cx.sysSrc b.a).v (oldest s)).2.isEmpty))
      (pops h b))
  | .ttload h b => some (sysRow h (sysUses h b ++ scDest h.dest 1)
      (fun s cx => ((cx.sysSrc b.a).tok.or (cx.sysSrc b.b).tok).isNone && s.fwUp)
      fun s cx =>
        let n := (cx.sysSrc b.b).v.toNat
        numTo h.dest cx (s.ttLoad cx.sid cx.once (s.ownCtx cx) (cx.sysSrc b.a).v 0
          (if 1 ≤ n && n ≤ 64 then n else Config.choice s.tick 437 % 65)))
  | .cwball h b => some (sysRow h [] always fun s cx => s.cacheClean (s.tbScope cx b) false)
  | .cwballInv h b => some (sysRow h [] always fun s cx => s.cacheClean (s.tbScope cx b) true)
  | _ => none

/-! ### Groups 0xE and 0xF, and unallocated opcodes (R213, R214) -/

/-- What becomes of the issuing fragment, where one is issuing. -/
def issuing (f : State → Nat → Nat → Frag → State) : EvRow :=
  { ok := fun s => s.issuer.isSome
    res := fun s => match s.issuer with | some (sid, idx, fr) => f s sid idx fr | none => s }

/-- A hint only goes on; an illegal instruction takes the control trap 0x40 on every lane. -/
def rawRows : Instr → Option EvRow
  | .hint _ => some (issuing fun s sid idx f => s.finish sid idx f.pc [] .next)
  | .illegalInstruction _ => some (issuing fun s sid idx f => s.hold sid idx f.pc (holdAll f.mask 0x40 0))
  | _ => none

/-! ### Routines at the homes (R185 to R188, R479) -/

/-- The state in which a routine runs: its packet has left the queue, and the requester's copy of its line is given up. -/
def atHome (s : State) (p : Packet) : State := (s.takePacket p).homeLine p

/-- A routine on n words at ADDR: the home admits it, ADDR is aligned, no operand and no word is poisoned and the result is valid; the
new words are written, of the requester's own image as its Kind column says (R75), and the reply is the old words. -/
def rmwRow (p : Packet) (low ext : Bool) (n align : Nat) (f : List Word → Option (List Word)) : EvRow :=
  { ok := fun s =>
      (homeRefuses p low ext align 0x34).isNone
        && (match (atHome s p).packetWords p p.place.loc n with | .ok ws => (f ws).isSome | .error _ => false)
    res := fun s =>
      match (atHome s p).packetWords p p.place.loc n with
      | .ok ws => ((atHome s p).putTarget p p.place.loc ((f ws).getD [])).replyTo p (.words ws)
      | .error _ => s }

/-- A routine on one integer, of 32 or 64 bits as its number says (R188). -/
def intRow (p : Packet) (f : Dword → Dword) : EvRow :=
  if rtnWide p.rtn.toNat then
    rmwRow p true false 2 8 fun ws => some [loW (f (join32 (ws.getD 0 0) (ws.getD 1 0))), hiW (f (join32 (ws.getD 0 0) (ws.getD 1 0)))]
  else rmwRow p true false 1 4 fun ws => some [loW (f (join32 (ws.getD 0 0) 0))]

/-- A routine on one word that holds floats: an invalid sum writes nothing. -/
def sumRow (p : Packet) (f : Word → Option Word) : EvRow := rmwRow p false false 1 4 fun ws => (f (ws.getD 0 0)).map fun w => [w]

/-- The doublewords at ADDR as routine 0x1C reads them: its two F32 sums, and its mask. -/
def reduction (s : State) (p : Packet) : Option (Word × Word × Dword × List Word) :=
  match s.packetWords p p.place.loc 2, s.packetWords p ((p.place.loc.align 128).add 120) 2 with
  | .ok ws, .ok ms =>
    (match addF32 (ws.getD 0 0) (loW p.op0), addF32 (ws.getD 1 0) (hiW p.op0) with
     | some x, some y => some (x, y, join32 (ms.getD 0 0) (ms.getD 1 0), ms)
     | _, _ => none)
  | _, _ => none

/-- What an arrival at a barrier object does at the object's home, with its reply (R182). -/
def arrives (s : State) (a : Arrival) : State × ReplyVal :=
  (({ s with arrivals := s.arrivals.erase a } : State).objTouch a.sid a.place).objArrive a.place a.va a.bytes.toNat

/-- A reply leaves its queue and its request is over; where that request has not been performed at the other device yet, the reply says
what it found and did there (R189). -/
def answered (s : State) (r : Reply) : State :=
  let t : State := { s with replies := s.replies.erase r, outReqs := s.outReqs.eraseP (answers r) }
  match s.outReqs.find? (answers r) with
  | some x => (match x.done, x.what with | false, .packet p => t.learn p x.fresh r.val | _, _ => t)
  | none => t

def routineRows : Instr → Option EvRow
  | .addRoutine p => some (intRow p fun w => w + p.op0)
  | .signedMinRoutine p => some (intRow p fun w => if packetNum p true w ≤ packetNum p true p.op0 then w else p.op0)
  | .signedMaxRoutine p => some (intRow p fun w => if packetNum p true w ≤ packetNum p true p.op0 then p.op0 else w)
  | .unsignedMinRoutine p => some (intRow p fun w => if packetNum p false w ≤ packetNum p false p.op0 then w else p.op0)
  | .unsignedMaxRoutine p => some (intRow p fun w => if packetNum p false w ≤ packetNum p false p.op0 then p.op0 else w)
  | .andRoutine p => some (intRow p fun w => w &&& p.op0)
  | .orRoutine p => some (intRow p fun w => w ||| p.op0)
  | .xorRoutine p => some (intRow p fun w => w ^^^ p.op0)
  | .swapRoutine p => some (intRow p fun _ => p.op0)
  | .casRoutine p => some (intRow p fun w => if packetNum p false w = packetNum p false p.op0 then p.op1 else w)
  | .f32AddRoutine p => some (sumRow p fun w => addF32 w (loW p.op0))
  | .f16PairAddRoutine p => some (sumRow p fun w => addHalves 1 w (loW p.op0))
  | .b16PairAddRoutine p => some (sumRow p fun w => addHalves 2 w (loW p.op0))
  | .twoWordCasRoutine p => some (rmwRow p false false 2 8 fun ws =>
      some (if join32 (ws.getD 0 0) (ws.getD 1 0) = p.op0 then [loW p.op1, hiW p.op1] else ws))
  | .fourWordCasRoutine p => some (rmwRow p false true 4 16 fun ws =>
      some (if join32 (ws.getD 0 0) (ws.getD 1 0) = p.op0 && join32 (ws.getD 2 0) (ws.getD 3 0) = p.op1
        then [loW (p.extw.getD 0 0), hiW (p.extw.getD 0 0), loW (p.extw.getD 1 0), hiW (p.extw.getD 1 0)] else ws))
  | .listEnqueueRoutine p => some
      { ok := fun s =>
          (homeRefuses p false false 16 0x36).isNone
            && (match (atHome s p).packetWords p p.place.loc 2 with
                | .error _ => false
                | .ok ws =>
                  let old := join32 (ws.getD 0 0) (ws.getD 1 0)
                  old == 0
                    || (match ((atHome s p).putTarget p p.place.loc [loW p.op0, hiW p.op0]).sepPlace p .write (old + p.op1) with
                        | (u, .ok q) => (u.sepWrite p (old + p.op1) q p.op0).2
                        | (_, .error _) => false))
        res := fun s =>
          match (atHome s p).packetWords p p.place.loc 2 with
          | .error _ => s
          | .ok ws =>
            let old := join32 (ws.getD 0 0) (ws.getD 1 0)
            let t := (atHome s p).putTarget p p.place.loc [loW p.op0, hiW p.op0]
            if old = 0 then (t.putTarget p (p.place.loc.add 8) [loW p.op0, hiW p.op0]).replyTo p (.words ws)
            else
              match t.sepPlace p .write (old + p.op1) with
              | (u, .ok q) => (u.sepWrite p (old + p.op1) q p.op0).1.replyTo p (.words ws)
              | (u, .error _) => u }
  | .pointerChaseRoutine p => some
      { ok := fun _ => (homeRefuses p false false 8 0x34).isNone && p.optok.isNone && decide (1 ≤ p.op0.toNat ∧ p.op0.toNat ≤ 16)
        res := fun s => ((atHome s p).chase p p.va p.op0.toNat).1.replyTo p ((atHome s p).chase p p.va p.op0.toNat).2 }
  | .contributorReductionRoutine p => some
      { ok := fun s =>
          (homeRefuses p false false 8 0x34).isNone && decide (p.place.loc.off % 128 ≤ 104)
            && (match reduction (atHome s p) p with
                | some r => !(fld p.op1 6 1 == 1 && r.2.2.1.getLsbD (fld p.op1 0 6))
                | none => false)
        res := fun s =>
          match reduction (atHome s p) p with
          | some (x, y, m, ms) =>
            let t := (atHome s p).putTarget p p.place.loc [x, y]
            let now := m ||| (1#64 <<< fld p.op1 0 6)
            (if fld p.op1 6 1 == 1 then t.putTarget p ((p.place.loc.align 128).add 120) [loW now, hiW now] else t).replyTo p
              (.words ms)
          | none => s }
  | .installedRoutine p => some
      { ok := fun s =>
          let r := (atHome s p).routineEntry p.rtn.toNat
          decide (0x80 ≤ p.rtn.toNat) && homeAdmits p.place.loc false && p.optok.isNone && r.1.installed r.2.2
            && p.retw == (fld r.2.2 61 1 == 1) && p.ext == (fld r.2.2 62 1 == 1)
            && p.place.loc.off % (if p.retw then 8 else 4) == 0 && !pcInvalid r.2.1
        res := fun s =>
          let r := (atHome s p).routineEntry p.rtn.toNat
          { r.1 with nextStrand := r.1.nextStrand + 1
                     strands := aput r.1.strands r.1.nextStrand (claspStrand r.1.clock p r.2.1 (fld r.2.2 48 12)) } }
  | .barrierObjectArrive a => some
      { ok := fun s => (aget (arrives s a).1.strands a.sid).isSome
        res := fun s =>
          match aget (arrives s a).1.strands a.sid with
          | some st => (arrives s a).1.land
              ⟨a.sid, a.frag, a.lane, a.pc, st.scalarWords a.dest, a.tag, (arrives s a).2, a.va, a.act, a.place.loc⟩
          | none => s }
  | .collectiveCombine op p n w => some
      { ok := fun _ => true
        res := fun s => s.combineAt none op.toNat p n (w.data.toNat % 2 ^ (8 * n)) (if w.mark then some w.data else none) }
  | .replyLand r => some
      { ok := fun s => (aget (answered s r).strands r.sid).isSome
        res := fun s => (answered s r).land r }
  | _ => none

/-! ### Requests of other devices and of this one over the fabric (R189, R464, R465) -/

/-- The outstanding request with a number. -/
def reqNo (s : State) (id : Nat) : Option OutReq := s.outReqs.find? fun q => q.id == id

def fabricRows : Instr → Option EvRow
  | .fabricStoreRequest r => some ⟨fun _ => true, fun s => s.fabRequest r true⟩
  | .tileTransaction r => some ⟨fun _ => true, fun s => s.fabRequest r true⟩
  | .ualinkStandardRequest r => some ⟨fun _ => true, fun s => s.fabRequest r false⟩
  | .fabricAcknowledge src stn seq => some ⟨fun _ => true, fun s =>
      { s with replyCache := s.replyCache.filter fun c => !(c.home == seq.home && c.src == src && c.stn == stn && c.seq == seq.seq) }⟩
  | .fabricRetransmit id => some
      { ok := fun s => match reqNo s id with | some q => decide (q.last + resendWait ≤ s.ptime ∧ q.tries < resendMax) | none => false
        res := fun s =>
          match reqNo s id with
          | some q => { s with
              outReqs := s.outReqs.map fun x => if x == q then { q with last := s.ptime, tries := q.tries + 1 } else x
              outbox := s.outbox ++ [.request q.dst q.stn (q.id % seqCount) q.what] }
          | none => s }
  | .fabricRequestTimeout id => some
      { ok := fun s => match reqNo s id with | some q => decide (q.first + requestWait ≤ s.ptime) | none => false
        res := fun s => match reqNo s id with | some q => s.failReq q 0x3B | none => s }
  | .tileLockTimeout t => some ⟨fun _ => true, fun s => s.tileFail t 0x3D⟩
  | .stationDown n => some ⟨fun _ => decide (n < 16), fun s => { s with downStns := aput s.downStns n () }.moveTraffic n⟩
  | .stationRestored n => some ⟨fun _ => decide (n < 16), fun s => { s with downStns := adel s.downStns n }⟩
  | _ => none

/-! ### Events of strands, engines and units -/

/-- The fragment of a strand. -/
def fragOf (s : State) (sid i : Nat) : Option Frag := (s.strand sid).frag? i

/-- A strand exists and a condition holds of it. -/
def strandIs (s : State) (sid : Nat) (p : Strand → Bool) : Bool := match aget s.strands sid with | some st => p st | none => false

def unitRows : Instr → Option EvRow
  | .engineComplete c => some ⟨fun s => (aget s.strands c.sid).isSome, fun s => s.runCmd c⟩
  | .matrixPassComplete m => some
      { ok := fun s => (s.matQ.findIdx? (· == m)).isSome
        res := fun s => (neededPasses m.sid (some m.tile) (s.matQ.take ((s.matQ.findIdx? (· == m)).getD 0 + 1)) m.lanes).foldl
          State.applyPass s }
  | .tileFillComplete t => some ⟨fun _ => true, fun s => s.fillDone t⟩
  | .tileDrainComplete t => some ⟨fun _ => true, fun s => s.drainDone t⟩
  | .monitorMatch m => some
      { ok := fun s => s.monitors.contains m && (if m.watch == .state3 then watchHolds .state3 ((s.watchRead m).getD64 m.place.loc).1
          else match (s.watchRead m).watched m with | .ok w => watchHolds m.watch w | .error _ => true)
        res := fun s => if m.watch == .state3 then (s.watchRead m).freeMonitor m
          else (s.watchRead m).endWait m (match (s.watchRead m).watched m with | .ok w => watchResult m.watch w | .error v => v) }
  | .deadlineFire sid => some
      { ok := fun s => (aget s.strands sid).isSome
        res := fun s => if (s.strand sid).life == .slotless then s.modStrand sid fun st => { st with due := true }
          else s.fireDeadline sid }
  | .commitParkEnd sid => some
      { ok := fun s => strandIs s sid Strand.parkServed
        res := fun s =>
          let t := (s.monitors.filter fun m => m.sid == sid && m.watch == .state3).foldl State.freeMonitor s
          t.modStrand sid fun st =>
            let st' := (st.setRecState (st.rstate 8 8) 0).endTrap
            let st' := ((st'.setRstate 2 1 0).setRstate 1 1 0).setRstate 0 1 1
            let st' := st'.setRstate 20 4 (st'.rstate 20 4 + 1)
            st'.rejoinAll t.clock st.liveLanes (st'.ctl ctlRSTART) }
  | .heldTrapTaken sid => some ⟨fun s => strandIs s sid Strand.trapDue, fun s => s.takeTrap sid⟩
  | .fetchTrap sid i c => some
      { ok := fun s =>
          match fragOf s sid i with
          | some f => f.mayIssue && (match (s.fetchLine sid f.pc).2 with | .error k => k == c | .ok _ => false)
          | none => false
        res := fun s => (s.fetchLine sid (((fragOf s sid i).map Frag.pc).getD 0)).1.fetchTrap sid i c }
  | .instructionCacheFill core ctx va => some
      { ok := fun s =>
          match (s.translate ⟨ctx, s.ctxSys ctx, some core, none, core / 128, none⟩ .fetch (va &&& 0xFFFFFFFFFFFFFF00)).2 with
          | .ok _ => true | .error _ => false
        res := fun s =>
          match s.translate ⟨ctx, s.ctxSys ctx, some core, none, core / 128, none⟩ .fetch (va &&& 0xFFFFFFFFFFFFFF00) with
          | (t, .ok p) => t.icFill core ctx va p
          | (_, .error _) => s }
  | .starvationPromote sid i => some
      { ok := fun s => match fragOf s sid i with | some f => decide (64 ≤ f.count) && f.hit64 == 0 | none => false
        res := fun s => s.modStrand sid fun st =>
          match st.frag? i with | some f => st.setFrag i { f with hit64 := s.clock + 1 } | none => st }
  | .strandRetire sid => some
      { ok := fun s => (aget s.strands sid).isSome && s.canRetire sid
          && ((s.strand sid).contained || ((s.strand sid).locket.findSome? entryTok).isNone)
        res := fun s => if (s.strand sid).contained then (s.dropLocket sid).retire sid else (s.release sid).retire sid }
  | .slotTakeback sid => some
      { ok := fun s => strandIs s sid fun st => st.life == .resident && st.evictable && st.slot.isSome && s.slotWanted (s.coreOf sid)
        res := fun s => s.modStrand sid fun st => { st with life := .slotless, slot := none, lines := [] }.saveSplits }
  | .strandReadmit sid => some
      { ok := fun s => (s.anySlot (s.coreOf sid)).isSome && strandIs s sid Strand.waitOver
        res := fun s =>
          let t := s.modStrand sid fun st => { st with life := .resident, slot := s.anySlot (s.coreOf sid) }.waitAnew s.clock
          (if (s.strand sid).due then t.fireDeadline sid else t).moveImage sid }
  | _ => none

/-! ### Launches, dispatch and placement (R361, R363, R405 to R423, R426 to R433) -/

/-- The record that overflowed first, as the ring holds it (R412). -/
def overflowRec (s : State) : List Dword :=
  (List.range 16).map fun i => (s.getD64 (.mem (s.regF rLOVB 12 40 * 4096 + 128 * (s.ovfHead % s.ovfCap) + 8 * i))).1

/-- What the record at the head of a core's queue is due for (R361, R412). -/
def handsOff (s : State) (r : LqRec) : State :=
  if s.ovf.isEmpty && s.poolRoom then (s.popLq r).takeRec r r.rcd
  else if s.ovf.length < s.ovfCap then (s.popLq r).toOverflow r
  else s.ovfFull

def dispatchRows : Instr → Option EvRow
  | .gridComplete gid => some
      { ok := fun s => (aget s.grids gid).isSome && s.gridOver gid
        res := fun s =>
          let g := s.grid gid
          let t := { s with grids := adel s.grids gid, pool := s.pool.erase gid }
          match g.zenith with
          | some z => t.sendHalo z (.report g.ctx (g.rcd.getD 2 0) ⟨g.blocksRetired, g.events, g.firstWord, g.firstTime, g.causes⟩)
          | none => t.endLaunch g.ctx g ⟨if g.cancelled then 2 else if g.events = 0 then 1 else 3, g.blocksRetired, g.events,
              g.firstWord, g.causes, false⟩ }
  | .launchQueueHandoff core => some
      { ok := fun s => match s.lqOf core with | r :: _ => decide (r.since + handoffCycles ≤ s.clock) | [] => false
        res := fun s => match s.lqOf core with | r :: _ => handsOff s r | [] => s }
  | .overflowMove => some
      { ok := fun s => !s.ovf.isEmpty && s.fwUp && s.poolRoom
        res := fun s =>
          match s.ovf with
          | r :: l => { s with ovf := l, ovfHead := (s.ovfHead + 1) % s.ovfCap, ovfTold := false }.takeRec r (overflowRec s)
          | [] => s }
  | .postWindowWrite q host dev data => some ⟨fun _ => true, fun s =>
      match s.posts.find? fun y => y.q == q with
      | some y => if y == ⟨q, host, dev, data⟩ then s.takePost y else s.post ⟨q, host, dev, data⟩
      | none => s.takePost ⟨q, host, dev, data⟩⟩
  | .launchPacketAccept q => some
      { ok := fun s => (s.nextPacket q fun k => k != 2 && k != 3).isSome
        res := fun s =>
          match s.nextPacket q fun k => k != 2 && k != 3 with
          | some p => (s.popQueue q).acceptGrid (s.packetGrid q p) 0
              (pkKind p == 1 && pkCtx p == s.qctx q && fld (pkHdr p) 42 5 == 0 && (p.words.drop 13).all (· == 0)) (s.qctx q)
          | none => s }
  | .cancelPacket q => some
      { ok := fun s => (s.nextPacket q (· == 2)).isSome
        res := fun s => match s.nextPacket q (· == 2) with | some p => s.cancelPk q p false | none => s }
  | .cancelTermPacket q => some
      { ok := fun s => (s.nextPacket q (· == 3)).isSome
        res := fun s => match s.nextPacket q (· == 3) with | some p => s.cancelPk q p true | none => s }
  | .nbhdOffer clu gid => some
      { ok := fun s => (match s.nextOffer clu with | some o => o.1 == gid | none => false) && (aget s.offers clu).isNone
        res := fun s =>
          match s.nextOffer clu with
          | some (g, n) =>
            let t := { s with offers := aput s.offers clu (g, n, s.clock), lastClu := clu }
            if s.nbhds.any fun e => e.2.gid == g && e.2.num == n && e.2.out then t else t.modGrid g fun x => x.offered n
          | none => s }
  | .nbhdPlace clu => some ⟨fun s => (s.placeAt clu).2, fun s => (s.placeAt clu).1⟩
  | .offerTimeout clu => some
      { ok := fun s => match aget s.offers clu with | some o => decide (o.2.2 + offerCycles ≤ s.clock) | none => false
        res := fun s => s.withdraw clu }
  | .cstoreApply core => some
      { ok := fun s => (aget s.pendStore core).isSome && (s.coreBlocks core).isEmpty
        res := fun s => { (s.flushCores (· == core)).setReg (rCSTORE core) ((aget s.pendStore core).getD 0) with
          pendStore := adel s.pendStore core } }
  | _ => none

/-! ### Timed actions, gangs and pod grids (R426, R427, R436 to R443, R466) -/

/-- The records of a gang that wait for its switch are released, each due since a time (R441). -/
def switched (s : State) (gid ttime : Nat) (since : State → TtRec → Nat) : State :=
  (s.gangRecs gid ttime).foldl (fun s t => if t.asked then s.ttRelease t (since s t) else s) s

def timedRows : Instr → Option EvRow
  | .ttLaunch n => some ⟨fun s => (s.ttDue n 1).isSome, fun s => match s.ttDue n 1 with | some t => s.ttTake t | none => s⟩
  | .ttPreempt n => some ⟨fun s => (s.ttDue n 2).isSome, fun s => match s.ttDue n 2 with | some t => s.ttTake t | none => s⟩
  | .ttResume n => some ⟨fun s => (s.ttDue n 3).isSome, fun s => match s.ttDue n 3 with | some t => s.ttTake t | none => s⟩
  | .ttDelayExpiry n => some
      { ok := fun s =>
          match s.ttDelay[n]? with
          | some (t, z) => s.fwUp && (!s.overrun t || decide (z ≤ s.ptime)) && s.ttMay t
          | none => false
        res := fun s => match s.ttDelay[n]? with | some (t, _) => { s with ttDelay := s.ttDelay.eraseIdx n }.ttPerform t | none => s }
  | .gangBoundaryMarker gid ttime dev stn => some
      { ok := fun s => decide (stn < 16) && s.mayHalo dev && !s.markers.contains (gid, ttime, dev)
        res := fun s => { s with markers := s.markers ++ [(gid, ttime, dev)] } }
  | .markerTimeout gid ttime dev => some
      { ok := fun s => match s.gangs.find? fun g => g.gid == gid && g.ttime == ttime with | some g => s.markerMissing g dev | none => false
        res := fun s =>
          match s.gangs.find? fun g => g.gid == gid && g.ttime == ttime with
          | some g =>
            let t := s.logStraggler gid ttime dev none
            { t with gangs := s.gangs.map fun x => if x == g then { x with reported := x.reported ++ [dev] } else x }
          | none => s }
  | .agreementCheck gid ttime => some
      { ok := fun s => s.fwUp && decide (ttime ≤ s.ptime + askBefore)
        res := fun s => ((s.gangRecs gid ttime).filter fun t => !t.checked).foldl (fun s t => s.askFor gid ttime t) s }
  | .agreementRequest gid ttime dev => some
      { ok := fun s => !s.asks.contains (gid, ttime)
        res := fun s => { s with haloIn := s.haloIn.erase (dev, .agreement gid ttime), asks := s.asks ++ [(gid, ttime)] } }
  | .switchPacket gid ttime => some ⟨State.fwUp, fun s => switched (s.heard (.switch gid ttime)) gid ttime fun s _ => s.ptime⟩
  | .agreementTimeout gid ttime => some
      { ok := fun s => s.fwUp && decide (ttime + switchWait ≤ s.ptime)
        res := fun s => switched s gid ttime fun _ t => t.since }
  | .stragglerReport gid ttime dev late => some ⟨fun _ => true, fun s =>
      { s with haloIn := s.haloIn.erase (dev, .straggler gid ttime late) }.logStraggler gid ttime dev (some late)⟩
  | _ => none

/-- The pod grid of this zenith with a phase. -/
def zenithOf (s : State) (ctx : Nat) (grid : Dword) : Option Zenith := s.zeniths.find? fun z => z.named ctx grid && z.phase == 0

/-- A Halo message has been heard from its source; what it names is found then. -/
def heardAs (s : State) (src : Nat) (m : HaloMsg) : State := s.heardFrom src m

def podRows : Instr → Option EvRow
  | .podLaunchRecord src ctx r => some
      { ok := fun s => ((heardAs s src (.record ctx r)).recordValid ctx true r).2
        res := fun s =>
          let t := ((heardAs s src (.record ctx r)).recordValid ctx true r).1
          let u := t.jAccept (Grid.fresh ctx r (rcdCLASS r) 0xFC t.did 0) 0
          { u.1 with podHeld := u.1.podHeld ++ [PodHeld.mk src ctx r u.2.lseq false] }.sendHalo src (.accept ctx (r.getD 2 0)) }
  | .accept src ctx grid => some
      { ok := fun s =>
          match zenithOf (heardAs s src (.accept ctx grid)) ctx grid with
          | some z => !z.accepted.contains src && z.members.any fun m => m.1 == src
          | none => false
        res := fun s =>
          let t := heardAs s src (.accept ctx grid)
          match zenithOf t ctx grid with
          | some z =>
            let z' : Zenith := { z with accepted := z.accepted ++ [src] }
            let u := { t with zeniths := t.zeniths.map fun x => if x == z then z' else x }
            if z'.accepted.length = z'.members.length then u.zenithGo z' else u
          | none => t }
  | .reject src ctx grid => some
      { ok := fun s => (zenithOf (heardAs s src (.reject ctx grid)) ctx grid).isSome
        res := fun s =>
          let t := heardAs s src (.reject ctx grid)
          match zenithOf t ctx grid with | some z => t.zenithReject z | none => t }
  | .go src ctx grid => some
      { ok := fun s => (heardAs s src (.go ctx grid)).podHeld.any fun h => h.named src ctx grid
        res := fun s =>
          let t := heardAs s src (.go ctx grid)
          match t.podHeld.find? fun h => h.named src ctx grid with | some h => t.podEnter h | none => t }
  | .drop src ctx grid => some ⟨fun _ => true, fun s =>
      let t := heardAs s src (.drop ctx grid)
      { t with podHeld := t.podHeld.filter fun h => !h.named src ctx grid }⟩
  | .zenithReplyTimeout ctx grid => some
      { ok := fun s => match zenithOf s ctx grid with | some z => decide (z.since + replyWait ≤ s.ptime) | none => false
        res := fun s => match zenithOf s ctx grid with | some z => s.zenithReject z | none => s }
  | .completionReport src ctx grid r => some
      { ok := fun s => (heardAs s src (.report ctx grid r)).zeniths.any fun z => z.named ctx grid && z.waitsFor src
        res := fun s =>
          let t := heardAs s src (.report ctx grid r)
          match t.zeniths.find? fun z => z.named ctx grid && z.waitsFor src with | some z => t.zenithReport z src r | none => t }
  | .haloCancel src ctx grid term => some ⟨fun _ => true, fun s =>
      let t := heardAs s src (.cancel ctx grid term)
      if src != t.did && t.zeniths.any (fun z => z.named ctx grid) then t.cancelZenith ctx grid term
      else t.cancelPart src ctx grid term⟩
  | .cancelMemberTimeout ctx grid dev => some
      { ok := fun s =>
          match s.zeniths.find? fun z => z.named ctx grid && z.waitsFor dev with
          | some z => z.cancelled && decide (z.cancelAt + cancelWait ≤ s.ptime)
          | none => false
        res := fun s =>
          match s.zeniths.find? fun z => z.named ctx grid && z.waitsFor dev with
          | some z => (s.logErr 5 ctx (s.ctxPart ctx) dev 0 0 0 0).zenithReport z dev noReport
          | none => s }
  | .haloMessageReceive src v good msg => some
      { ok := fun s => good && (v % 2 ^ 24 + 2 ^ 24 - s.haloNext src) % 2 ^ 24 == 0
        res := fun s =>
          let t := { s with haloE := aput s.haloE src ((s.haloNext src + 1) % 2 ^ 24) }.haloTake src msg
          t.haloRun src t.haloHeld.length }
  | .haloRetransmit dst v => some
      { ok := fun s =>
          match s.haloOut.find? fun h => h.dst == dst && h.v == v && !h.waiting with
          | some h => decide (h.last + resendWait ≤ s.ptime ∧ h.tries < resendMax)
          | none => false
        res := fun s =>
          match s.haloOut.find? fun h => h.dst == dst && h.v == v && !h.waiting with
          | some h => { s with
              haloOut := s.haloOut.map fun x => if x == h then { h with last := s.ptime, tries := h.tries + 1 } else x
              outbox := s.outbox ++ [.halo dst (v % 8) v h.msg, .halo dst (v % 8 + 8) v h.msg] }
          | none => s }
  | .haloAcknowledgement src v => some
      { ok := fun s => s.haloOut.any fun h => h.dst == src && h.v == v && !h.waiting
        res := fun s =>
          match s.haloOut.find? fun h => h.dst == src && h.v == v && !h.waiting with
          | some h => { s with haloOut := s.haloOut.erase h }.haloNextOut src
          | none => s }
  | _ => none

/-! ### The outside world (R8, R78, R399, R467 to R471) -/

/-- What the host reads through BAR4. -/
def bar4Words (s : State) (off n : Nat) : List MWord :=
  (List.range n).map fun i => if off + 4 * i < bar4Bytes then s.bar4.word (off + 4 * i) else ⟨0, false⟩

/-- The words that an access of the host takes. -/
def hostSpan : HostOp → Nat
  | .read n => n
  | .write ws => ws.length

def outsideRows : Instr → Option EvRow
  | .ptpEventMessage m => some ⟨fun s => s.mayHalo m.src, fun s => (s.correct m.offset).setClock m.eb m.lock⟩
  | .ppsInputPulse n => some
      { ok := fun s => s.regF rTSRC 62 1 == 1
        res := fun s => (s.correct ((n * 1000000000 : Nat) - (s.ptime : Int))).setClock (Config.choice s.tick 472) true }
  | .timeInputLoss pps => some
      { ok := fun s => s.regF rTSRC (if pps then 62 else 61) 1 == 1
        res := fun s =>
          let eb := s.regF rPTERR 0 32 + Config.choice s.tick 471
          s.setClock eb (s.regF rPTERR 63 1 == 1 && eb ≤ 1000) }
  | .hostSnoop line => some
      { ok := fun _ => true
        res := fun s =>
          let l : Loc := .host ((line - hostLine) * lineBytes)
          let cs := s.smCopies.filter fun c => c.loc == l
          let ds := (s.holders line).filter fun d => d.cache != hostCache
          let t := cs.foldl (fun s c => (s.writeBack c).dropCopy c.clu c.loc) s
          { t.dirDrop (fun d => d.line == line && d.cache != hostCache) with
            outbox := t.outbox ++ [.snoop line (!ds.isEmpty || !cs.isEmpty)
              (if (ds.any fun d => d.st == .m || d.st == .o) || cs.any fun c => !c.dirty.isEmpty then
                (List.range (lineBytes / 4)).map fun i => t.getW (l.add (4 * i))
              else [])] } }
  | .hostMemoryAccess pa op => some
      { ok := fun s => s.memOffered && s.stage != 15 && decide (pa + 4 * hostSpan op ≤ deviceBytes) && pa % 4 == 0
        res := fun s =>
          match op with
          | .read n => { (s.hostMemRead pa n).1 with outbox := (s.hostMemRead pa n).1.outbox ++ [.host (s.hostMemRead pa n).2] }
          | .write ws => s.hostMemWrite pa ws }
  | .hostBarAccess bar off op => some
      { ok := fun s => s.hostUp && off % 4 == 0 && (bar == 4 || (barPa bar off).isSome)
        res := fun s =>
          if bar = 4 then
            match op with
            | .read n => { s with outbox := s.outbox ++ [.host (bar4Words s off n)] }
            | .write ws => { s with bar4 := (ws.zipIdx).foldl (fun (m : Mem) (x : MWord × Nat) =>
                if off + 4 * x.2 < bar4Bytes then m.setWord (off + 4 * x.2) 15 x.1 else m) s.bar4 }
          else
            match barPa bar off, op with
            | some pa, .read n => { (s.hostReads pa n).1 with outbox := (s.hostReads pa n).1.outbox ++ [.host (s.hostReads pa n).2] }
            | some pa, .write ws => s.hostWrite pa ws
            | none, _ => s }
  | _ => none

/-! ### Coherence (R394 to R401) -/

/-- Both halves of a unit may merge: quiet for 2^20 cycles, and with equal summaries (R397). -/
def mergeable (s : State) (base size : Nat) : Bool :=
  let quiet (b : Nat) : Bool := s.dirUnits.any fun u => u.1 == b && u.2.1 == size && u.2.2 + mergeCycles ≤ s.clock
  size != 0 && decide (2 * size ≤ regionSize) && base % (2 * size) == 0 && quiet base && quiet (base + size)
    && sameSummary (s.unitEnts base size) (s.unitEnts (base + size) size)

def coherenceRows : Instr → Option EvRow
  | .coherenceRequest cache line req => some ⟨fun _ => true, fun s => s.cohRequest cache line req⟩
  | .evictionNotice cache line dirty => some
      { ok := fun s => (s.holders line).any fun d => d.cache == cache && (!dirty || d.st == .m || d.st == .o)
        res := fun s =>
          let t := s.dirDrop fun d => d.line == line && d.cache == cache
          if dirty then t.lineClean (.mem (line * lineBytes)) else t }
  | .homeProbe cache line inval => some ⟨fun _ => true, fun s =>
      if inval then
        let t := s.dirDrop fun d => d.line == line && d.cache == cache
        if (s.holders line).any fun d => d.cache == cache && (d.st == .m || d.st == .o) then t.lineClean (.mem (line * lineBytes)) else t
      else { s with dir := s.dir.map fun d => if d.line == line && d.cache == cache then { d with st := sharedState d.st } else d }⟩
  | .directoryRecall r => some ⟨fun _ => true, fun s =>
      { s.dirDrop fun d => d.line * lineBytes / regionSize == r && d.line < hostLine with
        oldLines := s.oldLines.filter fun o => o.loc.off / regionSize != r }⟩
  | .regionMerge base size => some
      { ok := fun s => mergeable s base size
        res := fun s =>
          let rest := s.dirUnits.filter fun u => u.1 != base && u.1 != base + size
          { s with dirUnits := if 2 * size = regionSize then rest else rest ++ [(base, 2 * size, s.clock)] } }
  | .dieReset die => some
      { ok := fun _ => decide (die < 4)
        res := fun s =>
          if !s.resetting.contains die then { s with resetting := s.resetting ++ [die] } else
          let s := { s with resetting := s.resetting.erase die }
          let homed (l : Loc) : Bool := match l with | .mem pa => homedOn die pa | _ => false
          let gone (c : SmCopy) : Bool := c.clu == die || homed c.loc
          let s := s.flushCores fun k => k / 128 == die
          let s := { s with oldLines := s.oldLines.filter fun o => !homed o.loc }
          let t := (s.smCopies.filter gone).foldl (fun s c => (s.writeBack c).dropCopy c.clu c.loc) s
          let t := t.dirDrop fun d => d.cache != hostCache && cacheDie d.cache == die || homedOn die (d.line * lineBytes)
          { t.tlbDrop (some die) (fun _ => true) with icache := t.icache.filter fun l => l.core / 128 != die } }
  | _ => none

/-! ### Register writes and reads (R382 to R386, R391, R403, R408, R410, R413, R415, R448, R450, R455, R459, R471) -/

def registerRows : Instr → Option EvRow
  | .shadowSample who v => some ⟨fun _ => true, fun s => { s.setReg rSHSTAT 0 with shPend := some (v &&& 0x00FFFFFFFFFFFFF8, who, s.regF rSHCTL 0 12) }⟩
  | .shadowSampleDone => some
      { ok := fun s => s.shPend.isSome
        res := fun s =>
          match s.shPend with
          | none => s
          | some (a, who, c) =>
            let t := { s with shPend := none }
            if !t.maySample who c then t.shFail 0x02
            else
              match t.translate (t.whoCtx c) .read a with
              | (u, .error e) => u.shFail e.toNat
              | (u, .ok p) =>
                let u := ((u.touchRetired p.loc).checkImage p.loc).checkImage (p.loc.add 4)
                let lo := u.getW p.loc
                let hi := u.getW (p.loc.add 4)
                (u.setReg rSHSTAT (mk64 [(63, 1), (61, b2n hi.mark), (60, b2n lo.mark)])).setReg rSHDATA (join32 lo.data hi.data) }
  | .fqBufferPost => some
      { ok := fun s => !s.fqBuf.isEmpty && !s.fqFull
        res := fun s => match s.fqBuf with | e :: r => { s.fqWrite e with fqBuf := r } | [] => s }
  | .fqheadWrite who v => some ⟨fun _ => true, fun s => s.regWrite who rFQHEAD v⟩
  | .crtabWrite who v => some ⟨fun s => s.isMgr who, fun s => { s.regPut rCRTAB v with crCache := [] }⟩
  | .factbWrite _ v => some ⟨fun _ => true, fun s => { s.regPut rFACTB v with facCache := (s.regPut rFACTB v).factable }⟩
  | .cstoreWrite who k v => some ⟨fun _ => decide (k < 512), fun s => s.writeCStore who k v⟩
  | .cresvWrite who k v => some ⟨fun _ => decide (k < 512), fun s => s.writeCResv who k v⟩
  | .devicePartitionWrite who i v => some ⟨fun _ => decide (i < 32), fun s => s.writePart who (8 + i) v⟩
  | .lqcfgWrite who q v => some ⟨fun _ => decide (q < 64), fun s => s.writeLqcfg who q v⟩
  | .journalControlWrite _ i v => some ⟨fun _ => i == 0 || i == 2 || i == 3, fun s => s.writeJournal (0x50 + i) v⟩
  | .errorLogControlWrite _ i v => some ⟨fun _ => i == 0 || i == 2, fun s => s.writeErrLog (0x54 + i) v⟩
  | .overflowConfigWrite _ i v => some
      { ok := fun s => decide (i < 2) && s.ovf.isEmpty
        res := fun s => { s.regPut (.device (0x32 + i)) v with ovfHead := 0 } }
  | .tsrcWrite _ v => some
      { ok := fun _ => decide (fld v 48 8 ≤ 127) && (fld v 63 1 == 0 || fld v 62 1 == 1)
        res := fun s => s.regPut rTSRC v }
  | .profileConfigWrite who k i v => some
      { ok := fun _ => decide (k < 512) && (i == 0 || i == 1 || i == 3)
        res := fun s => s.regWrite who (.core k (0x28 + i)) v }
  | .registerWrite who r v => some ⟨fun _ => regExists r && !regReadOnly r, fun s => s.regWrite who r v⟩
  | .rcRegisterRead who r => some
      { ok := fun _ => regExists r
        res := fun s =>
          let t := if regRC r = 0 then s else s.setReg r (s.reg r &&& ~~~(regRC r))
          let v := s.regValue who r
          match who with
          | .host => { t with outbox := t.outbox ++ [.host [⟨loW v, false⟩, ⟨hiW v, false⟩]] }
          | _ => t }
  | _ => none

/-! ### Reset, bring-up, firmware and errors (R7, R446, R458, R467 to R475) -/

/-- The clock governor's window (R475). -/
def inWindow (mhz : Nat) : Bool := decide (704 ≤ mhz ∧ mhz ≤ 896)

/-- A channel is retired that fails in service once both spares are bound, and whose position is not retired (R474). -/
def retirable (s : State) (k ch : Nat) : Bool :=
  decide (k < 8 ∧ ch < 130) && s.regF (rCHSPR k) 16 1 == 1 && (s.chan k).inService ch && (aget (s.chan k).retired ((s.chan k).position ch)).isNone

def deviceRows : Instr → Option EvRow
  | .powerOnReset => some ⟨fun _ => true, fun s =>
      { (s.containAll 0x59 fun _ => true).afterReset.setRegF rBRSTAT 60 4 1 with hostUp := true }⟩
  | .firmwareStageDone => some ⟨fun s => s.stage == 1 && s.hostUp, fun s => { s.leaveStage 1 true with fwUp := true }⟩
  | .warmingDone cold => some ⟨fun s => s.fwUp, fun s =>
      (s.setRegF rBRSTAT 40 8 cold.toNat).leaveStage 2 (decide (-20 ≤ cold.toInt))⟩
  | .memoryTrainingDone => some ⟨fun s => s.fwUp && s.stage == 3, fun s => { s.leaveStage 3 true with memOffered := true }⟩
  | .linksDone => some ⟨fun s => s.fwUp, fun s => s.leaveStage 4 (s.regF rPTERR 63 1 == 1 || !s.inPod)⟩
  | .channelRetrain k ch => some
      { ok := fun s => decide (k < 8 ∧ ch < 130) && s.fwUp && s.regF (rCHSPR k) 0 8 == 0xFF && s.regF (rCHSPR k) 16 1 == 0 && (s.chan k).inService ch
        res := fun s => s.setRegF (rCHSPR k) 0 8 ch }
  | .channelRetrainingDone k passed => some
      { ok := fun s => decide (k < 8) && s.regF (rCHSPR k) 0 8 != 0xFF && s.fwUp
        res := fun s =>
          let t := s.setRegF (rCHSPR k) 0 8 0xFF
          if passed then t.bump (rCHSPR k) 24 8 else t.bindSpare k (s.regF (rCHSPR k) 0 8) }
  | .channelRetire k ch => some
      { ok := fun s => retirable s k ch
        res := fun s =>
          let c := s.chan k
          let t := { s with chans := aput s.chans k { c with retired := aput c.retired (c.position ch) () } }
          let t := (t.setRegF (rCHSPR k) 48 8 (t.regF (rCHSPR k) 48 8 + 1)).setRegF (rCHSPR k) 40 8 ch
          t.logErr 6 0xFFF 0 t.did 0x1F 0 (mk64 [(0, k), (8, ch)]) 0 }
  | .marginStretch k => some ⟨fun _ => decide (k < 512), fun s => { s with stretches := s.stretches + 1 }⟩
  | .governorAdjust mhz mv => some ⟨fun s => s.fwUp && inWindow mhz, fun s => { s with mhz := mhz, mv := mv }⟩
  | .emergencyStop => some ⟨fun _ => true, fun s => (s.containAll 0x5F fun _ => true).endBodies.setRegF rBRSTAT 60 4 15⟩
  | .errorDomainClose p => some
      { ok := fun s => decide (p < 8) && (s.domainError p).isSome
        res := fun s =>
          let (c, a) := (s.domainError p).getD default
          let u := { s with strikes := s.strikes.erase (.control p c a) }.logErr 1 0xFFF p s.did c.toNat a 0 0
          let t := (u.setRegF (rDPSTAT p) 1 1 1).logErr 3 0xFFF p u.did 0x58 a 0 0
          t.containAll 0x58 fun st => t.ctxPart st.ctx == p }
  | .firmwareReload => some ⟨fun s => s.hostUp, fun s => { s with fwUp := true }⟩
  | .firmwareFault => some ⟨fun _ => true, fun s => { s.report 0xFFF s.did 0x5E 0 with fwUp := false }⟩
  | .debugRightRevocation ctx => some
      { ok := fun s => s.revoked.contains ctx
        res := fun s =>
          let t := (s.haltedOf ctx).foldl (fun (s : State) sid =>
            (s.letGo sid).dbgPost 3 ctx 0 ((s.letGo sid).strand sid).nextPc ((s.letGo sid).strand sid).base)
            { s with revoked := s.revoked.erase ctx }
          let u := t.note ctx 1 (BitVec.ofNat 64 (s.haltedOf ctx).length)
          u.report ctx t.did 0x5A 0 }
  | _ => none

/-! ### What the statements say -/

/-- Every form of the opcode table that has an encoding of its own, with what it asks of its issue. -/
def formRows (i : Instr) : Option Row :=
  (controlRows i).or ((maskRows i).or ((aluRows i).or ((predRows i).or ((stringRows i).or ((matrixRows i).or ((loadRows i).or
    ((storeRows i).or ((tileRowsOf i).or ((atomRows i).or ((syncRows i).or ((regionRows i).or ((engineRows i).or
      ((launchRows i).or (systemRows i))))))))))))))

/-- A word of a strand's register image, as a read gives it. -/
def regWord (s : State) (sid i : Nat) : MWord := (s.strand sid).readWord s.tick i

/-- Word n of a result is in a word of the image: the result's word without a mark, or a token with the result's cause. -/
def lands (t : State) (sid i n : Nat) : ReplyVal → Prop
  | .words ws => regWord t sid i = ⟨ws.getD n 0, false⟩
  | .tok w => regWord t sid i = ⟨w, true⟩
  | .bad c _ _ => ∃ w, tokCause w = c ∧ regWord t sid i = ⟨w, true⟩

/-- The strand is no routine's body. -/
def ordinary (s : State) (sid : Nat) : Prop := (s.strand sid).clasp = none

/-- The fragment can go on: its next unit is one that a PC names (R197, R198). -/
def goesOn (cx : Cx) : Prop := pcInvalid (pcPlus cx.frag.pc 1) = false

/-- The state in which an effect acts: the sources have been read, and last uses are dead (R81). -/
def atEffect (r : Row) (s : State) (cx : Cx) : State := s.used cx r.h (r.uses s)

/-- The results of a form as the vector datapaths give them: an error of theirs that they cannot correct makes poison with cause 0x2F
of the results of the lanes that it strikes (R153, R446). -/
def struck (s : State) (cx : Cx) (rs : List (Nat × ReplyVal)) : List (Nat × ReplyVal) :=
  (s.strand cx.sid).vecErr.foldl (fun rs e =>
    if e.2 then rs else rs.map fun r => if isWords r.2 && e.1.getLsbD r.1 then (r.1, .bad 0x2F 0x01 0) else r) rs

/-- A word that the register uses of a form may change for some lanes: of a register written, or of a last use. -/
def usesWord (st : Strand) (m : Lanes) (us : List Use) (i : Nat) : Prop :=
  ∃ u ∈ us, (u.write || u.last) = true ∧ i ∈ u.words st m

/-- A word of a doubleword of the control area. -/
def ctlPart (st : Strand) (off i : Nat) : Prop := i = st.ctlIx off ∨ i = st.ctlIx off + 1

/-- A word of the fault records. -/
def recWord (st : Strand) (i : Nat) : Prop := st.recIx 0 ≤ i ∧ i < st.recIx 256

/-- Nothing of the device differs but the strand's register words with what is noted of them, its split table and its place in the ring
of fault records, and the counters of unconsumed poison of its core. -/
structure OnlyStrand (s t : State) (sid : Nat) : Prop where
  rest : t = { s with strands := t.strands, regs := t.regs }
  others : ∀ o, o ≠ sid → aget t.strands o = aget s.strands o
  counters : ∀ k, (∀ n, n < 4 → k ≠ regKey (rUPCNT (s.coreOf sid) n)) → aget t.regs k = aget s.regs k
  own : t.strand sid = { s.strand sid with
    img := (t.strand sid).img, pend := (t.strand sid).pend, flips := (t.strand sid).flips, clean := (t.strand sid).clean,
    deadBits := (t.strand sid).deadBits, splits := (t.strand sid).splits, ring := (t.strand sid).ring, gen := (t.strand sid).gen }

/-- Where a form is ready it completes, nothing but the strand differs, and of the strand's words only those that its uses
write or kill for the lanes `m`, fault records, $event where it is read and $deadline where it is the destination. The vector
datapaths make no error. -/
def KeepsRest (i : Instr) (r : Row) (m : Cx → Lanes) (event deadline : Bool) : Prop :=
  ∀ s cx, r.Ready i s cx → ordinary s cx.sid → goesOn cx → (s.strand cx.sid).vecErr = [] →
    ∃ t, exec i s = .next t ∧ OnlyStrand s t cx.sid
      ∧ ∀ w, ¬ usesWord (s.strand cx.sid) (m cx) (r.uses s) w → ¬ recWord (s.strand cx.sid) w
        → (event = true → ¬ ctlPart (s.strand cx.sid) ctlEVENT w) → (deadline = true → ¬ ctlPart (s.strand cx.sid) ctlDLINE w)
        → regWord t cx.sid w = regWord s cx.sid w

/-- The body of a form of `stringRows`. -/
def stringBody : Instr → Option (Hdr × AluBody)
  | .cvt h b => some (h, b)
  | .cvtp h b => some (h, b)
  | .t5up h b => some (h, b)
  | .pack h b => some (h, b)
  | .unpack h b => some (h, b)
  | .qnt h b => some (h, b)
  | .qnts h b => some (h, b)
  | .dqnt h b => some (h, b)
  | .latq h b => some (h, b)
  | _ => none

/-- Every memory of the device is as it was: device, host and other devices' memory, the mailbox, every core's scratchpad. -/
structure MemoryKept (s t : State) : Prop where
  device : t.mem = s.mem
  host : t.host = s.host
  remote : t.remote = s.remote
  mailbox : t.bar4 = s.bar4
  spads : t.spads = s.spads

/-- Nothing is written beside what the form writes: the profiler and the barrier checker of the strand's core are off (R459, R462), no
word of a scratchpad is in error (R162), no register word has wrong parity (R87), and no cluster's copy of a software-managed line is
dirty, which it would write back where it gives the line up (R394). -/
def unprofiled (s : State) (sid : Nat) : Prop :=
  s.regF (rPRFCFG (s.coreOf sid)) 62 2 = 0 ∧ s.spadErr = [] ∧ (∀ o, (s.strand o).flips = []) ∧ ∀ c ∈ s.smCopies, c.dirty = []

/-- The forms that store nothing when they issue: all but stores, exits, traps, commits, cancellations and group 0xD. -/
def quietRows : Instr → Option Row
  | .exit _ _ => none
  | .trap _ _ => none
  | .bkpt _ _ => none
  | .commit _ _ => none
  | .commitPark _ _ => none
  | .commitR _ _ => none
  | .commitRPark _ _ => none
  | .cancel _ _ => none
  | .cancelTerm _ _ => none
  | .lrec _ _ => none
  | i => (controlRows i).or ((maskRows i).or ((aluRows i).or ((predRows i).or ((stringRows i).or ((matrixRows i).or
      ((loadRows i).or ((tileRowsOf i).or ((atomRows i).or ((syncRows i).or ((regionRows i).or ((engineRows i).or
        (launchRows i))))))))))))

/-- The lanes of the registers that a form may write: of the active lanes, but for strings and matrices, which spread over
lanes. -/
def reachedLanes (i : Instr) (cx : Cx) : Lanes :=
  if (stringRows i).isSome || (matrixRows i).isSome then BitVec.allOnes 128 else cx.act

/-! ### Stores -/

/-- A lane's address and data, where no source of it is poisoned and the address is aligned as the form asks. -/
def StoreForm.lane (a : StoreForm) (cx : Cx) (l : Nat) : Option (Dword × List Dword) :=
  match cx.src.ea cx.sid l a.b false, a.data cx l with
  | .ok ad, .ok vs => (match a.addr ad with | .ok x => some (x, vs) | .error _ => none)
  | _, _ => none

/-- The state in which the stores of a form begin: a release shows the fragment's earlier stores first (R170). -/
def StoreForm.start (f : StoreForm) (s : State) (cx : Cx) : State :=
  let u := atEffect f.row s cx
  if isRel f.b then u.showLanes cx.sid cx.act else u

/-- Where a store to an address goes. -/
def storePlace (s : State) (cx : Cx) (a : Dword) : Option Loc :=
  match (s.translate (s.whoOf cx.sid) .write a).2 with
  | .ok p => some p.loc
  | .error _ => none

/-- Where the parts of a lane's store go, each in the state that the parts before it leave; `first`: it is the lane's first (R461). -/
def partPlaces (cx : Cx) (b : MemBody) (l size : Nat) (first : Bool) : State → Dword → List Dword → List Loc
  | _, _, [] => []
  | s, a, v :: vs => (storePlace s cx a).toList ++ partPlaces cx b l size false (s.storeOne cx b l size a v first).1 (a + 8) vs

/-- Where the stores of a form go, lane by lane, each in the state that the lanes before it leave. -/
def StoreForm.places (f : StoreForm) (cx : Cx) : List Nat → State → List Loc
  | [], _ => []
  | l :: ls, s =>
    match f.lane cx l with
    | none => f.places cx ls s
    | some (a, vs) =>
      partPlaces cx f.b l f.size true (if vs.length = 1 then s else (s.partFault cx.sid a vs.length).1) a vs
        ++ f.places cx ls (s.storeParts cx f.b l f.size a vs).1

/-- The cluster of a strand's core. -/
def cluOf (s : State) (sid : Nat) : Nat := s.coreOf sid / 128

/-- A cluster's copies of software-managed lines keep the bytes that no store reaches, and copies of other clusters do not change. -/
def copiesKept (s t : State) (clu : Nat) (hit : Loc → Prop) : Prop :=
  (∀ k l, k ≠ clu → t.smCopy k l = s.smCopy k l)
    ∧ ∀ l c, s.smCopy clu l = some c → ∃ d, t.smCopy clu l = some d
        ∧ ∀ o, o < lineBytes → ¬ hit ((l.align lineBytes).add o) → Mem.byte ⟨d.bytes, d.marks⟩ o = Mem.byte ⟨c.bytes, c.marks⟩ o

/-- One of the stored bytes. -/
def stored (ps : List Loc) (size : Nat) (l : Loc) : Prop := ∃ p ∈ ps, ∃ k, k < size ∧ p.add k = l

/-- Bytes and marks that no store reaches are as they were; `at_` makes a location of an address of this memory. -/
def untouched (ps : List Loc) (size : Nat) (at_ : Nat → Loc) (m n : Mem) : Prop :=
  ∀ a, (¬ stored ps size (at_ a) → n.byte a = m.byte a)
    ∧ ((∀ j, j < 4 → ¬ stored ps size (at_ (4 * a + j))) → n.marked (4 * a) = m.marked (4 * a))

/-! ### Traps -/

/-- The instruction's words hold no reserved value (R211), BRX's table is aligned to a line (R232), and SRD and SWR name a
register that they may (R382). -/
def admitted (s : State) (i : Instr) : Bool :=
  legal i && match i, s.issuer with
    | .brx _ b, some (_, _, f) => fld (dispPc f.pc b) 0 3 == 0
    | .srd _ b, _ => b.sreg == 0 || (s.sregOf b).isSome
    | .swr _ b, _ => (match s.sregOf b with | some r => !regReadOnly r | none => false)
    | _, _ => true

/-- A fragment issues a form: the image's budget is sound, and for group 0xD the strand is at system level. -/
structure Issues (i : Instr) (s : State) (sid idx : Nat) (f : Frag) : Prop where
  issuer : s.issuer = some (sid, idx, f)
  sound : (s.strand sid).budgetCorrupt = false
  level : (systemRows i).isSome → s.sysLevel sid = true

/-- Its words hold no reserved value, its sources are available (R45), and no register word of the strand has wrong parity (R87). -/
structure Reads (i : Instr) (r : Row) (s : State) (sid idx : Nat) (f : Frag) : Prop extends Issues i s sid idx f where
  allowed : admitted s i = true
  available : (s.strand sid).available r.h (r.uses s) f.mask = true
  whole : (s.strand sid).flips = []

/-- The lanes that pass the guard, and those that a poisoned guard word holds. -/
def passing (r : Row) (s : State) (sid : Nat) (f : Frag) : Lanes × List (Nat × Word) := (s.strand sid).guard s.tick r.h f.mask

/-- What a form's issue is about, with the lanes that pass the guard. -/
def issueCx (r : Row) (s : State) (sid idx : Nat) (f : Frag) : Cx := ⟨sid, idx, f, (passing r s sid f).1, s⟩

/-- The tokens of poisoned predicate sources, and the lanes that they leave active. -/
def poisonedPreds (r : Row) (s : State) (sid : Nat) (f : Frag) : List (Nat × Word) :=
  (predSources (r.uses s)).flatMap fun u => ((s.strand sid).readPred s.tick u.n u.quarters (passing r s sid f).1).2
def leftLanes (r : Row) (s : State) (sid : Nat) (f : Frag) : Lanes :=
  (passing r s sid f).1 &&& ~~~(maskOf ((poisonedPreds r s sid f).map (·.1)))

/-- The state once the predicate words read are noted as consumed. -/
def predsRead (r : Row) (s : State) (sid : Nat) (f : Frag) : State :=
  s.eatPreds sid r.h (r.uses s) f.mask (passing r s sid f).1

end Sys2Proof.Claims

/-! ## Every instruction completes, and what it leaves -/

open Sys2Proof Sys2Proof.Machine Sys2Proof.Claims

/-- Group 0x0 (R230 to R251): each control form completes where its transfer's checks pass, and leaves what its row says. -/
def Obligations.ControlFormsComplete : Prop := Completes controlRows

/-- Groups 0x1 to 0x6, forms that write whole registers (R252 to R293): each completes for every operand, a poisoned result
that goes to $deadline apart (R256), and leaves its results in its destination. -/
def Obligations.RegisterFormsComplete : Prop := Completes aluRows

/-- MGET and P2S, and the forms that write predicates (R255, R259, R266, R269, R270). -/
def Obligations.PredicateFormsComplete : Prop := Completes fun i => (maskRows i).or (predRows i)

/-- Forms that move strings of elements (R285 to R297). -/
def Obligations.StringFormsComplete : Prop := Completes stringRows

/-- Group 0x7 (R299 to R325): a form completes where no tile that it names has the reserved mode. -/
def Obligations.MatrixFormsComplete : Prop := Completes matrixRows

/-- Loads, PREF.D and PROBE (R331 to R334). -/
def Obligations.LoadFormsComplete : Prop := Completes loadRows

/-- Stores and cache maintenance (R335, R336): a form completes where no lane of it is trapped. -/
def Obligations.StoreFormsComplete : Prop := Completes storeRows

/-- Tiles (R337 to R340). -/
def Obligations.TileFormsComplete : Prop := Completes tileRowsOf

/-- Group 0xA (R341 to R343): a form's packets leave for their homes where the homes' queues have room. -/
def Obligations.AtomicFormsComplete : Prop := Completes atomRows

/-- Group 0xB (R344 to R349). -/
def Obligations.SyncFormsComplete : Prop := Completes syncRows

/-- Regions (R350, R351). -/
def Obligations.RegionFormsComplete : Prop := Completes regionRows

/-- Engine commands (R352 to R356). -/
def Obligations.EngineFormsComplete : Prop := Completes engineRows

/-- Launches, joins and cancellations by a strand (R360 to R364). -/
def Obligations.LaunchFormsComplete : Prop := Completes launchRows

/-- Group 0xD at system level (R380 to R384, R390, R392, R400, R437). What TTLOAD does for a count outside 1 to 64, and that it waits
for the firmware (assumption 69), and what assumptions 64, 68 and 70 say of the others, are the model's choices. -/
def Obligations.SystemFormsComplete : Prop := Completes systemRows

/-- A hint goes on and an illegal instruction takes the control trap 0x40 on every lane of the fragment (R213, R214). -/
def Obligations.RawFormsTakePlace : Prop := TakesPlace rawRows

/-- The routines at the homes (R185 to R188, R479). -/
def Obligations.RoutinesTakePlace : Prop := TakesPlace routineRows

/-- Packets and replies over the fabric (R189). -/
def Obligations.FabricEventsTakePlace : Prop := TakesPlace fabricRows

/-- Events of cores, engines, tiles, caches and queues. -/
def Obligations.UnitEventsTakePlace : Prop := TakesPlace unitRows

/-- The dispatchers (R406 to R424). -/
def Obligations.DispatchEventsTakePlace : Prop := TakesPlace dispatchRows

/-- Time-triggered actions, gangs and agreement (R436 to R442). -/
def Obligations.TimedEventsTakePlace : Prop := TakesPlace timedRows

/-- Pod grids and Halo (R425 to R428, R443, R466). -/
def Obligations.PodEventsTakePlace : Prop := TakesPlace podRows

/-- The host, time inputs and other devices (R8, R78, R399, R467 to R471). -/
def Obligations.OutsideEventsTakePlace : Prop := TakesPlace outsideRows

/-- The directory and its caches (R394 to R401). -/
def Obligations.CoherenceEventsTakePlace : Prop := TakesPlace coherenceRows

/-- Writes and reads of registers from outside (R382 to R386, R455). -/
def Obligations.RegisterEventsTakePlace : Prop := TakesPlace registerRows

/-- Reset, bring-up, firmware and errors (R7, R446, R458, R467 to R475). -/
def Obligations.DeviceEventsTakePlace : Prop := TakesPlace deviceRows

/-! ## Results and frames -/

/-- Groups 0x1 to 0x6: where a form is ready it completes with the result of every active lane in its destination, poison
as a token with its cause (R128, R130, R253), an error of the vector datapaths among it (R153); in SS and SI the one result goes to the
scalar, or to $deadline (R203, R256). -/
def Obligations.RegisterResults : Prop :=
  ∀ i a, aluForms i = some a → ∀ s cx, a.row.Ready i s cx → ordinary s cx.sid → goesOn cx →
    ∃ t, exec i s = .next t ∧
      let rs := cx.results a.h a.b a.r a.f
      if isScalar a.h then
        if a.h.dest = specDEADLINE then
          ∀ ws, (rs.headD (0, .words [])).2 = .words ws → (t.strand cx.sid).ctl ctlDLINE = join32 (ws.getD 0 0) (ws.getD 1 0)
        else ∀ k, k < 2 → lands t cx.sid ((s.strand cx.sid).scIx a.h.dest.toNat + k) k (rs.headD (0, .words [])).2
      else
        ∀ x ∈ struck s cx rs, ∀ k, k < (if a.wide then 2 else 1) →
          lands t cx.sid ((s.strand cx.sid).vecIx (a.h.dest.toNat + k) x.1) k x.2

/-- The results of a form that writes a predicate: per lane, or in SS and SI the one result for every active lane (R255). -/
def Sys2Proof.Claims.PredForm.results (a : PredForm) (cx : Cx) : List (Nat × ReplyVal) :=
  let rs := cx.results a.h a.b a.r a.f
  if isScalar a.h then (lanesOf cx.act).map fun l => (l, (rs.headD (0, .words [])).2) else rs

/-- The forms that write a predicate: a word that covers a poisoned result takes a token with the cause of the lowest such
lane; otherwise it is unmarked, each active lane's bit is its result, and the other bits are as they were (R131, R255). That a word
that was marked before ends so is the model's choice (assumption 30). -/
def Obligations.PredicateResults : Prop :=
  ∀ i a, predForms i = some a → ∀ s cx, a.row.Ready i s cx → ordinary s cx.sid → goesOn cx →
    ∃ t, exec i s = .next t ∧
      (a.h.dest.toNat ≠ 15 → ∀ q, q < 4 →
        let mine := (a.results cx).filter fun r => r.1 / 32 == q
        let w := (s.strand cx.sid).predIx a.h.dest.toNat q
        mine ≠ [] →
          match mine.find? fun r => !isWords r.2 with
          | some r => lands t cx.sid w 0 r.2
          | none =>
            (regWord t cx.sid w).mark = false ∧
              ∀ b, b < 32 → (regWord t cx.sid w).data.getLsbD b =
                match mine.find? fun r => r.1 % 32 == b with
                | some r => (match r.2 with | .words ws => ws.getD 0 0 != 0 | _ => false)
                | none => (regWord (atEffect a.row s cx) cx.sid w).data.getLsbD b)

/-- The frame of the register-only forms: nothing of the device changes but the issuing strand, and of its register words
only the destination's for the active lanes, last uses, fault records, $event where it is read, and $deadline where it is
the destination. A string's destination is its whole register. -/
def Obligations.RegisterFrame : Prop :=
  (∀ i a, aluForms i = some a → KeepsRest i a.row Cx.act ((readOps a.b a.r).contains (.spec specEVENT))
      (isScalar a.h && a.h.dest == specDEADLINE))
    ∧ (∀ i a, predForms i = some a → KeepsRest i a.row Cx.act ((readOps a.b a.r).contains (.spec specEVENT)) false)
    ∧ (∀ i r, maskRows i = some r → KeepsRest i r Cx.act false (r.h.dest == specDEADLINE))
    ∧ ∀ i r x, stringRows i = some r → stringBody i = some x → KeepsRest i r (fun _ => BitVec.allOnes 128)
        ([x.2.a, srcBOp x.2.b, x.2.c].contains (.spec specEVENT)) (isScalar x.1 && x.1.dest == specDEADLINE)

/-- Forms that store nothing when they issue leave every memory as it was, every other strand's registers (of a strand that a barrier
wakes while it is Halted or Out, its split table is no register, R61), and of the issuing strand's vector, scalar and predicate
registers all but destinations and last uses. The profiler and the barrier checker, which write records of their own, are off. -/
def Obligations.QuietFrame : Prop :=
  ∀ i r, quietRows i = some r → ∀ s cx, r.Ready i s cx → ordinary s cx.sid → goesOn cx → unprofiled s cx.sid →
    ∃ t, exec i s = .next t ∧ MemoryKept s t
      ∧ (∀ o, o ≠ cx.sid → ∀ w, (s.strand o).inSplitArea w = false → regWord t o w = regWord s o w)
      ∧ ∀ w, w < (s.strand cx.sid).fixed + 192 → ¬ usesWord (s.strand cx.sid) (reachedLanes i cx) (r.uses s) w →
          regWord t cx.sid w = regWord s cx.sid w

/-- The number that bytes of a memory hold, little-endian (R4). -/
def Sys2Proof.Claims.memNum (m : Mem) (a n : Nat) : Nat :=
  (List.range n).foldl (fun v k => v + (m.byte (a + k)).toNat * 256 ^ k) 0

/-- LDS from device memory: the scalar takes the bytes at the address, little-endian, zero-extended or under SX sign-extended
(R4, R331). The address is aligned and translates to hardware-coherent memory that no image covers, its words carry no
marks, no lane has written them without order (R168), and the strand holds no stores. -/
def Obligations.ScalarLoadValue : Prop :=
  ∀ h b r s cx, loadRows (.lds h b) = some r → r.Ready (.lds h b) s cx → ordinary s cx.sid → goesOn cx → unprofiled s cx.sid →
    h.dest ≠ specDEADLINE → ∀ a v pa ord, cx.src.ea cx.sid cx.once b false = .ok a → a.toNat % memSize b = 0 →
      (atEffect r s cx).translate ((atEffect r s cx).whoOf cx.sid) .read a = (v, .ok ⟨.mem pa, ord, false⟩) →
      v.imageAt (pa / 4 * 4) = none → v.imageAt (pa / 4 * 4 + 4) = none → v.retiredLine pa = false →
      v.mem.marked (pa / 4 * 4) = false → v.mem.marked (pa / 4 * 4 + 4) = false → (v.strand cx.sid).locket = [] →
      (∀ g ∈ v.lags, g.loc ≠ .mem (pa / 4 * 4) ∧ g.loc ≠ .mem (pa / 4 * 4 + 4)) →
      ∃ t, exec (.lds h b) s = .next t ∧
        let n := memNum s.mem pa (memSize b)
        let x : Dword := if b.sx && b.size != 3 then dword (signed (8 * memSize b) n) else BitVec.ofNat 64 n
        regWord t cx.sid ((s.strand cx.sid).scIx h.dest.toNat) = ⟨loW x, false⟩
          ∧ regWord t cx.sid ((s.strand cx.sid).scIx h.dest.toNat + 1) = ⟨hiW x, false⟩

/-- STS outside a region (R4, R125, R335). To hardware-coherent device memory: the bytes at the address take the data's, little-endian,
the words stored to lose their marks, and every other byte and mark is as it was. To a software-managed line of it: the same bytes of
the copy of the strand's cluster take them and are dirty there, and memory is as it was (R166, R394). To a device register, 8 bytes:
the register takes the write, and one that is read-only, or that does not exist, keeps its value (R379); the counters of unconsumed
poison, which the form itself may raise (R447), are left out there. -/
def Obligations.ScalarStoreValue : Prop :=
  ∀ h b r s cx, storeRows (.sts h b) = some r → r.Ready (.sts h b) s cx → ordinary s cx.sid → goesOn cx → unprofiled s cx.sid →
    ((atEffect r s cx).strand cx.sid).regionOpen = false →
    ∀ a x v p, cx.src.ea cx.sid cx.once b false = .ok a → a.toNat % memSize b = 0 → cx.datum b cx.once = .ok [x] →
      (atEffect r s cx).translate ((atEffect r s cx).whoOf cx.sid) .write a = (v, .ok p) →
      (∀ pa, p.loc = .mem pa → p.sm = false → v.imageAt (pa / 4 * 4) = none → v.imageAt (pa / 4 * 4 + 4) = none →
        v.retiredLine pa = false →
        ∃ t, exec (.sts h b) s = .next t
          ∧ (∀ j, t.mem.byte j = if pa ≤ j ∧ j < pa + memSize b then x.extractLsb' (8 * (j - pa)) 8 else s.mem.byte j)
          ∧ t.mem.marked (pa / 4 * 4) = false ∧ (b.size = 3 → t.mem.marked (pa / 4 * 4 + 4) = false)
          ∧ ∀ j, j / 4 ≠ pa / 4 → (b.size = 3 → j / 4 ≠ pa / 4 + 1) → t.mem.marked j = s.mem.marked j)
      ∧ (∀ pa, p.loc = .mem pa → p.sm = true → v.imageAt (pa / 4 * 4) = none →
        ∃ t c, exec (.sts h b) s = .next t ∧ t.smCopy (cluOf s cx.sid) p.loc = some c ∧ t.mem = s.mem
          ∧ ∀ k, k < memSize b → Mem.byte ⟨c.bytes, c.marks⟩ (pa % lineBytes + k) = x.extractLsb' (8 * k) 8
              ∧ aget c.dirty (pa % lineBytes + k) = some ())
      ∧ ∀ q, regAt p.loc = some q → b.size = 3 →
        ∃ t, exec (.sts h b) s = .next t
          ∧ (regExists q = true → regReadOnly q = false →
              (∀ n, n < 4 → q ≠ rUPCNT (s.coreOf cx.sid) n) → t.reg q = (v.regWrite (.ctx (s.strand cx.sid).ctx) q x).reg q)
          ∧ ((regExists q && !regReadOnly q) = false → t.reg q = v.reg q)

/-- The frame of the stores outside a region: with the places that the form's own translation gives, lane by lane and part by
part, every byte of every memory of the device and of the host outside the bytes stored is as it was, no other device's memory
changes yet, for what goes there leaves as a request (R189), nor does the mailbox; a cluster's copies of software-managed lines change
in the bytes stored alone (R394); every register of another strand that no store reaches through its image or through a core's register
region, and of the strand's own registers all but last uses. What a store to a device register does is in ScalarStoreValue. -/
def Obligations.StoreFrame : Prop :=
  ∀ i f, storeForms i = some f → ∀ s cx, f.row.Ready i s cx → ordinary s cx.sid → goesOn cx → unprofiled s cx.sid →
    ((atEffect f.row s cx).strand cx.sid).regionOpen = false →
    (∀ p ∈ f.places cx (f.lanes cx) (f.start s cx), regAt p = none) →
    ∃ t, exec i s = .next t ∧
      let ps := f.places cx (f.lanes cx) (f.start s cx)
      untouched ps f.size Loc.mem s.mem t.mem ∧ untouched ps f.size Loc.host s.host t.host ∧ t.remote = s.remote
        ∧ t.bar4 = s.bar4 ∧ copiesKept s t (cluOf s cx.sid) (stored ps f.size)
        ∧ (∀ k, untouched (ps.map s.plainLoc) f.size (fun a => .core k (0x180000 + a)) (s.spad k) (t.spad k))
        ∧ ∀ o w, ¬ (∃ pa, stored ps f.size (.mem pa) ∧ s.imageAt (pa / 4 * 4) = some (o, w)) →
            ¬ (∃ k a, a < 0x180000 ∧ stored ps f.size (.core k a)) →
            (o = cx.sid → w < (s.strand o).fixed + 192 ∧ ¬ usesWord (s.strand o) cx.act (f.row.uses s) w) →
            regWord t o w = regWord s o w

/-- A byte of a store is held in the strand's locket: an entry of its line has it, at the byte's place (R137). -/
def Sys2Proof.Claims.heldByte (st : Strand) (l : Loc) (j : Nat) (v : BitVec 8) : Prop :=
  ∃ e ∈ st.locket, e.poison = false ∧ e.place.loc = l.align lineBytes ∧ aget e.bytes (l.off % lineBytes + j) = some v

/-- The stores while a region is open (R138). Their frame: no memory changes, no other strand's register, no copy in a cache, and of the
strand's own registers only last uses. And STS is held: every byte of its data is in the locket, in an entry of the line that it goes
to, from which COMMIT performs it (R137, R142). -/
def Obligations.StoreHeld : Prop :=
  (∀ i f, storeForms i = some f → ∀ s cx, f.row.Ready i s cx → ordinary s cx.sid → goesOn cx → unprofiled s cx.sid →
    ((atEffect f.row s cx).strand cx.sid).regionOpen = true →
    ∃ t, exec i s = .next t ∧ MemoryKept s t ∧ t.smCopies = s.smCopies
      ∧ (∀ o, o ≠ cx.sid → ∀ w, regWord t o w = regWord s o w)
      ∧ ∀ w, w < (s.strand cx.sid).fixed + 192 → ¬ usesWord (s.strand cx.sid) cx.act (f.row.uses s) w →
          regWord t cx.sid w = regWord s cx.sid w)
    ∧ ∀ h b r s cx, storeRows (.sts h b) = some r → r.Ready (.sts h b) s cx → ordinary s cx.sid → goesOn cx →
        ((atEffect r s cx).strand cx.sid).regionOpen = true →
        ∀ a x v p, cx.src.ea cx.sid cx.once b false = .ok a → a.toNat % memSize b = 0 → cx.datum b cx.once = .ok [x] →
          (atEffect r s cx).translate ((atEffect r s cx).whoOf cx.sid) .write a = (v, .ok p) →
          ∃ t, exec (.sts h b) s = .next t
            ∧ ∀ k, k < memSize b →
                heldByte (t.strand cx.sid) ((p.loc.align 4).add ((a.toNat % 4 + k) / 4 * 4)) ((a.toNat % 4 + k) % 4)
                  (x.extractLsb' (8 * k) 8)

/-- A tile is as MACC.Z leaves it for a fragment: mode none, every element +0, OVF 0, and no earlier MMQ of the fragment on
its way to it. -/
def Sys2Proof.Claims.zeroed (t : State) (cx : Cx) (n : Nat) : Prop :=
  (t.strand cx.sid).accMode n = 0 ∧ (t.strand cx.sid).accOvf n = false
    ∧ (∀ i j, i < 32 → j < 32 → (t.strand cx.sid).getAcc t.tick n i j = .ok 0)
    ∧ ∀ m ∈ t.matQ, m.sid = cx.sid → m.tile = n → m.lanes &&& cx.frag.mask = 0

/-- R319: MACC.Z zeroes its tile, and MACC.Z.ALL every tile of the budget, once for the fragment, after earlier MMQs. -/
def Obligations.TileZeroed : Prop :=
  (∀ h b r s cx, matrixRows (.maccZ h b) = some r → r.Ready (.maccZ h b) s cx → ordinary s cx.sid → goesOn cx →
      ∃ t, exec (.maccZ h b) s = .next t ∧ zeroed t cx h.dest.toNat)
    ∧ ∀ h b r s cx, matrixRows (.maccZAll h b) = some r → r.Ready (.maccZAll h b) s cx → ordinary s cx.sid → goesOn cx →
      ∃ t, exec (.maccZAll h b) s = .next t ∧ ∀ n, n < budgetTiles s → zeroed t cx n

/-- R245: NOP only goes on to the next unit; it is checked under R214 and takes its guard, so that a reserved field holds
every lane of the fragment with 0x41, and the lanes that a poisoned guard word covers are held with its cause. -/
def Obligations.NopChangesNothing : Prop :=
  (∀ h b s cx r, controlRows (.nop h b) = some r → r.Ready (.nop h b) s cx → ordinary s cx.sid → goesOn cx →
      exec (.nop h b) s = .next (s.modStrand cx.sid fun st =>
        st.goto s.clock cx.idx [⟨cx.frag.mask, pcPlus cx.frag.pc 1, none⟩] none))
    ∧ (∀ h b s sid idx f r, controlRows (.nop h b) = some r → Reads (.nop h b) r s sid idx f → ordinary s sid →
        exec (.nop h b) s = .next ((s.eatPreds sid h [] f.mask ((s.strand sid).guard s.tick h f.mask).1).finish sid idx f.pc
          (predHolds ((s.strand sid).guard s.tick h f.mask).2) .next))
    ∧ ∀ h b s sid idx f, Issues (.nop h b) s sid idx f → legal (.nop h b) = false →
        exec (.nop h b) s = .next (s.hold sid idx f.pc (holdAll f.mask 0x41 0))

/-- R246: GETPC writes the PC that its displacement names into the scalar, 0 where that PC is invalid; it makes no transfer
and no fetch: the fragment goes on, and nothing but the strand's registers and split table differs. -/
def Obligations.GetpcValue : Prop :=
  ∀ h b s cx r, controlRows (.getpc h b) = some r → r.Ready (.getpc h b) s cx → ordinary s cx.sid → goesOn cx →
    ∃ t, exec (.getpc h b) s = .next t ∧ OnlyStrand s t cx.sid
      ∧ (t.strand cx.sid).splits =
          ((s.strand cx.sid).goto s.clock cx.idx [⟨cx.frag.mask, pcPlus cx.frag.pc 1, none⟩] none).splits
      ∧ let v := pcOf (unitOf cx.frag.pc + b.w1.toInt)
        let x : Dword := if pcInvalid v then 0 else v
        regWord t cx.sid ((s.strand cx.sid).scIx h.dest.toNat) = ⟨loW x, false⟩
          ∧ regWord t cx.sid ((s.strand cx.sid).scIx h.dest.toNat + 1) = ⟨hiW x, false⟩

/-- Special registers read as R76 says, for every lane of every strand; a form that reads $event leaves it 0 (R77). -/
def Obligations.SpecialRegisters : Prop :=
  (∀ (s : State) sid lane,
      let st := s.strand sid
      let b := s.block st.blk
      let g := s.grid st.gid
      ∀ x ∈ ([(0x00, BitVec.ofNat 64 lane), (0x01, BitVec.ofNat 64 (lane / 32)), (0x02, BitVec.ofNat 64 st.num),
          (0x03, BitVec.ofNat 64 b.num), (0x04, BitVec.ofNat 64 (s.nbhd b.nbhd).num),
          (0x05, mk64 [(0, rcdW g.rcd), (8, rcdH g.rcd), (16, rcdSPB g.rcd)]), (0x0F, mk64 [(32, g.first), (0, g.count)]),
          (0x11, BitVec.ofNat 64 ((st.slot.getD (0, 0)).1 * 2 ^ 20 + s.coreOf sid / 128 * 2 ^ 16 + s.coreOf sid % 128 / 16 * 2 ^ 8
            + s.coreOf sid % 16)), (0x13, st.ctl ctlEVENT &&& 0xFFFFFFFF), (0x06, BitVec.ofNat 64 (rcdN g.rcd)),
          (0x07, g.rcd.getD 2 0), (0x08, BitVec.ofNat 64 s.did), (0x09, BitVec.ofNat 64 s.ptime), (0x0A, st.cycles), (0x0B, st.base), (0x0C, g.rcd.getD 1 0),
          (0x0D, 0xFE00000000000000), (0x0E, 0xFD00000000000000), (0x10, BitVec.ofNat 64 g.cls),
          (0x12, st.ctl ctlDLINE)] : List (BitVec 6 × Dword)),
        s.readOp sid lane true (.spec x.1) = .ok x.2)
    ∧ ∀ i a, aluForms i = some a → (readOps a.b a.r).contains (.spec specEVENT) = true → ∀ s cx, a.row.Ready i s cx →
        ordinary s cx.sid → goesOn cx → ∃ t, exec i s = .next t ∧ (t.strand cx.sid).ctl ctlEVENT = 0

/-- R198: instruction units number the slots; PCs come from units and back; displacements and reconvergence offsets count in
units from the instruction that carries them; slot 4 falls through to slot 0 of the next line; a unit outside 0 to
5 × 2^50 − 1 gives an invalid PC. -/
def Obligations.UnitNumbering : Prop :=
  (∀ pc : Dword, unitOf pc = (fld pc 6 50 * 5 + fld pc 0 3 : Nat))
    ∧ (∀ u : Nat, u < 5 * 2 ^ 50 → pcOf u = BitVec.ofNat 64 (u / 5 * 64 + u % 5))
    ∧ (∀ pc : Dword, pcInvalid pc = false → pcOf (unitOf pc) = pc)
    ∧ (∀ (pc : Dword) (b : CtlBody), dispPc pc b = pcOf (unitOf pc + b.w1.toInt) ∧ auxPc pc b = pcOf (unitOf pc + b.aux.toInt))
    ∧ (∀ pc : Dword, pcInvalid pc = false → fld pc 0 3 = 4 → unitOf pc + 1 < 5 * 2 ^ 50 → pcPlus pc 1 = pc + 60)
    ∧ (∀ (pc : Dword) (d : Int), -2 ^ 31 ≤ d → d < 2 ^ 31 → unitOf pc + d < 0 ∨ 5 * 2 ^ 50 ≤ unitOf pc + d →
        pcInvalid (pcPlus pc d) = true)
    ∧ [pcPlus 0x0000004000001004 7, pcPlus 0x0000004000001004 (-4), pcPlus 0x0000004000001004 (-5)]
      = [0x0000004000001081, 0x0000004000001000, 0x0000004000000FC4]

/-- Formats of at most 8 bits: a pattern that decodes to a finite number other than a zero encodes back to itself in every
rounding mode, saturating or not (R97 to R99, R112). -/
def Obligations.NarrowFloatRoundTrip : Prop :=
  ∀ k, 3 ≤ k → k < 8 → ∀ bits, bits < 2 ^ ((floatFmt k).ew + (floatFmt k).fw + 1) →
    isFin ((floatFmt k).decode bits) = true → magOf ((floatFmt k).decode bits) ≠ (0, (floatFmt k).emin) →
    ∀ mode, mode < 4 → ∀ sat, (floatFmt k).encode mode sat ((floatFmt k).decode bits) = some bits

/-- R68: a strand as it is created: every register, accumulator and record reads as zero, modes are none, one fragment of
the launch's working lanes is at the kernel's entry, $cycles, $deadline and $event are 0, HANDLER and BUDGET are the
record's and the rest of the control area zero; and nothing of any memory enters it. -/
def Obligations.NewStrandState : Prop :=
  ∀ (s : State) gid blk num slot base frames,
    let st := s.newStrand gid blk num slot base frames
    let r := (s.grid gid).rcd
    (∀ w, ¬ ctlPart st ctlBUDGET w → ¬ ctlPart st ctlHANDLER w → ∀ tick, st.readWord tick w = ⟨0, false⟩)
      ∧ (∀ n, n < 16 → st.accMode n = 0)
      ∧ (∃ f, st.splits = [(0, .frag f)] ∧ f.mask = workMask r ∧ f.pc = r.getD 0 0)
      ∧ (∀ k, k < 256 → st.recState k = 0)
      ∧ st.cycles = 0 ∧ st.ctl ctlDLINE = 0 ∧ st.ctl ctlEVENT = 0
      ∧ st.ctl ctlHANDLER = r.getD 10 0 ∧ st.ctl ctlBUDGET = r.getD 5 0
      ∧ ∀ (m : Mem) (n : Mem), ({ s with mem := m, host := n } : State).newStrand gid blk num slot base frames = st

/-! ## Traps and containment -/

/-- A reserved field holds every lane of the fragment with cause 0x41, whatever the guard (R211, R214). -/
def Obligations.ReservedTrap : Prop :=
  ∀ i r, formRows i = some r → ∀ s sid idx f, Issues i s sid idx f → admitted s i = false →
    exec i s = .next (r.post (issueCx r s sid idx f) (s.hold sid idx f.pc (holdAll f.mask 0x41 0)))

/-- A register beyond the budget holds the lanes that pass the guard with cause 0x46 (R73, R214). -/
def Obligations.BudgetTrap : Prop :=
  ∀ i r, formRows i = some r → ∀ s sid idx f, Reads i r s sid idx f →
    ((r.uses s).any fun u => u.over (s.strand sid)) = true →
    exec i s = .next (r.post (issueCx r s sid idx f) ((s.eatUses sid f.mask [guardUse r.h]).finish sid idx f.pc
      (holdAll (passing r s sid f).1 0x46 0 ++ predHolds (passing r s sid f).2) .next))

/-- A write of a live-in register of the open region holds the active lanes with cause 0x4D (R140). -/
def Obligations.LiveInTrap : Prop :=
  ∀ i r, formRows i = some r → ∀ s sid idx f, Reads i r s sid idx f →
    ((r.uses s).any fun u => u.over (s.strand sid)) = false → ((r.uses s).any fun u => u.protected (s.strand sid)) = true →
    exec i s = .next (r.post (issueCx r s sid idx f) ((predsRead r s sid f).finish sid idx f.pc
      (predHolds ((passing r s sid f).2 ++ poisonedPreds r s sid f) ++ holdAll (leftLanes r s sid f) 0x4D 0) .next))

/-- With no lane active a form has no effect: lanes that poisoned predicate words cover are held with the word's cause, and
the fragment goes on (R36, R89, R201). -/
def Obligations.NoActiveLane : Prop :=
  ∀ i r, formRows i = some r → ∀ s sid idx f, Reads i r s sid idx f →
    ((r.uses s).any fun u => u.over (s.strand sid)) = false → ((r.uses s).any fun u => u.protected (s.strand sid)) = false →
    leftLanes r s sid f = 0 →
    exec i s = .next (r.post (issueCx r s sid idx f) ((predsRead r s sid f).finish sid idx f.pc
      (predHolds ((passing r s sid f).2 ++ poisonedPreds r s sid f)) .next))

/-- At user level every form of group 0xD holds every lane of the fragment with cause 0x40 (R213, R374). -/
def Obligations.PrivilegeTrap : Prop :=
  ∀ i r, systemRows i = some r → ∀ s sid idx f, s.issuer = some (sid, idx, f) → s.sysLevel sid = false →
    (s.strand sid).budgetCorrupt = false →
    exec i s = .next (r.post (issueCx r s sid idx f) (s.hold sid idx f.pc (holdAll f.mask 0x40 0)))

/-- Taking a deferred control trap (R128, R148): the lanes leave their fragment; the first trap sets TMASK, TPC, TCAUSE, TREC
and TCOUNT and makes a record with CTL = 1; a later one adds its lanes and counts; in the handler it is containment with
0x53, in the reserved state with 0x51. No register changes. That the record's ORIGIN is 0x0E is the model's choice (assumption 15). -/
def Obligations.DeferredTrap : Prop :=
  ∀ (s : State) sid idx pc st f (m : Lanes) c a, aget s.strands sid = some st → st.clasp = none → st.contained = false →
    st.frag? idx = some f → m ≠ 0 → m &&& ~~~f.mask = 0 →
    let t := s.hold sid idx pc (holdAll m c a)
    let u := t.strand sid
    (st.tstate ≤ 1 →
      t = { s with strands := t.strands } ∧ (∀ o, o ≠ sid → aget t.strands o = aget s.strands o)
        ∧ (∀ w, w < st.fixed + 192 → regWord t sid w = regWord s sid w)
        ∧ u.tstate = 1 ∧ u.tmask = (if st.tstate = 0 then m else st.tmask ||| m)
        ∧ u.ctl ctlTPC = (if st.tstate = 0 then pc else st.ctl ctlTPC)
        ∧ fld (u.ctl ctlTSTAT) 24 8 = (if st.tstate = 0 then c.toNat else fld (st.ctl ctlTSTAT) 24 8)
        ∧ fld (u.ctl ctlTSTAT) 32 8 = (if st.tstate = 0 then 1 else min 255 (fld (st.ctl ctlTSTAT) 32 8 + 1))
        ∧ (st.life = .resident → f.mask &&& ~~~m ≠ 0 → u.frag? idx = some { f with mask := f.mask &&& ~~~m })
        ∧ ∀ j, st.freeSlot = some j →
            let r := u.recWords ((st.ring + j) % 256)
            fld (r.getD 0 0) 6 1 = 1 ∧ fld (r.getD 0 0) 16 8 = 0x0E ∧ fld (r.getD 0 0) 24 8 = c.toNat
              ∧ r.getD 1 0 = pc ∧ r.getD 2 0 = a
              ∧ (st.tstate = 0 → fld (u.ctl ctlTSTAT) 48 16 = fld (r.getD 0 0) 48 16))
      ∧ (2 ≤ st.tstate → t = (s.trapRecords sid pc (holdAll m c a)).1.contain sid (if st.tstate = 2 then 0x53 else 0x51) 0 pc
          (some (st.freeSlot.map fun j => (st.ring + j) % 256)))

/-- Taking a held trap (R149, R150): with a handler the held lanes form one fragment in no group at the handler's PC, whose first fetch
checks that it is a target (R195), TSTATE is 2 and nothing else of the split table changes; where that check fails the strand is
contained with 0x42; without a handler it is contained with TCAUSE, and the event's record is the trap's where it still stands. The
fragment's index (assumption 97), the record and origin of an event, an invalid HANDLER's 0x43 (assumption 98), and which waits let the
trap be taken (assumption 29) are the model's choices. -/
def Obligations.HeldTrapTaken : Prop :=
  ∀ (s : State) sid st, aget s.strands sid = some st → st.trapDue = true →
    (st.ctl ctlHANDLER ≠ 0 → pcInvalid (st.ctl ctlHANDLER) = false → aget st.splits st.freeEntry = none →
      ∃ t, exec (.heldTrapTaken sid) s = .next t ∧ t = { s with strands := t.strands }
        ∧ (∀ o, o ≠ sid → aget t.strands o = aget s.strands o)
        ∧ (∃ f, (t.strand sid).frag? st.freeEntry = some f ∧ f.mask = st.tmask ∧ f.pc = st.ctl ctlHANDLER ∧ f.grp = none
            ∧ f.wait = .ready ∧ f.due = some ⟨st.ctl ctlTPC, true, 4, 0, st.tmask, none⟩)
        ∧ (∀ j, j ≠ st.freeEntry → aget (t.strand sid).splits j = aget st.splits j)
        ∧ (t.strand sid).tstate = 2 ∧ (t.strand sid).tmask = st.tmask ∧ (t.strand sid).ctl ctlTPC = st.ctl ctlTPC
        ∧ fld ((t.strand sid).ctl ctlTSTAT) 24 8 = fld (st.ctl ctlTSTAT) 24 8)
      ∧ (st.ctl ctlHANDLER = 0 → ∃ (u : State),
          exec (.heldTrapTaken sid) s
            = .next (u.contain sid (BitVec.ofNat 8 (fld (st.ctl ctlTSTAT) 24 8)) 0x0E (st.ctl ctlTPC)
                (st.ownSlot (fld (st.ctl ctlTSTAT) 48 16)))
          ∧ u = { s with strands := u.strands } ∧ ∀ o, o ≠ sid → aget u.strands o = aget s.strands o)
      ∧ (st.ctl ctlHANDLER ≠ 0 → pcInvalid (st.ctl ctlHANDLER) = true → ∃ (u : State),
          exec (.heldTrapTaken sid) s = .next (u.contain sid 0x43 0x0E (st.ctl ctlHANDLER) none)
          ∧ u = { s with strands := u.strands } ∧ ∀ o, o ≠ sid → aget u.strands o = aget s.strands o)
      ∧ ∀ (t : State) idx f l, f.due = some ⟨st.ctl ctlTPC, true, 4, 0, st.tmask, none⟩ → pcInvalid f.pc = false →
          s.fetchLine sid f.pc = (t, .ok l) → tgtBit l (fld f.pc 0 3) = false →
          s.fetchInsn sid idx f = .done (t.contain sid 0x42 0x0E (st.ctl ctlTPC) none)

/-- Containment (R151) ends the strand that caused it and nothing else: its lanes have exited, its fragments and groups are
gone, its locket is dropped unwritten, its watchers are gone, and the event is counted for its grid; other strands keep
their fragments, lockets and state, and replies, packets, passes, tile transfers and engine commands go on, where the launch named no
status area. With one, its exit status word (R152) names the block, the strand, the lanes left, the origin and the cause, and is the
grid's first where none was before; and a status word goes to the area's slot that the area's count names, where one is left. -/
def Obligations.ContainmentEndsOne : Prop :=
  (∀ (s : State) sid st g cause origin pc rcd, aget s.strands sid = some st → st.clasp = none → st.contained = false →
    st.life ≠ .retired → aget s.grids st.gid = some g → g.rcd.getD 7 0 = 0 →
    let t := s.contain sid cause origin pc rcd
    (t.strand sid).contained = true ∧ (t.strand sid).splits = [] ∧ (t.strand sid).locket = []
      ∧ (∀ m ∈ t.monitors, m.sid ≠ sid) ∧ (t.grid st.gid).events = g.events + 1
      ∧ (∀ o, o ≠ sid → (t.strand o).splits = (s.strand o).splits ∧ (t.strand o).locket = (s.strand o).locket
          ∧ (t.strand o).life = (s.strand o).life ∧ (t.strand o).contained = (s.strand o).contained)
      ∧ t.blocks = s.blocks ∧ t.nbhds = s.nbhds ∧ (∀ k, k ≠ st.gid → aget t.grids k = aget s.grids k)
      ∧ t.replies = s.replies ∧ t.packets = s.packets ∧ t.matQ = s.matQ ∧ t.tileOps = s.tileOps
      ∧ t.copyQ = s.copyQ ∧ t.gatherQ = s.gatherQ ∧ t.collQ = s.collQ)
    ∧ (∀ (s : State) sid st g cause origin pc rcd, aget s.strands sid = some st → st.clasp = none → st.contained = false →
        st.life ≠ .retired → aget s.grids st.gid = some g →
        ((s.contain sid cause origin pc rcd).grid st.gid).firstWord =
          if g.firstWord = 0 then
            mk64 [(32, s.blockIndex st.blk % 2 ^ 32), (28, st.num % 16), (20, max 1 (popMask st.liveLanes) % 256), (12, origin.toNat),
              (7, 1), (0, cause.toNat % 128)]
          else g.firstWord)
    ∧ ∀ (u v x : State) gid w c i qa ord sm, (u.grid gid).rcd.getD 7 0 ≠ 0 →
        (u.modGrid gid fun g => { g with
          events := g.events + 1
          firstWord := if g.firstWord = 0 then w else g.firstWord
          firstTime := if g.firstWord = 0 then u.ptime else g.firstTime
          causes := aput g.causes c ((aget g.causes c).getD 0 + 1) }).ctxAdd (u.grid gid).ctx ((u.grid gid).rcd.getD 7 0) 1
            = (v, some i) →
        i.toNat < fld ((u.grid gid).rcd.getD 8 0) 0 32 → ((u.grid gid).rcd.getD 7 0 + 8 + 8 * i).toNat % 8 = 0 →
        v.translate (v.whoCtx (u.grid gid).ctx) .write ((u.grid gid).rcd.getD 7 0 + 8 + 8 * i) = (x, .ok ⟨.mem qa, ord, sm⟩) →
        qa % 8 = 0 → x.imageAt qa = none → x.imageAt (qa + 4) = none → x.retiredLine qa = false →
        (u.writeStatus gid w c).mem.word qa = ⟨loW w, false⟩ ∧ (u.writeStatus gid w c).mem.word (qa + 4) = ⟨hiW w, false⟩

/-- A precise fetch trap (R371, R391, R393): the fragment parks at its PC on the cause, and an entry of KIND 2 with that PC, the cause,
the context and the image's address goes to the fault queue, at FQBASE + 64 × FQTAIL with the queue's phase bit, and FQTAIL moves on;
or to the hub's buffer while the queue is full or entries wait there. -/
def Obligations.FetchTrapParks : Prop :=
  ∀ (s : State) sid i f c, (s.strand sid).frag? i = some f → f.mayIssue = true → (s.fetchLine sid f.pc).2 = .error c →
    ∃ t, exec (.fetchTrap sid i c) s = .next t
      ∧ (t.strand sid).frag? i = some { f with wait := .fetchPark c }
      ∧ let e := fqEntry 2 (s.strand sid).ctx 0 c f.pc f.pc (s.strand sid).base [0, 0, 0, 0]
        let u := (s.fetchLine sid f.pc).1.modStrand sid fun st => st.setFrag i { f with wait := .fetchPark c }
        (e.getD 1 0 = f.pc ∧ e.getD 2 0 = f.pc ∧ fld (e.getD 0 0) 0 8 = c.toNat)
          ∧ if s.fqBuf.isEmpty && !s.fqFull then
              t.fqBuf = s.fqBuf ∧ t.regF rFQTAIL 0 32 = (s.regF rFQTAIL 0 32 + 1) % s.fqSize
                ∧ t.mem = (u.putDwords ((s.reg rFQBASE).toNat + 64 * (s.regF rFQTAIL 0 32 % s.fqSize))
                    (setFld (e.getD 0 0) 63 1 (b2n s.fqPh) :: e.drop 1)).mem
            else t.fqBuf = s.fqBuf ++ [e]

/-! ## The whole machine -/

/-- What reset leaves: the values that the spec's register maps give (R386, R402, R435, R474), no strand, no grid, no input, and memory
with nothing listed. That FQSIZE is 6 (assumption 1) and that an unlisted byte reads as 0 (assumption 2) are the model's choices. -/
def Obligations.ResetValues : Prop :=
  let s := State.reset
  s.reg rFQSIZE = 6 ∧ s.reg (rDPCORE 0) = 0x80FE80FE80FE80FE ∧ s.reg (rDPMEM 0) = 0x1800000
    ∧ s.reg (rDPQUE 0) = 0xFFFFFFFFFFFFFFFF ∧ s.reg (rDPSTAT 0) = 1
    ∧ (∀ p, 1 ≤ p → p < 8 → s.reg (rDPCORE p) = 0 ∧ s.reg (rDPMEM p) = 0 ∧ s.reg (rDPQUE p) = 0 ∧ s.reg (rDPSTAT p) = 0)
    ∧ s.reg rPTERR = 0xFFFFFFFF ∧ (∀ k, k < 8 → s.reg (rCHSPR k) = 0xFF00FF000000FFFF)
    ∧ (∀ k, s.reg (rCSTORE k) = 0 ∧ s.reg (rCTRAPS k) = 0 ∧ s.reg (rPRFCFG k) = 0) ∧ (∀ q, s.reg (rLQCFG q) = 0)
    ∧ s.stage = 0 ∧ s.strands = [] ∧ s.blocks = [] ∧ s.grids = [] ∧ s.inputs = [] ∧ s.packets = [] ∧ s.mem = ⟨[], []⟩

/-- Every memory is in canonical form after reset. -/
def Obligations.ResetCanonical : Prop := State.reset.Canonical

/-- Every step keeps every memory in canonical form: addresses strictly rising, no byte listed that an unlisted address reads
as. -/
def Obligations.StepKeepsCanonical : Prop := ∀ s t, s.Canonical → step s = .next t → t.Canonical

/-- A step that issues runs the instruction that it fetched (R45, R198, R214, R371): where the fragment's PC is valid, its line
is fetched and no check is due, the step is the meaning of the decoded slot, in the state that the fetch leaves, with the end of an
issue after it: nothing happened where the instruction was not ready, and a line that a routine's body holds does not change. Where no
copy of the line is held, and no core has left an older one in L2, the words are those that memory holds at the PC. -/
def Obligations.StepRunsDecoded : Prop :=
  ∀ (s : State) sid idx f, s.begun.nextAction = .issue sid idx →
    let u := s.begun
    let v := ((u.countWaits sid idx).modFrag sid idx Frag.chosen).issuing sid idx
    let ends := fun o => u.keepLines (u.endIssue sid idx o)
    (u.strand sid).frag? idx = some f → pcInvalid f.pc = false → f.due = none →
    (∀ t l, v.fetchLine sid f.pc = (t, .ok l) →
        step s = ends (exec (decodeWords (slotWords l (fld f.pc 0 3)).1 (slotWords l (fld f.pc 0 3)).2.1
          (slotWords l (fld f.pc 0 3)).2.2) t))
      ∧ ∀ w p, v.translate (v.whoFetch sid) .fetch (f.pc &&& 0xFFFFFFFFFFFFFFC0) = (w, .ok p) →
          (∀ d ∈ v.icache, d.va ≠ f.pc.toNat / 256) → aget (v.strand sid).lines (f.pc.toNat / 64) = none →
          (∀ o ∈ v.oldLines, o.loc ≠ p.loc.align lineBytes) →
          parityOk (w.memLine p) = true → lineRsvOk (w.memLine p) = true →
          ∃ t, let at_ (i : Nat) : Word := (w.getW ((p.loc.align 64).add (4 * (3 * fld f.pc 0 3 + i)))).data
            step s = ends (exec (decodeWords (at_ 0) (at_ 1) (at_ 2)) t)
              ∧ t.cur = some (sid, idx) ∧ t.mem = s.mem ∧ t.tick = s.tick + 1

/-- Words written out from the spec's worked encodings decode to the instructions that they stand for. -/
def Obligations.DecodeSamples : Prop :=
  (match decodeWords 0x00403040 0x00002404 0 with
    | .iadd h b => h.guard == 3 && !h.gneg && h.dest == 4 && b.a == .vec 4 && b.b == .reg (.vec 9) && !b.sat
    | _ => false) = true
    ∧ (match decodeWords 0x0032FC40 0x10100103 0xFFFFFFFF with
      | .iadd h b => h.guard == 15 && h.dest == 3 && b.a == .sc 3 && h.lua && b.b == .imm 0xFFFFFFFF && b.sat && vWide b
      | _ => false) = true
    ∧ (match decodeWords 0x0000F003 0xFFFFFFFC 0x00010301 with
      | .brc _ b => b.w1.toInt == -4 && b.a == .pred 1 && b.aux == 1
      | _ => false) = true
    ∧ (match decodeWords 0x0080F280 0xC0A00906 0x0AB01000 with
      | .atom h b => h.dest == 8 && b.size == 3
      | _ => false) = true
    ∧ (match decodeWords 0x0040F340 0x10100000 0 with
      | .srd h b => h.dest == 4 && b.sreg == 0x101
      | _ => false) = true
    ∧ (match decodeWords 0x0000F001 0 0 with | .nop h _ => h.guard == 15 | _ => false) = true

/-- Decode and encode agree: the words of every well-formed instruction decode to it. -/
def Obligations.DecodeEncode : Prop :=
  ∀ i r, WellFormed i → encode i = some r → decodeWords r.w0 r.w1 r.w2 = i

/-- Encode and decode agree: what any three words decode to encodes to those words, so that decoding drops no bit. -/
def Obligations.EncodeDecode : Prop := ∀ w0 w1 w2, encode (decodeWords w0 w1 w2) = some ⟨w0, w1, w2⟩

/-- Every form of the opcode table, hints and illegal instructions among them, answers a next state for every issuing
fragment: none is a fault or a refusal. -/
def Obligations.FormsAnswer : Prop :=
  ∀ i, ((formRows i).isSome || (rawRows i).isSome) = true → ∀ s, s.issuer ≠ none → ∃ t, exec i s = .next t

/-- Only a fragment that waits for nothing issues, and only of a strand that is Resident in a slot, in a block that has not stopped for a
switch-out, before an emergency stop; or one that waits for nothing but its instruction's sources, of a strand that runs a routine's
body (R45, R60, R432, R479). -/
def Obligations.IssueOnlyReady : Prop :=
  ∀ (s : State) sid idx, s.nextAction = .issue sid idx →
    ∃ st f, (sid, st) ∈ s.strands ∧ (idx, Entry.frag f) ∈ st.splits ∧ f.mayIssue = true
      ∧ (st.clasp.isSome = true
          ∨ (f.wait = .ready ∧ st.life = .resident ∧ st.slot.isSome = true ∧ s.stage ≠ 15 ∧ s.stopped st.blk = false))

/-- An instruction that is not ready changes nothing of the machine: its fragment waits on the scoreboard, and its wait counts anew
(R45, R422). -/
def Obligations.NotReadyWaits : Prop :=
  ∀ (s : State) sid idx f i t u, (s.strand sid).frag? idx = some f →
    (((s.countWaits sid idx).modFrag sid idx Frag.chosen).issuing sid idx).fetchInsn sid idx f = .run i t → exec i t = .next u →
    u.notReady = true → ∃ w, s.issueFrag sid idx = .next w ∧ w = { s with strands := w.strands }
      ∧ (∀ o, o ≠ sid → aget w.strands o = aget s.strands o)
      ∧ w.strand sid = { s.strand sid with splits := (w.strand sid).splits }
      ∧ (∀ j, j ≠ idx → aget (w.strand sid).splits j = aget (s.strand sid).splits j)
      ∧ ∃ g, (w.strand sid).frag? idx = some g ∧ g = { f with wait := g.wait, count := 0, hit64 := 0, readyAt := g.readyAt }
          ∧ (f.wait = .ready → g.wait = .scoreboard)

/-- What a fragment past the last unit comes to: its lanes are held with cause 0x43, the transferring PC and in ADDR the invalid value. -/
def Sys2Proof.Claims.heldPast (s t : State) (sid idx : Nat) (f : Frag) : Prop :=
  t = s.hold sid idx f.pc (holdAll f.mask 0x43 (pcPlus f.pc 1)) ∧ (t.strand sid).tstate = 1
    ∧ (t.strand sid).tmask = (if (s.strand sid).tstate = 0 then f.mask else (s.strand sid).tmask ||| f.mask)

/-- A fragment stands on the last unit, in a strand that may take a deferred trap. -/
def Sys2Proof.Claims.atTheEnd (s : State) (sid : Nat) (f : Frag) : Prop :=
  ordinary s sid ∧ (s.strand sid).life = .resident ∧ pcInvalid (pcPlus f.pc 1) = true ∧ f.mask ≠ 0
    ∧ (s.strand sid).contained = false ∧ (s.strand sid).tstate ≤ 1

/-- Past the last unit there is no next one: NOP, PAD and a hint, which only go on, there hold their fragment's lanes with cause 0x43,
the transferring PC and in ADDR the invalid value (R148, R197). -/
def Obligations.PastTheEnd : Prop :=
  (∀ i h b, i = .nop h b ∨ i = .pad h b → ∀ s cx r, controlRows i = some r → r.Ready i s cx → atTheEnd s cx.sid cx.frag →
      ∃ t, exec i s = .next t ∧ heldPast s t cx.sid cx.idx cx.frag)
    ∧ ∀ w s sid idx f, s.issuer = some (sid, idx, f) → atTheEnd s sid f →
        ∃ t, exec (.hint w) s = .next t ∧ heldPast s t sid idx f
end

