-- ==== Sys2Proof/Laws/Maps.lean ====
section
/-! SUPPORT. Laws of finite maps: reading after writing, and the rising order of keys. -/
namespace Sys2Proof.Machine

/-! ### Reading -/

theorem aget_aput_same {α : Type} (m : List (Nat × α)) (i : Nat) (x : α) : aget (aput m i x) i = some x := by
  induction m with
  | nil => simp [aput, aget]
  | cons e m ih =>
    obtain ⟨k, v⟩ := e
    by_cases h : i < k
    · simp [aput, aget, h]
    · by_cases h' : i = k
      · simp [aput, aget, h']
      · simp [aput, aget, h, h', ih]

theorem aget_aput_other {α : Type} (m : List (Nat × α)) (i j : Nat) (x : α) (h : j ≠ i) :
    aget (aput m i x) j = aget m j := by
  induction m with
  | nil => simp [aput, aget, h]
  | cons e m ih =>
    obtain ⟨k, v⟩ := e
    by_cases h1 : i < k
    · simp [aput, aget, h1, h]
    · by_cases h2 : i = k
      · subst h2; simp [aput, aget, h]
      · simp [aput, aget, h1, h2, ih]

theorem aget_adel_same {α : Type} (m : List (Nat × α)) (i : Nat) : aget (adel m i) i = none := by
  induction m with
  | nil => simp [adel, aget]
  | cons e m ih =>
    obtain ⟨k, v⟩ := e
    by_cases h : i = k <;> simp [adel, aget, h, ih]
    subst h; exact ih

theorem aget_adel_other {α : Type} (m : List (Nat × α)) (i j : Nat) (h : j ≠ i) : aget (adel m i) j = aget m j := by
  induction m with
  | nil => simp [adel, aget]
  | cons e m ih =>
    obtain ⟨k, v⟩ := e
    by_cases h' : i = k
    · subst h'; simp [adel, aget, h, ih]
    · simp [adel, aget, h', ih]

theorem aget_aputD_same {α : Type} [DecidableEq α] (d : α) (m : List (Nat × α)) (i : Nat) (x : α) :
    (aget (aputD d m i x) i).getD d = x := by
  unfold aputD
  split
  · simp [aget_adel_same, *]
  · simp [aget_aput_same]

theorem aget_aputD_other {α : Type} [DecidableEq α] (d : α) (m : List (Nat × α)) (i j : Nat) (x : α) (h : j ≠ i) :
    aget (aputD d m i x) j = aget m j := by
  unfold aputD
  split
  · exact aget_adel_other m i j h
  · exact aget_aput_other m i j x h

theorem aget_amod_same {α : Type} (m : List (Nat × α)) (i : Nat) (f : α → α) :
    aget (amod m i f) i = (aget m i).map f := by
  unfold amod
  cases h : aget m i <;> simp [aget_aput_same, h]

theorem aget_amod_other {α : Type} (m : List (Nat × α)) (i j : Nat) (f : α → α) (h : j ≠ i) :
    aget (amod m i f) j = aget m j := by
  unfold amod
  split
  · exact aget_aput_other m i j _ h
  · rfl

/-! ### Order -/

/-- Every key of a map is above a bound. -/
theorem asorted_cons {α : Type} (k : Nat) (v : α) (m : List (Nat × α)) :
    asorted ((k, v) :: m) = true ↔ (∀ e ∈ m, k < e.1) ∧ asorted m = true := by
  induction m generalizing k v with
  | nil => simp [asorted]
  | cons e m ih =>
    obtain ⟨k', v'⟩ := e
    simp only [asorted, Bool.and_eq_true, decide_eq_true_eq, List.mem_cons, forall_eq_or_imp]
    constructor
    · rintro ⟨h1, h2⟩
      refine ⟨⟨h1, fun e he => Nat.lt_trans h1 (((ih k' v').1 h2).1 e he)⟩, h2⟩
    · rintro ⟨⟨h1, _⟩, h2⟩
      exact ⟨h1, h2⟩

theorem mem_aput {α : Type} (m : List (Nat × α)) (i : Nat) (x : α) (e : Nat × α) :
    e ∈ aput m i x → e = (i, x) ∨ e ∈ m := by
  induction m with
  | nil => simp [aput]
  | cons c m ih =>
    obtain ⟨k, v⟩ := c
    by_cases h : i < k
    · simp [aput, h]
    · by_cases h' : i = k
      · subst h'; simp only [aput, lt_irrefl, ↓reduceIte, List.mem_cons]; tauto
      · simp only [aput, h, h', ↓reduceIte, List.mem_cons]; tauto

theorem mem_adel {α : Type} (m : List (Nat × α)) (i : Nat) (e : Nat × α) : e ∈ adel m i → e ∈ m := by
  induction m with
  | nil => simp [adel]
  | cons c m ih =>
    obtain ⟨k, v⟩ := c
    by_cases h : i = k
    · simp only [adel, h, ↓reduceIte, List.mem_cons]
      intro he
      exact .inr (ih (by simpa [h] using he))
    · simp only [adel, h, ↓reduceIte, List.mem_cons]; tauto

theorem asorted_aput {α : Type} (m : List (Nat × α)) (i : Nat) (x : α) (h : asorted m = true) :
    asorted (aput m i x) = true := by
  induction m with
  | nil => simp [aput, asorted]
  | cons c m ih =>
    obtain ⟨k, v⟩ := c
    obtain ⟨h1, h2⟩ := (asorted_cons k v m).1 h
    by_cases hlt : i < k
    · simp only [aput, hlt, ↓reduceIte, asorted_cons]
      refine ⟨fun e he => ?_, h1, h2⟩
      rcases List.mem_cons.1 he with rfl | he
      · exact hlt
      · exact Nat.lt_trans hlt (h1 e he)
    · by_cases heq : i = k
      · subst heq; rw [aput, if_neg (Nat.lt_irrefl _), if_pos rfl, asorted_cons]; exact ⟨h1, h2⟩
      · simp only [aput, hlt, heq, ↓reduceIte, asorted_cons]
        refine ⟨fun e he => ?_, ih h2⟩
        rcases mem_aput m i x e he with rfl | he
        · dsimp only; omega
        · exact h1 e he

theorem asorted_adel {α : Type} (m : List (Nat × α)) (i : Nat) (h : asorted m = true) : asorted (adel m i) = true := by
  induction m with
  | nil => simp [adel, asorted]
  | cons c m ih =>
    obtain ⟨k, v⟩ := c
    obtain ⟨h1, h2⟩ := (asorted_cons k v m).1 h
    by_cases heq : i = k
    · simp only [adel, heq, ↓reduceIte]; simpa [heq] using ih h2
    · simp only [adel, heq, ↓reduceIte, asorted_cons]
      exact ⟨fun e he => h1 e (mem_adel m i e he), ih h2⟩

theorem asorted_aputD {α : Type} [DecidableEq α] (d : α) (m : List (Nat × α)) (i : Nat) (x : α)
    (h : asorted m = true) : asorted (aputD d m i x) = true := by
  unfold aputD
  split
  · exact asorted_adel m i h
  · exact asorted_aput m i x h

theorem all_aput {α : Type} (p : Nat × α → Bool) (m : List (Nat × α)) (i : Nat) (x : α) (h : m.all p = true)
    (hx : p (i, x) = true) : (aput m i x).all p = true := by
  rw [List.all_eq_true] at *
  intro e he
  rcases mem_aput m i x e he with rfl | he
  · exact hx
  · exact h e he

theorem all_adel {α : Type} (p : Nat × α → Bool) (m : List (Nat × α)) (i : Nat) (h : m.all p = true) :
    (adel m i).all p = true := by
  rw [List.all_eq_true] at *
  exact fun e he => h e (mem_adel m i e he)

/-- What holds of every entry holds after a write of an entry of which it holds. -/
theorem forall_aput {α : Type} (P : Nat × α → Prop) (m : List (Nat × α)) (i : Nat) (x : α) (h : ∀ e ∈ m, P e)
    (hx : P (i, x)) : ∀ e ∈ aput m i x, P e := by
  intro e he
  rcases mem_aput m i x e he with rfl | he
  · exact hx
  · exact h e he

theorem aget_mem {α : Type} (m : List (Nat × α)) (i : Nat) (x : α) (h : aget m i = some x) : (i, x) ∈ m := by
  induction m with
  | nil => simp [aget] at h
  | cons c m ih =>
    obtain ⟨k, v⟩ := c
    by_cases hk : i = k
    · simp [aget, hk] at h; simp [h, hk]
    · simp [aget, hk] at h; exact List.mem_cons_of_mem _ (ih h)

theorem forall_aputD {α : Type} [DecidableEq α] (P : Nat × α → Prop) (d : α) (m : List (Nat × α)) (i : Nat) (x : α) (h : ∀ e ∈ m, P e)
    (hx : P (i, x)) : ∀ e ∈ aputD d m i x, P e := by
  unfold aputD
  split
  · exact fun e he => h e (mem_adel m i e he)
  · exact forall_aput P m i x h hx

theorem forall_amod {α : Type} (P : Nat × α → Prop) (m : List (Nat × α)) (i : Nat) (f : α → α) (h : ∀ e ∈ m, P e)
    (hf : ∀ x, P (i, x) → P (i, f x)) : ∀ e ∈ amod m i f, P e := by
  unfold amod
  split
  · next v hv => exact forall_aput P m i _ h (hf v (h _ (aget_mem m i v hv)))
  · exact h

end Sys2Proof.Machine
end

