-- ==== Sys2Proof/Laws/Memory.lean ====
section
/-! SUPPORT. Laws of byte memories: reading after writing, and that every memory operation keeps the canonical form. -/
namespace Sys2Proof.Machine

/-! ### Bytes -/

@[simp] theorem Mem.byte_setByte_same (m : Mem) (a : Nat) (b : Byte) : (m.setByte a b).byte a = b := by
  simp [Mem.byte, Mem.setByte, aget_aputD_same]

theorem Mem.byte_setByte_other (m : Mem) (a c : Nat) (b : Byte) (h : c ≠ a) : (m.setByte a b).byte c = m.byte c := by
  simp [Mem.byte, Mem.setByte, aget_aputD_other _ _ _ _ _ h]

@[simp] theorem Mem.marked_setByte (m : Mem) (a c : Nat) (b : Byte) : (m.setByte a b).marked c = m.marked c := rfl

@[simp] theorem Mem.byte_setMark (m : Mem) (a c : Nat) (b : Bool) : (m.setMark a b).byte c = m.byte c := rfl

@[simp] theorem Mem.marked_setMark_same (m : Mem) (a : Nat) (b : Bool) : (m.setMark a b).marked a = b := by
  cases b <;> simp [Mem.marked, Mem.setMark, aget_aput_same, aget_adel_same]

theorem Mem.marked_setMark_other (m : Mem) (a c : Nat) (b : Bool) (h : c ≠ a) :
    (m.setMark a b).marked c = m.marked c := by
  cases b <;> simp [Mem.marked, Mem.setMark, aget_aput_other _ _ _ _ h, aget_adel_other _ _ _ h]

/-! ### The canonical form -/

theorem Mem.wf_iff (m : Mem) :
    m.wf = true ↔ asorted m.cells = true ∧ m.cells.all (fun c => c.2 != unlisted) = true ∧ asorted m.marks = true := by
  simp only [Mem.wf, Bool.and_eq_true, and_assoc]

theorem Mem.wf_empty : (Mem.mk [] []).wf = true := rfl

theorem Mem.wf_setByte (m : Mem) (a : Nat) (b : Byte) (h : m.wf = true) : (m.setByte a b).wf = true := by
  rw [Mem.wf_iff] at *
  refine ⟨asorted_aputD _ _ _ _ h.1, ?_, h.2.2⟩
  show (aputD unlisted m.cells a b).all _ = true
  unfold aputD
  split
  · exact all_adel _ _ _ h.2.1
  · next hb => exact all_aput _ _ _ _ h.2.1 (by simpa using hb)

theorem Mem.wf_setMark (m : Mem) (a : Nat) (b : Bool) (h : m.wf = true) : (m.setMark a b).wf = true := by
  rw [Mem.wf_iff] at *
  refine ⟨h.1, h.2.1, ?_⟩
  cases b
  · exact asorted_adel _ _ h.2.2
  · exact asorted_aput _ _ _ h.2.2

theorem Mem.wf_setWord (m : Mem) (a be : Nat) (w : MWord) (h : m.wf = true) : (m.setWord a be w).wf = true := by
  have put : ∀ (m : Mem) (i : Nat), m.wf = true →
      (if be.testBit i then m.setByte (a + i) (byteOf w.data i) else m).wf = true := by
    intro m i hm
    split
    · exact Mem.wf_setByte _ _ _ hm
    · exact hm
  have h4 := put _ 3 (put _ 2 (put _ 1 (put _ 0 h)))
  unfold Mem.setWord
  dsimp only
  split
  · exact h4
  · exact Mem.wf_setMark _ _ _ h4

/-! ### A byte after a word is written -/

/-- A write of a word changes no byte outside the four of that word. -/
theorem Mem.byte_setWord_other (m : Mem) (a be c : Nat) (w : MWord) (h : c < a ∨ a + 4 ≤ c) :
    (m.setWord a be w).byte c = m.byte c := by
  have put : ∀ (m : Mem) (i : Nat), i < 4 →
      (if be.testBit i then m.setByte (a + i) (byteOf w.data i) else m).byte c = m.byte c := by
    intro m i hi
    split
    · exact Mem.byte_setByte_other _ _ _ _ (by omega)
    · rfl
  unfold Mem.setWord
  dsimp only
  have h4 : ∀ m' : Mem, (if be % 16 = 0 then m' else m'.setMark a w.mark).byte c = m'.byte c := by
    intro m'; split <;> simp
  rw [h4, put _ 3 (by decide), put _ 2 (by decide), put _ 1 (by decide), put _ 0 (by decide)]

/-- A whole word reads back as it was written. -/
theorem Mem.word_setWord (m : Mem) (a : Nat) (w : MWord) : (m.setWord a 15 w).word a = w := by
  have h : ∀ i, i < 4 → Nat.testBit 15 i = true := by decide
  have hb : ∀ m' : Mem, ∀ i, i < 4 →
      ((((m'.setByte (a + 0) (byteOf w.data 0)).setByte (a + 1) (byteOf w.data 1)).setByte (a + 2)
        (byteOf w.data 2)).setByte (a + 3) (byteOf w.data 3)).byte (a + i) = byteOf w.data i := by
    intro m' i hi
    have : i = 0 ∨ i = 1 ∨ i = 2 ∨ i = 3 := by omega
    rcases this with rfl | rfl | rfl | rfl
    · rw [Mem.byte_setByte_other _ _ _ _ (by omega), Mem.byte_setByte_other _ _ _ _ (by omega),
        Mem.byte_setByte_other _ _ _ _ (by omega), Mem.byte_setByte_same]
    · rw [Mem.byte_setByte_other _ _ _ _ (by omega), Mem.byte_setByte_other _ _ _ _ (by omega), Mem.byte_setByte_same]
    · rw [Mem.byte_setByte_other _ _ _ _ (by omega), Mem.byte_setByte_same]
    · rw [Mem.byte_setByte_same]
  have e : m.setWord a 15 w = ((((m.setByte (a + 0) (byteOf w.data 0)).setByte (a + 1) (byteOf w.data 1)).setByte (a + 2)
        (byteOf w.data 2)).setByte (a + 3) (byteOf w.data 3)).setMark a w.mark := by
    unfold Mem.setWord
    simp [h]
  rw [e]
  obtain ⟨d, k⟩ := w
  simp only [Mem.word, Mem.byte_setMark, Mem.marked_setMark_same]
  rw [show a = a + 0 from rfl, hb m 0 (by decide), hb m 3 (by decide), hb m 2 (by decide), hb m 1 (by decide)]
  congr 1
  simp only [byteOf]
  refine BitVec.eq_of_getLsbD_eq fun i hi => ?_
  have hi : i < 32 := hi
  simp only [BitVec.getLsbD_append, BitVec.getLsbD_extractLsb']
  by_cases h1 : i < 8
  · rw [if_pos (by omega), if_pos (by omega), if_pos h1]; simp [h1]
  · by_cases h2 : i < 16
    · rw [if_pos (by omega), if_pos (by omega), if_neg h1, show 8 * 1 + (i - 8) = i by omega]
      simp [show i - 8 < 8 by omega]
    · by_cases h3 : i < 24
      · rw [if_pos (by omega), if_neg (by omega), show 8 * 2 + (i - (8 + 8)) = i by omega]
        simp [show i - (8 + 8) < 8 by omega]
      · rw [if_neg (by omega), show 8 * 3 + (i - (8 + (8 + 8))) = i by omega]
        simp [show i - (8 + (8 + 8)) < 8 by omega]

end Sys2Proof.Machine
end

