-- ==== Sys2Proof/Laws/State.lean ====
section
/-! SUPPORT. The small lemmas of State: for each update, what every field is after it; reads of strands, blocks, grids and registers
after updates. -/
namespace Sys2Proof.Machine
set_option Elab.async false
variable (s : State)

/-! ### A strand replaced -/

section
variable (k : Nat) (x : Strand)
@[simp] theorem State.setStrand_tick : (s.setStrand k x).tick = s.tick := rfl
@[simp] theorem State.setStrand_ptime : (s.setStrand k x).ptime = s.ptime := rfl
@[simp] theorem State.setStrand_slew : (s.setStrand k x).slew = s.slew := rfl
@[simp] theorem State.setStrand_clock : (s.setStrand k x).clock = s.clock := rfl
@[simp] theorem State.setStrand_cur : (s.setStrand k x).cur = s.cur := rfl
@[simp] theorem State.setStrand_notReady : (s.setStrand k x).notReady = s.notReady := rfl
@[simp] theorem State.setStrand_inputs : (s.setStrand k x).inputs = s.inputs := rfl
@[simp] theorem State.setStrand_abroad : (s.setStrand k x).abroad = s.abroad := rfl
@[simp] theorem State.setStrand_strikes : (s.setStrand k x).strikes = s.strikes := rfl
@[simp] theorem State.setStrand_outbox : (s.setStrand k x).outbox = s.outbox := rfl
@[simp] theorem State.setStrand_mem : (s.setStrand k x).mem = s.mem := rfl
@[simp] theorem State.setStrand_host : (s.setStrand k x).host = s.host := rfl
@[simp] theorem State.setStrand_remote : (s.setStrand k x).remote = s.remote := rfl
@[simp] theorem State.setStrand_bar4 : (s.setStrand k x).bar4 = s.bar4 := rfl
@[simp] theorem State.setStrand_spads : (s.setStrand k x).spads = s.spads := rfl
@[simp] theorem State.setStrand_spadErr : (s.setStrand k x).spadErr = s.spadErr := rfl
@[simp] theorem State.setStrand_dbgMem : (s.setStrand k x).dbgMem = s.dbgMem := rfl
@[simp] theorem State.setStrand_oldLines : (s.setStrand k x).oldLines = s.oldLines := rfl
@[simp] theorem State.setStrand_retLines : (s.setStrand k x).retLines = s.retLines := rfl
@[simp] theorem State.setStrand_hostErr : (s.setStrand k x).hostErr = s.hostErr := rfl
@[simp] theorem State.setStrand_lags : (s.setStrand k x).lags = s.lags := rfl
@[simp] theorem State.setStrand_smUnits : (s.setStrand k x).smUnits = s.smUnits := rfl
@[simp] theorem State.setStrand_smCopies : (s.setStrand k x).smCopies = s.smCopies := rfl
@[simp] theorem State.setStrand_dir : (s.setStrand k x).dir = s.dir := rfl
@[simp] theorem State.setStrand_dirUnits : (s.setStrand k x).dirUnits = s.dirUnits := rfl
@[simp] theorem State.setStrand_tlb : (s.setStrand k x).tlb = s.tlb := rfl
@[simp] theorem State.setStrand_walked : (s.setStrand k x).walked = s.walked := rfl
@[simp] theorem State.setStrand_icache : (s.setStrand k x).icache = s.icache := rfl
@[simp] theorem State.setStrand_recCache : (s.setStrand k x).recCache = s.recCache := rfl
@[simp] theorem State.setStrand_regs : (s.setStrand k x).regs = s.regs := rfl
@[simp] theorem State.setStrand_pendStore : (s.setStrand k x).pendStore = s.pendStore := rfl
@[simp] theorem State.setStrand_ctxs : (s.setStrand k x).ctxs = s.ctxs := rfl
@[simp] theorem State.setStrand_switching : (s.setStrand k x).switching = s.switching := rfl
@[simp] theorem State.setStrand_revoked : (s.setStrand k x).revoked = s.revoked := rfl
@[simp] theorem State.setStrand_queues : (s.setStrand k x).queues = s.queues := rfl
@[simp] theorem State.setStrand_posts : (s.setStrand k x).posts = s.posts := rfl
@[simp] theorem State.setStrand_lq : (s.setStrand k x).lq = s.lq := rfl
@[simp] theorem State.setStrand_grids : (s.setStrand k x).grids = s.grids := rfl
@[simp] theorem State.setStrand_nextGrid : (s.setStrand k x).nextGrid = s.nextGrid := rfl
@[simp] theorem State.setStrand_pool : (s.setStrand k x).pool = s.pool := rfl
@[simp] theorem State.setStrand_ovfHead : (s.setStrand k x).ovfHead = s.ovfHead := rfl
@[simp] theorem State.setStrand_ovf : (s.setStrand k x).ovf = s.ovf := rfl
@[simp] theorem State.setStrand_ovfTold : (s.setStrand k x).ovfTold = s.ovfTold := rfl
@[simp] theorem State.setStrand_nbhds : (s.setStrand k x).nbhds = s.nbhds := rfl
@[simp] theorem State.setStrand_nextNbhd : (s.setStrand k x).nextNbhd = s.nextNbhd := rfl
@[simp] theorem State.setStrand_blocks : (s.setStrand k x).blocks = s.blocks := rfl
@[simp] theorem State.setStrand_nextBlock : (s.setStrand k x).nextBlock = s.nextBlock := rfl
@[simp] theorem State.setStrand_nextStrand : (s.setStrand k x).nextStrand = s.nextStrand := rfl
@[simp] theorem State.setStrand_offers : (s.setStrand k x).offers = s.offers := rfl
@[simp] theorem State.setStrand_lastClu : (s.setStrand k x).lastClu = s.lastClu := rfl
@[simp] theorem State.setStrand_packets : (s.setStrand k x).packets = s.packets := rfl
@[simp] theorem State.setStrand_arrivals : (s.setStrand k x).arrivals = s.arrivals := rfl
@[simp] theorem State.setStrand_replies : (s.setStrand k x).replies = s.replies := rfl
@[simp] theorem State.setStrand_tileOps : (s.setStrand k x).tileOps = s.tileOps := rfl
@[simp] theorem State.setStrand_copyQ : (s.setStrand k x).copyQ = s.copyQ := rfl
@[simp] theorem State.setStrand_gatherQ : (s.setStrand k x).gatherQ = s.gatherQ := rfl
@[simp] theorem State.setStrand_collQ : (s.setStrand k x).collQ = s.collQ := rfl
@[simp] theorem State.setStrand_matQ : (s.setStrand k x).matQ = s.matQ := rfl
@[simp] theorem State.setStrand_latches : (s.setStrand k x).latches = s.latches := rfl
@[simp] theorem State.setStrand_monitors : (s.setStrand k x).monitors = s.monitors := rfl
@[simp] theorem State.setStrand_fqPh : (s.setStrand k x).fqPh = s.fqPh := rfl
@[simp] theorem State.setStrand_fqBuf : (s.setStrand k x).fqBuf = s.fqBuf := rfl
@[simp] theorem State.setStrand_dbgBuf : (s.setStrand k x).dbgBuf = s.dbgBuf := rfl
@[simp] theorem State.setStrand_ttab : (s.setStrand k x).ttab = s.ttab := rfl
@[simp] theorem State.setStrand_ttDelay : (s.setStrand k x).ttDelay = s.ttDelay := rfl
@[simp] theorem State.setStrand_ttWait : (s.setStrand k x).ttWait = s.ttWait := rfl
@[simp] theorem State.setStrand_gangs : (s.setStrand k x).gangs = s.gangs := rfl
@[simp] theorem State.setStrand_markers : (s.setStrand k x).markers = s.markers := rfl
@[simp] theorem State.setStrand_asks : (s.setStrand k x).asks = s.asks := rfl
@[simp] theorem State.setStrand_outReqs : (s.setStrand k x).outReqs = s.outReqs := rfl
@[simp] theorem State.setStrand_nextReq : (s.setStrand k x).nextReq = s.nextReq := rfl
@[simp] theorem State.setStrand_replyCache : (s.setStrand k x).replyCache = s.replyCache := rfl
@[simp] theorem State.setStrand_downStns : (s.setStrand k x).downStns = s.downStns := rfl
@[simp] theorem State.setStrand_haloE : (s.setStrand k x).haloE = s.haloE := rfl
@[simp] theorem State.setStrand_haloHeld : (s.setStrand k x).haloHeld = s.haloHeld := rfl
@[simp] theorem State.setStrand_haloIn : (s.setStrand k x).haloIn = s.haloIn := rfl
@[simp] theorem State.setStrand_haloOut : (s.setStrand k x).haloOut = s.haloOut := rfl
@[simp] theorem State.setStrand_haloSeq : (s.setStrand k x).haloSeq = s.haloSeq := rfl
@[simp] theorem State.setStrand_zeniths : (s.setStrand k x).zeniths = s.zeniths := rfl
@[simp] theorem State.setStrand_podHeld : (s.setStrand k x).podHeld = s.podHeld := rfl
@[simp] theorem State.setStrand_crCache : (s.setStrand k x).crCache = s.crCache := rfl
@[simp] theorem State.setStrand_facCache : (s.setStrand k x).facCache = s.facCache := rfl
@[simp] theorem State.setStrand_reach : (s.setStrand k x).reach = s.reach := rfl
@[simp] theorem State.setStrand_chans : (s.setStrand k x).chans = s.chans := rfl
@[simp] theorem State.setStrand_resetting : (s.setStrand k x).resetting = s.resetting := rfl
@[simp] theorem State.setStrand_fwUp : (s.setStrand k x).fwUp = s.fwUp := rfl
@[simp] theorem State.setStrand_hostUp : (s.setStrand k x).hostUp = s.hostUp := rfl
@[simp] theorem State.setStrand_memOffered : (s.setStrand k x).memOffered = s.memOffered := rfl
@[simp] theorem State.setStrand_mhz : (s.setStrand k x).mhz = s.mhz := rfl
@[simp] theorem State.setStrand_mv : (s.setStrand k x).mv = s.mv := rfl
@[simp] theorem State.setStrand_stretches : (s.setStrand k x).stretches = s.stretches := rfl
@[simp] theorem State.setStrand_shPend : (s.setStrand k x).shPend = s.shPend := rfl
@[simp] theorem State.setStrand_prfCount : (s.setStrand k x).prfCount = s.prfCount := rfl
end

/-! ### A strand changed -/

section
variable (k : Nat) (f : Strand → Strand)
@[simp] theorem State.modStrand_tick : (s.modStrand k f).tick = s.tick := rfl
@[simp] theorem State.modStrand_ptime : (s.modStrand k f).ptime = s.ptime := rfl
@[simp] theorem State.modStrand_slew : (s.modStrand k f).slew = s.slew := rfl
@[simp] theorem State.modStrand_clock : (s.modStrand k f).clock = s.clock := rfl
@[simp] theorem State.modStrand_cur : (s.modStrand k f).cur = s.cur := rfl
@[simp] theorem State.modStrand_notReady : (s.modStrand k f).notReady = s.notReady := rfl
@[simp] theorem State.modStrand_inputs : (s.modStrand k f).inputs = s.inputs := rfl
@[simp] theorem State.modStrand_abroad : (s.modStrand k f).abroad = s.abroad := rfl
@[simp] theorem State.modStrand_strikes : (s.modStrand k f).strikes = s.strikes := rfl
@[simp] theorem State.modStrand_outbox : (s.modStrand k f).outbox = s.outbox := rfl
@[simp] theorem State.modStrand_mem : (s.modStrand k f).mem = s.mem := rfl
@[simp] theorem State.modStrand_host : (s.modStrand k f).host = s.host := rfl
@[simp] theorem State.modStrand_remote : (s.modStrand k f).remote = s.remote := rfl
@[simp] theorem State.modStrand_bar4 : (s.modStrand k f).bar4 = s.bar4 := rfl
@[simp] theorem State.modStrand_spads : (s.modStrand k f).spads = s.spads := rfl
@[simp] theorem State.modStrand_spadErr : (s.modStrand k f).spadErr = s.spadErr := rfl
@[simp] theorem State.modStrand_dbgMem : (s.modStrand k f).dbgMem = s.dbgMem := rfl
@[simp] theorem State.modStrand_oldLines : (s.modStrand k f).oldLines = s.oldLines := rfl
@[simp] theorem State.modStrand_retLines : (s.modStrand k f).retLines = s.retLines := rfl
@[simp] theorem State.modStrand_hostErr : (s.modStrand k f).hostErr = s.hostErr := rfl
@[simp] theorem State.modStrand_lags : (s.modStrand k f).lags = s.lags := rfl
@[simp] theorem State.modStrand_smUnits : (s.modStrand k f).smUnits = s.smUnits := rfl
@[simp] theorem State.modStrand_smCopies : (s.modStrand k f).smCopies = s.smCopies := rfl
@[simp] theorem State.modStrand_dir : (s.modStrand k f).dir = s.dir := rfl
@[simp] theorem State.modStrand_dirUnits : (s.modStrand k f).dirUnits = s.dirUnits := rfl
@[simp] theorem State.modStrand_tlb : (s.modStrand k f).tlb = s.tlb := rfl
@[simp] theorem State.modStrand_walked : (s.modStrand k f).walked = s.walked := rfl
@[simp] theorem State.modStrand_icache : (s.modStrand k f).icache = s.icache := rfl
@[simp] theorem State.modStrand_recCache : (s.modStrand k f).recCache = s.recCache := rfl
@[simp] theorem State.modStrand_regs : (s.modStrand k f).regs = s.regs := rfl
@[simp] theorem State.modStrand_pendStore : (s.modStrand k f).pendStore = s.pendStore := rfl
@[simp] theorem State.modStrand_ctxs : (s.modStrand k f).ctxs = s.ctxs := rfl
@[simp] theorem State.modStrand_switching : (s.modStrand k f).switching = s.switching := rfl
@[simp] theorem State.modStrand_revoked : (s.modStrand k f).revoked = s.revoked := rfl
@[simp] theorem State.modStrand_queues : (s.modStrand k f).queues = s.queues := rfl
@[simp] theorem State.modStrand_posts : (s.modStrand k f).posts = s.posts := rfl
@[simp] theorem State.modStrand_lq : (s.modStrand k f).lq = s.lq := rfl
@[simp] theorem State.modStrand_grids : (s.modStrand k f).grids = s.grids := rfl
@[simp] theorem State.modStrand_nextGrid : (s.modStrand k f).nextGrid = s.nextGrid := rfl
@[simp] theorem State.modStrand_pool : (s.modStrand k f).pool = s.pool := rfl
@[simp] theorem State.modStrand_ovfHead : (s.modStrand k f).ovfHead = s.ovfHead := rfl
@[simp] theorem State.modStrand_ovf : (s.modStrand k f).ovf = s.ovf := rfl
@[simp] theorem State.modStrand_ovfTold : (s.modStrand k f).ovfTold = s.ovfTold := rfl
@[simp] theorem State.modStrand_nbhds : (s.modStrand k f).nbhds = s.nbhds := rfl
@[simp] theorem State.modStrand_nextNbhd : (s.modStrand k f).nextNbhd = s.nextNbhd := rfl
@[simp] theorem State.modStrand_blocks : (s.modStrand k f).blocks = s.blocks := rfl
@[simp] theorem State.modStrand_nextBlock : (s.modStrand k f).nextBlock = s.nextBlock := rfl
@[simp] theorem State.modStrand_nextStrand : (s.modStrand k f).nextStrand = s.nextStrand := rfl
@[simp] theorem State.modStrand_offers : (s.modStrand k f).offers = s.offers := rfl
@[simp] theorem State.modStrand_lastClu : (s.modStrand k f).lastClu = s.lastClu := rfl
@[simp] theorem State.modStrand_packets : (s.modStrand k f).packets = s.packets := rfl
@[simp] theorem State.modStrand_arrivals : (s.modStrand k f).arrivals = s.arrivals := rfl
@[simp] theorem State.modStrand_replies : (s.modStrand k f).replies = s.replies := rfl
@[simp] theorem State.modStrand_tileOps : (s.modStrand k f).tileOps = s.tileOps := rfl
@[simp] theorem State.modStrand_copyQ : (s.modStrand k f).copyQ = s.copyQ := rfl
@[simp] theorem State.modStrand_gatherQ : (s.modStrand k f).gatherQ = s.gatherQ := rfl
@[simp] theorem State.modStrand_collQ : (s.modStrand k f).collQ = s.collQ := rfl
@[simp] theorem State.modStrand_matQ : (s.modStrand k f).matQ = s.matQ := rfl
@[simp] theorem State.modStrand_latches : (s.modStrand k f).latches = s.latches := rfl
@[simp] theorem State.modStrand_monitors : (s.modStrand k f).monitors = s.monitors := rfl
@[simp] theorem State.modStrand_fqPh : (s.modStrand k f).fqPh = s.fqPh := rfl
@[simp] theorem State.modStrand_fqBuf : (s.modStrand k f).fqBuf = s.fqBuf := rfl
@[simp] theorem State.modStrand_dbgBuf : (s.modStrand k f).dbgBuf = s.dbgBuf := rfl
@[simp] theorem State.modStrand_ttab : (s.modStrand k f).ttab = s.ttab := rfl
@[simp] theorem State.modStrand_ttDelay : (s.modStrand k f).ttDelay = s.ttDelay := rfl
@[simp] theorem State.modStrand_ttWait : (s.modStrand k f).ttWait = s.ttWait := rfl
@[simp] theorem State.modStrand_gangs : (s.modStrand k f).gangs = s.gangs := rfl
@[simp] theorem State.modStrand_markers : (s.modStrand k f).markers = s.markers := rfl
@[simp] theorem State.modStrand_asks : (s.modStrand k f).asks = s.asks := rfl
@[simp] theorem State.modStrand_outReqs : (s.modStrand k f).outReqs = s.outReqs := rfl
@[simp] theorem State.modStrand_nextReq : (s.modStrand k f).nextReq = s.nextReq := rfl
@[simp] theorem State.modStrand_replyCache : (s.modStrand k f).replyCache = s.replyCache := rfl
@[simp] theorem State.modStrand_downStns : (s.modStrand k f).downStns = s.downStns := rfl
@[simp] theorem State.modStrand_haloE : (s.modStrand k f).haloE = s.haloE := rfl
@[simp] theorem State.modStrand_haloHeld : (s.modStrand k f).haloHeld = s.haloHeld := rfl
@[simp] theorem State.modStrand_haloIn : (s.modStrand k f).haloIn = s.haloIn := rfl
@[simp] theorem State.modStrand_haloOut : (s.modStrand k f).haloOut = s.haloOut := rfl
@[simp] theorem State.modStrand_haloSeq : (s.modStrand k f).haloSeq = s.haloSeq := rfl
@[simp] theorem State.modStrand_zeniths : (s.modStrand k f).zeniths = s.zeniths := rfl
@[simp] theorem State.modStrand_podHeld : (s.modStrand k f).podHeld = s.podHeld := rfl
@[simp] theorem State.modStrand_crCache : (s.modStrand k f).crCache = s.crCache := rfl
@[simp] theorem State.modStrand_facCache : (s.modStrand k f).facCache = s.facCache := rfl
@[simp] theorem State.modStrand_reach : (s.modStrand k f).reach = s.reach := rfl
@[simp] theorem State.modStrand_chans : (s.modStrand k f).chans = s.chans := rfl
@[simp] theorem State.modStrand_resetting : (s.modStrand k f).resetting = s.resetting := rfl
@[simp] theorem State.modStrand_fwUp : (s.modStrand k f).fwUp = s.fwUp := rfl
@[simp] theorem State.modStrand_hostUp : (s.modStrand k f).hostUp = s.hostUp := rfl
@[simp] theorem State.modStrand_memOffered : (s.modStrand k f).memOffered = s.memOffered := rfl
@[simp] theorem State.modStrand_mhz : (s.modStrand k f).mhz = s.mhz := rfl
@[simp] theorem State.modStrand_mv : (s.modStrand k f).mv = s.mv := rfl
@[simp] theorem State.modStrand_stretches : (s.modStrand k f).stretches = s.stretches := rfl
@[simp] theorem State.modStrand_shPend : (s.modStrand k f).shPend = s.shPend := rfl
@[simp] theorem State.modStrand_prfCount : (s.modStrand k f).prfCount = s.prfCount := rfl
end

/-! ### A block changed -/

section
variable (k : Nat) (f : Block → Block)
@[simp] theorem State.modBlock_tick : (s.modBlock k f).tick = s.tick := rfl
@[simp] theorem State.modBlock_ptime : (s.modBlock k f).ptime = s.ptime := rfl
@[simp] theorem State.modBlock_slew : (s.modBlock k f).slew = s.slew := rfl
@[simp] theorem State.modBlock_clock : (s.modBlock k f).clock = s.clock := rfl
@[simp] theorem State.modBlock_cur : (s.modBlock k f).cur = s.cur := rfl
@[simp] theorem State.modBlock_notReady : (s.modBlock k f).notReady = s.notReady := rfl
@[simp] theorem State.modBlock_inputs : (s.modBlock k f).inputs = s.inputs := rfl
@[simp] theorem State.modBlock_abroad : (s.modBlock k f).abroad = s.abroad := rfl
@[simp] theorem State.modBlock_strikes : (s.modBlock k f).strikes = s.strikes := rfl
@[simp] theorem State.modBlock_outbox : (s.modBlock k f).outbox = s.outbox := rfl
@[simp] theorem State.modBlock_mem : (s.modBlock k f).mem = s.mem := rfl
@[simp] theorem State.modBlock_host : (s.modBlock k f).host = s.host := rfl
@[simp] theorem State.modBlock_remote : (s.modBlock k f).remote = s.remote := rfl
@[simp] theorem State.modBlock_bar4 : (s.modBlock k f).bar4 = s.bar4 := rfl
@[simp] theorem State.modBlock_spads : (s.modBlock k f).spads = s.spads := rfl
@[simp] theorem State.modBlock_spadErr : (s.modBlock k f).spadErr = s.spadErr := rfl
@[simp] theorem State.modBlock_dbgMem : (s.modBlock k f).dbgMem = s.dbgMem := rfl
@[simp] theorem State.modBlock_oldLines : (s.modBlock k f).oldLines = s.oldLines := rfl
@[simp] theorem State.modBlock_retLines : (s.modBlock k f).retLines = s.retLines := rfl
@[simp] theorem State.modBlock_hostErr : (s.modBlock k f).hostErr = s.hostErr := rfl
@[simp] theorem State.modBlock_lags : (s.modBlock k f).lags = s.lags := rfl
@[simp] theorem State.modBlock_smUnits : (s.modBlock k f).smUnits = s.smUnits := rfl
@[simp] theorem State.modBlock_smCopies : (s.modBlock k f).smCopies = s.smCopies := rfl
@[simp] theorem State.modBlock_dir : (s.modBlock k f).dir = s.dir := rfl
@[simp] theorem State.modBlock_dirUnits : (s.modBlock k f).dirUnits = s.dirUnits := rfl
@[simp] theorem State.modBlock_tlb : (s.modBlock k f).tlb = s.tlb := rfl
@[simp] theorem State.modBlock_walked : (s.modBlock k f).walked = s.walked := rfl
@[simp] theorem State.modBlock_icache : (s.modBlock k f).icache = s.icache := rfl
@[simp] theorem State.modBlock_recCache : (s.modBlock k f).recCache = s.recCache := rfl
@[simp] theorem State.modBlock_regs : (s.modBlock k f).regs = s.regs := rfl
@[simp] theorem State.modBlock_pendStore : (s.modBlock k f).pendStore = s.pendStore := rfl
@[simp] theorem State.modBlock_ctxs : (s.modBlock k f).ctxs = s.ctxs := rfl
@[simp] theorem State.modBlock_switching : (s.modBlock k f).switching = s.switching := rfl
@[simp] theorem State.modBlock_revoked : (s.modBlock k f).revoked = s.revoked := rfl
@[simp] theorem State.modBlock_queues : (s.modBlock k f).queues = s.queues := rfl
@[simp] theorem State.modBlock_posts : (s.modBlock k f).posts = s.posts := rfl
@[simp] theorem State.modBlock_lq : (s.modBlock k f).lq = s.lq := rfl
@[simp] theorem State.modBlock_grids : (s.modBlock k f).grids = s.grids := rfl
@[simp] theorem State.modBlock_nextGrid : (s.modBlock k f).nextGrid = s.nextGrid := rfl
@[simp] theorem State.modBlock_pool : (s.modBlock k f).pool = s.pool := rfl
@[simp] theorem State.modBlock_ovfHead : (s.modBlock k f).ovfHead = s.ovfHead := rfl
@[simp] theorem State.modBlock_ovf : (s.modBlock k f).ovf = s.ovf := rfl
@[simp] theorem State.modBlock_ovfTold : (s.modBlock k f).ovfTold = s.ovfTold := rfl
@[simp] theorem State.modBlock_nbhds : (s.modBlock k f).nbhds = s.nbhds := rfl
@[simp] theorem State.modBlock_nextNbhd : (s.modBlock k f).nextNbhd = s.nextNbhd := rfl
@[simp] theorem State.modBlock_nextBlock : (s.modBlock k f).nextBlock = s.nextBlock := rfl
@[simp] theorem State.modBlock_strands : (s.modBlock k f).strands = s.strands := rfl
@[simp] theorem State.modBlock_nextStrand : (s.modBlock k f).nextStrand = s.nextStrand := rfl
@[simp] theorem State.modBlock_offers : (s.modBlock k f).offers = s.offers := rfl
@[simp] theorem State.modBlock_lastClu : (s.modBlock k f).lastClu = s.lastClu := rfl
@[simp] theorem State.modBlock_packets : (s.modBlock k f).packets = s.packets := rfl
@[simp] theorem State.modBlock_arrivals : (s.modBlock k f).arrivals = s.arrivals := rfl
@[simp] theorem State.modBlock_replies : (s.modBlock k f).replies = s.replies := rfl
@[simp] theorem State.modBlock_tileOps : (s.modBlock k f).tileOps = s.tileOps := rfl
@[simp] theorem State.modBlock_copyQ : (s.modBlock k f).copyQ = s.copyQ := rfl
@[simp] theorem State.modBlock_gatherQ : (s.modBlock k f).gatherQ = s.gatherQ := rfl
@[simp] theorem State.modBlock_collQ : (s.modBlock k f).collQ = s.collQ := rfl
@[simp] theorem State.modBlock_matQ : (s.modBlock k f).matQ = s.matQ := rfl
@[simp] theorem State.modBlock_latches : (s.modBlock k f).latches = s.latches := rfl
@[simp] theorem State.modBlock_monitors : (s.modBlock k f).monitors = s.monitors := rfl
@[simp] theorem State.modBlock_fqPh : (s.modBlock k f).fqPh = s.fqPh := rfl
@[simp] theorem State.modBlock_fqBuf : (s.modBlock k f).fqBuf = s.fqBuf := rfl
@[simp] theorem State.modBlock_dbgBuf : (s.modBlock k f).dbgBuf = s.dbgBuf := rfl
@[simp] theorem State.modBlock_ttab : (s.modBlock k f).ttab = s.ttab := rfl
@[simp] theorem State.modBlock_ttDelay : (s.modBlock k f).ttDelay = s.ttDelay := rfl
@[simp] theorem State.modBlock_ttWait : (s.modBlock k f).ttWait = s.ttWait := rfl
@[simp] theorem State.modBlock_gangs : (s.modBlock k f).gangs = s.gangs := rfl
@[simp] theorem State.modBlock_markers : (s.modBlock k f).markers = s.markers := rfl
@[simp] theorem State.modBlock_asks : (s.modBlock k f).asks = s.asks := rfl
@[simp] theorem State.modBlock_outReqs : (s.modBlock k f).outReqs = s.outReqs := rfl
@[simp] theorem State.modBlock_nextReq : (s.modBlock k f).nextReq = s.nextReq := rfl
@[simp] theorem State.modBlock_replyCache : (s.modBlock k f).replyCache = s.replyCache := rfl
@[simp] theorem State.modBlock_downStns : (s.modBlock k f).downStns = s.downStns := rfl
@[simp] theorem State.modBlock_haloE : (s.modBlock k f).haloE = s.haloE := rfl
@[simp] theorem State.modBlock_haloHeld : (s.modBlock k f).haloHeld = s.haloHeld := rfl
@[simp] theorem State.modBlock_haloIn : (s.modBlock k f).haloIn = s.haloIn := rfl
@[simp] theorem State.modBlock_haloOut : (s.modBlock k f).haloOut = s.haloOut := rfl
@[simp] theorem State.modBlock_haloSeq : (s.modBlock k f).haloSeq = s.haloSeq := rfl
@[simp] theorem State.modBlock_zeniths : (s.modBlock k f).zeniths = s.zeniths := rfl
@[simp] theorem State.modBlock_podHeld : (s.modBlock k f).podHeld = s.podHeld := rfl
@[simp] theorem State.modBlock_crCache : (s.modBlock k f).crCache = s.crCache := rfl
@[simp] theorem State.modBlock_facCache : (s.modBlock k f).facCache = s.facCache := rfl
@[simp] theorem State.modBlock_reach : (s.modBlock k f).reach = s.reach := rfl
@[simp] theorem State.modBlock_chans : (s.modBlock k f).chans = s.chans := rfl
@[simp] theorem State.modBlock_resetting : (s.modBlock k f).resetting = s.resetting := rfl
@[simp] theorem State.modBlock_fwUp : (s.modBlock k f).fwUp = s.fwUp := rfl
@[simp] theorem State.modBlock_hostUp : (s.modBlock k f).hostUp = s.hostUp := rfl
@[simp] theorem State.modBlock_memOffered : (s.modBlock k f).memOffered = s.memOffered := rfl
@[simp] theorem State.modBlock_mhz : (s.modBlock k f).mhz = s.mhz := rfl
@[simp] theorem State.modBlock_mv : (s.modBlock k f).mv = s.mv := rfl
@[simp] theorem State.modBlock_stretches : (s.modBlock k f).stretches = s.stretches := rfl
@[simp] theorem State.modBlock_shPend : (s.modBlock k f).shPend = s.shPend := rfl
@[simp] theorem State.modBlock_prfCount : (s.modBlock k f).prfCount = s.prfCount := rfl
end

/-! ### A grid changed -/

section
variable (k : Nat) (f : Grid → Grid)
@[simp] theorem State.modGrid_tick : (s.modGrid k f).tick = s.tick := rfl
@[simp] theorem State.modGrid_ptime : (s.modGrid k f).ptime = s.ptime := rfl
@[simp] theorem State.modGrid_slew : (s.modGrid k f).slew = s.slew := rfl
@[simp] theorem State.modGrid_clock : (s.modGrid k f).clock = s.clock := rfl
@[simp] theorem State.modGrid_cur : (s.modGrid k f).cur = s.cur := rfl
@[simp] theorem State.modGrid_notReady : (s.modGrid k f).notReady = s.notReady := rfl
@[simp] theorem State.modGrid_inputs : (s.modGrid k f).inputs = s.inputs := rfl
@[simp] theorem State.modGrid_abroad : (s.modGrid k f).abroad = s.abroad := rfl
@[simp] theorem State.modGrid_strikes : (s.modGrid k f).strikes = s.strikes := rfl
@[simp] theorem State.modGrid_outbox : (s.modGrid k f).outbox = s.outbox := rfl
@[simp] theorem State.modGrid_mem : (s.modGrid k f).mem = s.mem := rfl
@[simp] theorem State.modGrid_host : (s.modGrid k f).host = s.host := rfl
@[simp] theorem State.modGrid_remote : (s.modGrid k f).remote = s.remote := rfl
@[simp] theorem State.modGrid_bar4 : (s.modGrid k f).bar4 = s.bar4 := rfl
@[simp] theorem State.modGrid_spads : (s.modGrid k f).spads = s.spads := rfl
@[simp] theorem State.modGrid_spadErr : (s.modGrid k f).spadErr = s.spadErr := rfl
@[simp] theorem State.modGrid_dbgMem : (s.modGrid k f).dbgMem = s.dbgMem := rfl
@[simp] theorem State.modGrid_oldLines : (s.modGrid k f).oldLines = s.oldLines := rfl
@[simp] theorem State.modGrid_retLines : (s.modGrid k f).retLines = s.retLines := rfl
@[simp] theorem State.modGrid_hostErr : (s.modGrid k f).hostErr = s.hostErr := rfl
@[simp] theorem State.modGrid_lags : (s.modGrid k f).lags = s.lags := rfl
@[simp] theorem State.modGrid_smUnits : (s.modGrid k f).smUnits = s.smUnits := rfl
@[simp] theorem State.modGrid_smCopies : (s.modGrid k f).smCopies = s.smCopies := rfl
@[simp] theorem State.modGrid_dir : (s.modGrid k f).dir = s.dir := rfl
@[simp] theorem State.modGrid_dirUnits : (s.modGrid k f).dirUnits = s.dirUnits := rfl
@[simp] theorem State.modGrid_tlb : (s.modGrid k f).tlb = s.tlb := rfl
@[simp] theorem State.modGrid_walked : (s.modGrid k f).walked = s.walked := rfl
@[simp] theorem State.modGrid_icache : (s.modGrid k f).icache = s.icache := rfl
@[simp] theorem State.modGrid_recCache : (s.modGrid k f).recCache = s.recCache := rfl
@[simp] theorem State.modGrid_regs : (s.modGrid k f).regs = s.regs := rfl
@[simp] theorem State.modGrid_pendStore : (s.modGrid k f).pendStore = s.pendStore := rfl
@[simp] theorem State.modGrid_ctxs : (s.modGrid k f).ctxs = s.ctxs := rfl
@[simp] theorem State.modGrid_switching : (s.modGrid k f).switching = s.switching := rfl
@[simp] theorem State.modGrid_revoked : (s.modGrid k f).revoked = s.revoked := rfl
@[simp] theorem State.modGrid_queues : (s.modGrid k f).queues = s.queues := rfl
@[simp] theorem State.modGrid_posts : (s.modGrid k f).posts = s.posts := rfl
@[simp] theorem State.modGrid_lq : (s.modGrid k f).lq = s.lq := rfl
@[simp] theorem State.modGrid_nextGrid : (s.modGrid k f).nextGrid = s.nextGrid := rfl
@[simp] theorem State.modGrid_pool : (s.modGrid k f).pool = s.pool := rfl
@[simp] theorem State.modGrid_ovfHead : (s.modGrid k f).ovfHead = s.ovfHead := rfl
@[simp] theorem State.modGrid_ovf : (s.modGrid k f).ovf = s.ovf := rfl
@[simp] theorem State.modGrid_ovfTold : (s.modGrid k f).ovfTold = s.ovfTold := rfl
@[simp] theorem State.modGrid_nbhds : (s.modGrid k f).nbhds = s.nbhds := rfl
@[simp] theorem State.modGrid_nextNbhd : (s.modGrid k f).nextNbhd = s.nextNbhd := rfl
@[simp] theorem State.modGrid_blocks : (s.modGrid k f).blocks = s.blocks := rfl
@[simp] theorem State.modGrid_nextBlock : (s.modGrid k f).nextBlock = s.nextBlock := rfl
@[simp] theorem State.modGrid_strands : (s.modGrid k f).strands = s.strands := rfl
@[simp] theorem State.modGrid_nextStrand : (s.modGrid k f).nextStrand = s.nextStrand := rfl
@[simp] theorem State.modGrid_offers : (s.modGrid k f).offers = s.offers := rfl
@[simp] theorem State.modGrid_lastClu : (s.modGrid k f).lastClu = s.lastClu := rfl
@[simp] theorem State.modGrid_packets : (s.modGrid k f).packets = s.packets := rfl
@[simp] theorem State.modGrid_arrivals : (s.modGrid k f).arrivals = s.arrivals := rfl
@[simp] theorem State.modGrid_replies : (s.modGrid k f).replies = s.replies := rfl
@[simp] theorem State.modGrid_tileOps : (s.modGrid k f).tileOps = s.tileOps := rfl
@[simp] theorem State.modGrid_copyQ : (s.modGrid k f).copyQ = s.copyQ := rfl
@[simp] theorem State.modGrid_gatherQ : (s.modGrid k f).gatherQ = s.gatherQ := rfl
@[simp] theorem State.modGrid_collQ : (s.modGrid k f).collQ = s.collQ := rfl
@[simp] theorem State.modGrid_matQ : (s.modGrid k f).matQ = s.matQ := rfl
@[simp] theorem State.modGrid_latches : (s.modGrid k f).latches = s.latches := rfl
@[simp] theorem State.modGrid_monitors : (s.modGrid k f).monitors = s.monitors := rfl
@[simp] theorem State.modGrid_fqPh : (s.modGrid k f).fqPh = s.fqPh := rfl
@[simp] theorem State.modGrid_fqBuf : (s.modGrid k f).fqBuf = s.fqBuf := rfl
@[simp] theorem State.modGrid_dbgBuf : (s.modGrid k f).dbgBuf = s.dbgBuf := rfl
@[simp] theorem State.modGrid_ttab : (s.modGrid k f).ttab = s.ttab := rfl
@[simp] theorem State.modGrid_ttDelay : (s.modGrid k f).ttDelay = s.ttDelay := rfl
@[simp] theorem State.modGrid_ttWait : (s.modGrid k f).ttWait = s.ttWait := rfl
@[simp] theorem State.modGrid_gangs : (s.modGrid k f).gangs = s.gangs := rfl
@[simp] theorem State.modGrid_markers : (s.modGrid k f).markers = s.markers := rfl
@[simp] theorem State.modGrid_asks : (s.modGrid k f).asks = s.asks := rfl
@[simp] theorem State.modGrid_outReqs : (s.modGrid k f).outReqs = s.outReqs := rfl
@[simp] theorem State.modGrid_nextReq : (s.modGrid k f).nextReq = s.nextReq := rfl
@[simp] theorem State.modGrid_replyCache : (s.modGrid k f).replyCache = s.replyCache := rfl
@[simp] theorem State.modGrid_downStns : (s.modGrid k f).downStns = s.downStns := rfl
@[simp] theorem State.modGrid_haloE : (s.modGrid k f).haloE = s.haloE := rfl
@[simp] theorem State.modGrid_haloHeld : (s.modGrid k f).haloHeld = s.haloHeld := rfl
@[simp] theorem State.modGrid_haloIn : (s.modGrid k f).haloIn = s.haloIn := rfl
@[simp] theorem State.modGrid_haloOut : (s.modGrid k f).haloOut = s.haloOut := rfl
@[simp] theorem State.modGrid_haloSeq : (s.modGrid k f).haloSeq = s.haloSeq := rfl
@[simp] theorem State.modGrid_zeniths : (s.modGrid k f).zeniths = s.zeniths := rfl
@[simp] theorem State.modGrid_podHeld : (s.modGrid k f).podHeld = s.podHeld := rfl
@[simp] theorem State.modGrid_crCache : (s.modGrid k f).crCache = s.crCache := rfl
@[simp] theorem State.modGrid_facCache : (s.modGrid k f).facCache = s.facCache := rfl
@[simp] theorem State.modGrid_reach : (s.modGrid k f).reach = s.reach := rfl
@[simp] theorem State.modGrid_chans : (s.modGrid k f).chans = s.chans := rfl
@[simp] theorem State.modGrid_resetting : (s.modGrid k f).resetting = s.resetting := rfl
@[simp] theorem State.modGrid_fwUp : (s.modGrid k f).fwUp = s.fwUp := rfl
@[simp] theorem State.modGrid_hostUp : (s.modGrid k f).hostUp = s.hostUp := rfl
@[simp] theorem State.modGrid_memOffered : (s.modGrid k f).memOffered = s.memOffered := rfl
@[simp] theorem State.modGrid_mhz : (s.modGrid k f).mhz = s.mhz := rfl
@[simp] theorem State.modGrid_mv : (s.modGrid k f).mv = s.mv := rfl
@[simp] theorem State.modGrid_stretches : (s.modGrid k f).stretches = s.stretches := rfl
@[simp] theorem State.modGrid_shPend : (s.modGrid k f).shPend = s.shPend := rfl
@[simp] theorem State.modGrid_prfCount : (s.modGrid k f).prfCount = s.prfCount := rfl
end

/-! ### A neighbourhood changed -/

section
variable (k : Nat) (f : Nbhd → Nbhd)
@[simp] theorem State.modNbhd_tick : (s.modNbhd k f).tick = s.tick := rfl
@[simp] theorem State.modNbhd_ptime : (s.modNbhd k f).ptime = s.ptime := rfl
@[simp] theorem State.modNbhd_slew : (s.modNbhd k f).slew = s.slew := rfl
@[simp] theorem State.modNbhd_clock : (s.modNbhd k f).clock = s.clock := rfl
@[simp] theorem State.modNbhd_cur : (s.modNbhd k f).cur = s.cur := rfl
@[simp] theorem State.modNbhd_notReady : (s.modNbhd k f).notReady = s.notReady := rfl
@[simp] theorem State.modNbhd_inputs : (s.modNbhd k f).inputs = s.inputs := rfl
@[simp] theorem State.modNbhd_abroad : (s.modNbhd k f).abroad = s.abroad := rfl
@[simp] theorem State.modNbhd_strikes : (s.modNbhd k f).strikes = s.strikes := rfl
@[simp] theorem State.modNbhd_outbox : (s.modNbhd k f).outbox = s.outbox := rfl
@[simp] theorem State.modNbhd_mem : (s.modNbhd k f).mem = s.mem := rfl
@[simp] theorem State.modNbhd_host : (s.modNbhd k f).host = s.host := rfl
@[simp] theorem State.modNbhd_remote : (s.modNbhd k f).remote = s.remote := rfl
@[simp] theorem State.modNbhd_bar4 : (s.modNbhd k f).bar4 = s.bar4 := rfl
@[simp] theorem State.modNbhd_spads : (s.modNbhd k f).spads = s.spads := rfl
@[simp] theorem State.modNbhd_spadErr : (s.modNbhd k f).spadErr = s.spadErr := rfl
@[simp] theorem State.modNbhd_dbgMem : (s.modNbhd k f).dbgMem = s.dbgMem := rfl
@[simp] theorem State.modNbhd_oldLines : (s.modNbhd k f).oldLines = s.oldLines := rfl
@[simp] theorem State.modNbhd_retLines : (s.modNbhd k f).retLines = s.retLines := rfl
@[simp] theorem State.modNbhd_hostErr : (s.modNbhd k f).hostErr = s.hostErr := rfl
@[simp] theorem State.modNbhd_lags : (s.modNbhd k f).lags = s.lags := rfl
@[simp] theorem State.modNbhd_smUnits : (s.modNbhd k f).smUnits = s.smUnits := rfl
@[simp] theorem State.modNbhd_smCopies : (s.modNbhd k f).smCopies = s.smCopies := rfl
@[simp] theorem State.modNbhd_dir : (s.modNbhd k f).dir = s.dir := rfl
@[simp] theorem State.modNbhd_dirUnits : (s.modNbhd k f).dirUnits = s.dirUnits := rfl
@[simp] theorem State.modNbhd_tlb : (s.modNbhd k f).tlb = s.tlb := rfl
@[simp] theorem State.modNbhd_walked : (s.modNbhd k f).walked = s.walked := rfl
@[simp] theorem State.modNbhd_icache : (s.modNbhd k f).icache = s.icache := rfl
@[simp] theorem State.modNbhd_recCache : (s.modNbhd k f).recCache = s.recCache := rfl
@[simp] theorem State.modNbhd_regs : (s.modNbhd k f).regs = s.regs := rfl
@[simp] theorem State.modNbhd_pendStore : (s.modNbhd k f).pendStore = s.pendStore := rfl
@[simp] theorem State.modNbhd_ctxs : (s.modNbhd k f).ctxs = s.ctxs := rfl
@[simp] theorem State.modNbhd_switching : (s.modNbhd k f).switching = s.switching := rfl
@[simp] theorem State.modNbhd_revoked : (s.modNbhd k f).revoked = s.revoked := rfl
@[simp] theorem State.modNbhd_queues : (s.modNbhd k f).queues = s.queues := rfl
@[simp] theorem State.modNbhd_posts : (s.modNbhd k f).posts = s.posts := rfl
@[simp] theorem State.modNbhd_lq : (s.modNbhd k f).lq = s.lq := rfl
@[simp] theorem State.modNbhd_grids : (s.modNbhd k f).grids = s.grids := rfl
@[simp] theorem State.modNbhd_nextGrid : (s.modNbhd k f).nextGrid = s.nextGrid := rfl
@[simp] theorem State.modNbhd_pool : (s.modNbhd k f).pool = s.pool := rfl
@[simp] theorem State.modNbhd_ovfHead : (s.modNbhd k f).ovfHead = s.ovfHead := rfl
@[simp] theorem State.modNbhd_ovf : (s.modNbhd k f).ovf = s.ovf := rfl
@[simp] theorem State.modNbhd_ovfTold : (s.modNbhd k f).ovfTold = s.ovfTold := rfl
@[simp] theorem State.modNbhd_nextNbhd : (s.modNbhd k f).nextNbhd = s.nextNbhd := rfl
@[simp] theorem State.modNbhd_blocks : (s.modNbhd k f).blocks = s.blocks := rfl
@[simp] theorem State.modNbhd_nextBlock : (s.modNbhd k f).nextBlock = s.nextBlock := rfl
@[simp] theorem State.modNbhd_strands : (s.modNbhd k f).strands = s.strands := rfl
@[simp] theorem State.modNbhd_nextStrand : (s.modNbhd k f).nextStrand = s.nextStrand := rfl
@[simp] theorem State.modNbhd_offers : (s.modNbhd k f).offers = s.offers := rfl
@[simp] theorem State.modNbhd_lastClu : (s.modNbhd k f).lastClu = s.lastClu := rfl
@[simp] theorem State.modNbhd_packets : (s.modNbhd k f).packets = s.packets := rfl
@[simp] theorem State.modNbhd_arrivals : (s.modNbhd k f).arrivals = s.arrivals := rfl
@[simp] theorem State.modNbhd_replies : (s.modNbhd k f).replies = s.replies := rfl
@[simp] theorem State.modNbhd_tileOps : (s.modNbhd k f).tileOps = s.tileOps := rfl
@[simp] theorem State.modNbhd_copyQ : (s.modNbhd k f).copyQ = s.copyQ := rfl
@[simp] theorem State.modNbhd_gatherQ : (s.modNbhd k f).gatherQ = s.gatherQ := rfl
@[simp] theorem State.modNbhd_collQ : (s.modNbhd k f).collQ = s.collQ := rfl
@[simp] theorem State.modNbhd_matQ : (s.modNbhd k f).matQ = s.matQ := rfl
@[simp] theorem State.modNbhd_latches : (s.modNbhd k f).latches = s.latches := rfl
@[simp] theorem State.modNbhd_monitors : (s.modNbhd k f).monitors = s.monitors := rfl
@[simp] theorem State.modNbhd_fqPh : (s.modNbhd k f).fqPh = s.fqPh := rfl
@[simp] theorem State.modNbhd_fqBuf : (s.modNbhd k f).fqBuf = s.fqBuf := rfl
@[simp] theorem State.modNbhd_dbgBuf : (s.modNbhd k f).dbgBuf = s.dbgBuf := rfl
@[simp] theorem State.modNbhd_ttab : (s.modNbhd k f).ttab = s.ttab := rfl
@[simp] theorem State.modNbhd_ttDelay : (s.modNbhd k f).ttDelay = s.ttDelay := rfl
@[simp] theorem State.modNbhd_ttWait : (s.modNbhd k f).ttWait = s.ttWait := rfl
@[simp] theorem State.modNbhd_gangs : (s.modNbhd k f).gangs = s.gangs := rfl
@[simp] theorem State.modNbhd_markers : (s.modNbhd k f).markers = s.markers := rfl
@[simp] theorem State.modNbhd_asks : (s.modNbhd k f).asks = s.asks := rfl
@[simp] theorem State.modNbhd_outReqs : (s.modNbhd k f).outReqs = s.outReqs := rfl
@[simp] theorem State.modNbhd_nextReq : (s.modNbhd k f).nextReq = s.nextReq := rfl
@[simp] theorem State.modNbhd_replyCache : (s.modNbhd k f).replyCache = s.replyCache := rfl
@[simp] theorem State.modNbhd_downStns : (s.modNbhd k f).downStns = s.downStns := rfl
@[simp] theorem State.modNbhd_haloE : (s.modNbhd k f).haloE = s.haloE := rfl
@[simp] theorem State.modNbhd_haloHeld : (s.modNbhd k f).haloHeld = s.haloHeld := rfl
@[simp] theorem State.modNbhd_haloIn : (s.modNbhd k f).haloIn = s.haloIn := rfl
@[simp] theorem State.modNbhd_haloOut : (s.modNbhd k f).haloOut = s.haloOut := rfl
@[simp] theorem State.modNbhd_haloSeq : (s.modNbhd k f).haloSeq = s.haloSeq := rfl
@[simp] theorem State.modNbhd_zeniths : (s.modNbhd k f).zeniths = s.zeniths := rfl
@[simp] theorem State.modNbhd_podHeld : (s.modNbhd k f).podHeld = s.podHeld := rfl
@[simp] theorem State.modNbhd_crCache : (s.modNbhd k f).crCache = s.crCache := rfl
@[simp] theorem State.modNbhd_facCache : (s.modNbhd k f).facCache = s.facCache := rfl
@[simp] theorem State.modNbhd_reach : (s.modNbhd k f).reach = s.reach := rfl
@[simp] theorem State.modNbhd_chans : (s.modNbhd k f).chans = s.chans := rfl
@[simp] theorem State.modNbhd_resetting : (s.modNbhd k f).resetting = s.resetting := rfl
@[simp] theorem State.modNbhd_fwUp : (s.modNbhd k f).fwUp = s.fwUp := rfl
@[simp] theorem State.modNbhd_hostUp : (s.modNbhd k f).hostUp = s.hostUp := rfl
@[simp] theorem State.modNbhd_memOffered : (s.modNbhd k f).memOffered = s.memOffered := rfl
@[simp] theorem State.modNbhd_mhz : (s.modNbhd k f).mhz = s.mhz := rfl
@[simp] theorem State.modNbhd_mv : (s.modNbhd k f).mv = s.mv := rfl
@[simp] theorem State.modNbhd_stretches : (s.modNbhd k f).stretches = s.stretches := rfl
@[simp] theorem State.modNbhd_shPend : (s.modNbhd k f).shPend = s.shPend := rfl
@[simp] theorem State.modNbhd_prfCount : (s.modNbhd k f).prfCount = s.prfCount := rfl
end

/-! ### A register stored -/

section
variable (k : RegId) (v : Dword)
@[simp] theorem State.setReg_tick : (s.setReg k v).tick = s.tick := rfl
@[simp] theorem State.setReg_ptime : (s.setReg k v).ptime = s.ptime := rfl
@[simp] theorem State.setReg_slew : (s.setReg k v).slew = s.slew := rfl
@[simp] theorem State.setReg_clock : (s.setReg k v).clock = s.clock := rfl
@[simp] theorem State.setReg_cur : (s.setReg k v).cur = s.cur := rfl
@[simp] theorem State.setReg_notReady : (s.setReg k v).notReady = s.notReady := rfl
@[simp] theorem State.setReg_inputs : (s.setReg k v).inputs = s.inputs := rfl
@[simp] theorem State.setReg_abroad : (s.setReg k v).abroad = s.abroad := rfl
@[simp] theorem State.setReg_strikes : (s.setReg k v).strikes = s.strikes := rfl
@[simp] theorem State.setReg_outbox : (s.setReg k v).outbox = s.outbox := rfl
@[simp] theorem State.setReg_mem : (s.setReg k v).mem = s.mem := rfl
@[simp] theorem State.setReg_host : (s.setReg k v).host = s.host := rfl
@[simp] theorem State.setReg_remote : (s.setReg k v).remote = s.remote := rfl
@[simp] theorem State.setReg_bar4 : (s.setReg k v).bar4 = s.bar4 := rfl
@[simp] theorem State.setReg_spads : (s.setReg k v).spads = s.spads := rfl
@[simp] theorem State.setReg_spadErr : (s.setReg k v).spadErr = s.spadErr := rfl
@[simp] theorem State.setReg_dbgMem : (s.setReg k v).dbgMem = s.dbgMem := rfl
@[simp] theorem State.setReg_oldLines : (s.setReg k v).oldLines = s.oldLines := rfl
@[simp] theorem State.setReg_retLines : (s.setReg k v).retLines = s.retLines := rfl
@[simp] theorem State.setReg_hostErr : (s.setReg k v).hostErr = s.hostErr := rfl
@[simp] theorem State.setReg_lags : (s.setReg k v).lags = s.lags := rfl
@[simp] theorem State.setReg_smUnits : (s.setReg k v).smUnits = s.smUnits := rfl
@[simp] theorem State.setReg_smCopies : (s.setReg k v).smCopies = s.smCopies := rfl
@[simp] theorem State.setReg_dir : (s.setReg k v).dir = s.dir := rfl
@[simp] theorem State.setReg_dirUnits : (s.setReg k v).dirUnits = s.dirUnits := rfl
@[simp] theorem State.setReg_tlb : (s.setReg k v).tlb = s.tlb := rfl
@[simp] theorem State.setReg_walked : (s.setReg k v).walked = s.walked := rfl
@[simp] theorem State.setReg_icache : (s.setReg k v).icache = s.icache := rfl
@[simp] theorem State.setReg_recCache : (s.setReg k v).recCache = s.recCache := rfl
@[simp] theorem State.setReg_pendStore : (s.setReg k v).pendStore = s.pendStore := rfl
@[simp] theorem State.setReg_ctxs : (s.setReg k v).ctxs = s.ctxs := rfl
@[simp] theorem State.setReg_switching : (s.setReg k v).switching = s.switching := rfl
@[simp] theorem State.setReg_revoked : (s.setReg k v).revoked = s.revoked := rfl
@[simp] theorem State.setReg_queues : (s.setReg k v).queues = s.queues := rfl
@[simp] theorem State.setReg_posts : (s.setReg k v).posts = s.posts := rfl
@[simp] theorem State.setReg_lq : (s.setReg k v).lq = s.lq := rfl
@[simp] theorem State.setReg_grids : (s.setReg k v).grids = s.grids := rfl
@[simp] theorem State.setReg_nextGrid : (s.setReg k v).nextGrid = s.nextGrid := rfl
@[simp] theorem State.setReg_pool : (s.setReg k v).pool = s.pool := rfl
@[simp] theorem State.setReg_ovfHead : (s.setReg k v).ovfHead = s.ovfHead := rfl
@[simp] theorem State.setReg_ovf : (s.setReg k v).ovf = s.ovf := rfl
@[simp] theorem State.setReg_ovfTold : (s.setReg k v).ovfTold = s.ovfTold := rfl
@[simp] theorem State.setReg_nbhds : (s.setReg k v).nbhds = s.nbhds := rfl
@[simp] theorem State.setReg_nextNbhd : (s.setReg k v).nextNbhd = s.nextNbhd := rfl
@[simp] theorem State.setReg_blocks : (s.setReg k v).blocks = s.blocks := rfl
@[simp] theorem State.setReg_nextBlock : (s.setReg k v).nextBlock = s.nextBlock := rfl
@[simp] theorem State.setReg_strands : (s.setReg k v).strands = s.strands := rfl
@[simp] theorem State.setReg_nextStrand : (s.setReg k v).nextStrand = s.nextStrand := rfl
@[simp] theorem State.setReg_offers : (s.setReg k v).offers = s.offers := rfl
@[simp] theorem State.setReg_lastClu : (s.setReg k v).lastClu = s.lastClu := rfl
@[simp] theorem State.setReg_packets : (s.setReg k v).packets = s.packets := rfl
@[simp] theorem State.setReg_arrivals : (s.setReg k v).arrivals = s.arrivals := rfl
@[simp] theorem State.setReg_replies : (s.setReg k v).replies = s.replies := rfl
@[simp] theorem State.setReg_tileOps : (s.setReg k v).tileOps = s.tileOps := rfl
@[simp] theorem State.setReg_copyQ : (s.setReg k v).copyQ = s.copyQ := rfl
@[simp] theorem State.setReg_gatherQ : (s.setReg k v).gatherQ = s.gatherQ := rfl
@[simp] theorem State.setReg_collQ : (s.setReg k v).collQ = s.collQ := rfl
@[simp] theorem State.setReg_matQ : (s.setReg k v).matQ = s.matQ := rfl
@[simp] theorem State.setReg_latches : (s.setReg k v).latches = s.latches := rfl
@[simp] theorem State.setReg_monitors : (s.setReg k v).monitors = s.monitors := rfl
@[simp] theorem State.setReg_fqPh : (s.setReg k v).fqPh = s.fqPh := rfl
@[simp] theorem State.setReg_fqBuf : (s.setReg k v).fqBuf = s.fqBuf := rfl
@[simp] theorem State.setReg_dbgBuf : (s.setReg k v).dbgBuf = s.dbgBuf := rfl
@[simp] theorem State.setReg_ttab : (s.setReg k v).ttab = s.ttab := rfl
@[simp] theorem State.setReg_ttDelay : (s.setReg k v).ttDelay = s.ttDelay := rfl
@[simp] theorem State.setReg_ttWait : (s.setReg k v).ttWait = s.ttWait := rfl
@[simp] theorem State.setReg_gangs : (s.setReg k v).gangs = s.gangs := rfl
@[simp] theorem State.setReg_markers : (s.setReg k v).markers = s.markers := rfl
@[simp] theorem State.setReg_asks : (s.setReg k v).asks = s.asks := rfl
@[simp] theorem State.setReg_outReqs : (s.setReg k v).outReqs = s.outReqs := rfl
@[simp] theorem State.setReg_nextReq : (s.setReg k v).nextReq = s.nextReq := rfl
@[simp] theorem State.setReg_replyCache : (s.setReg k v).replyCache = s.replyCache := rfl
@[simp] theorem State.setReg_downStns : (s.setReg k v).downStns = s.downStns := rfl
@[simp] theorem State.setReg_haloE : (s.setReg k v).haloE = s.haloE := rfl
@[simp] theorem State.setReg_haloHeld : (s.setReg k v).haloHeld = s.haloHeld := rfl
@[simp] theorem State.setReg_haloIn : (s.setReg k v).haloIn = s.haloIn := rfl
@[simp] theorem State.setReg_haloOut : (s.setReg k v).haloOut = s.haloOut := rfl
@[simp] theorem State.setReg_haloSeq : (s.setReg k v).haloSeq = s.haloSeq := rfl
@[simp] theorem State.setReg_zeniths : (s.setReg k v).zeniths = s.zeniths := rfl
@[simp] theorem State.setReg_podHeld : (s.setReg k v).podHeld = s.podHeld := rfl
@[simp] theorem State.setReg_crCache : (s.setReg k v).crCache = s.crCache := rfl
@[simp] theorem State.setReg_facCache : (s.setReg k v).facCache = s.facCache := rfl
@[simp] theorem State.setReg_reach : (s.setReg k v).reach = s.reach := rfl
@[simp] theorem State.setReg_chans : (s.setReg k v).chans = s.chans := rfl
@[simp] theorem State.setReg_resetting : (s.setReg k v).resetting = s.resetting := rfl
@[simp] theorem State.setReg_fwUp : (s.setReg k v).fwUp = s.fwUp := rfl
@[simp] theorem State.setReg_hostUp : (s.setReg k v).hostUp = s.hostUp := rfl
@[simp] theorem State.setReg_memOffered : (s.setReg k v).memOffered = s.memOffered := rfl
@[simp] theorem State.setReg_mhz : (s.setReg k v).mhz = s.mhz := rfl
@[simp] theorem State.setReg_mv : (s.setReg k v).mv = s.mv := rfl
@[simp] theorem State.setReg_stretches : (s.setReg k v).stretches = s.stretches := rfl
@[simp] theorem State.setReg_shPend : (s.setReg k v).shPend = s.shPend := rfl
@[simp] theorem State.setReg_prfCount : (s.setReg k v).prfCount = s.prfCount := rfl
end

/-! ### Updates of a strand -/

variable (st : Strand)

section
variable (i : Nat) (w : ImgWord)
@[simp] theorem Strand.setWord_ctx : (st.setWord i w).ctx = st.ctx := rfl
@[simp] theorem Strand.setWord_gid : (st.setWord i w).gid = st.gid := rfl
@[simp] theorem Strand.setWord_blk : (st.setWord i w).blk = st.blk := rfl
@[simp] theorem Strand.setWord_num : (st.setWord i w).num = st.num := rfl
@[simp] theorem Strand.setWord_slot : (st.setWord i w).slot = st.slot := rfl
@[simp] theorem Strand.setWord_base : (st.setWord i w).base = st.base := rfl
@[simp] theorem Strand.setWord_frames : (st.setWord i w).frames = st.frames := rfl
@[simp] theorem Strand.setWord_vRegs : (st.setWord i w).vRegs = st.vRegs := rfl
@[simp] theorem Strand.setWord_sRegs : (st.setWord i w).sRegs = st.sRegs := rfl
@[simp] theorem Strand.setWord_tiles : (st.setWord i w).tiles = st.tiles := rfl
@[simp] theorem Strand.setWord_splits : (st.setWord i w).splits = st.splits := rfl
@[simp] theorem Strand.setWord_life : (st.setWord i w).life = st.life := rfl
@[simp] theorem Strand.setWord_cycles : (st.setWord i w).cycles = st.cycles := rfl
@[simp] theorem Strand.setWord_ring : (st.setWord i w).ring = st.ring := rfl
@[simp] theorem Strand.setWord_gen : (st.setWord i w).gen = st.gen := rfl
@[simp] theorem Strand.setWord_locket : (st.setWord i w).locket = st.locket := rfl
@[simp] theorem Strand.setWord_barSeen : (st.setWord i w).barSeen = st.barSeen := rfl
@[simp] theorem Strand.setWord_lines : (st.setWord i w).lines = st.lines := rfl
@[simp] theorem Strand.setWord_due : (st.setWord i w).due = st.due := rfl
@[simp] theorem Strand.setWord_contained : (st.setWord i w).contained = st.contained := rfl
@[simp] theorem Strand.setWord_clasp : (st.setWord i w).clasp = st.clasp := rfl
@[simp] theorem Strand.setWord_exited : (st.setWord i w).exited = st.exited := rfl
@[simp] theorem Strand.setWord_pend : (st.setWord i w).pend = st.pend := rfl
@[simp] theorem Strand.setWord_shared : (st.setWord i w).shared = st.shared := rfl
@[simp] theorem Strand.setWord_vecErr : (st.setWord i w).vecErr = st.vecErr := rfl
end

section
variable (i : Nat) (d : Dword)
@[simp] theorem Strand.setDw_ctx : (st.setDw i d).ctx = st.ctx := rfl
@[simp] theorem Strand.setDw_gid : (st.setDw i d).gid = st.gid := rfl
@[simp] theorem Strand.setDw_blk : (st.setDw i d).blk = st.blk := rfl
@[simp] theorem Strand.setDw_num : (st.setDw i d).num = st.num := rfl
@[simp] theorem Strand.setDw_slot : (st.setDw i d).slot = st.slot := rfl
@[simp] theorem Strand.setDw_base : (st.setDw i d).base = st.base := rfl
@[simp] theorem Strand.setDw_frames : (st.setDw i d).frames = st.frames := rfl
@[simp] theorem Strand.setDw_vRegs : (st.setDw i d).vRegs = st.vRegs := rfl
@[simp] theorem Strand.setDw_sRegs : (st.setDw i d).sRegs = st.sRegs := rfl
@[simp] theorem Strand.setDw_tiles : (st.setDw i d).tiles = st.tiles := rfl
@[simp] theorem Strand.setDw_splits : (st.setDw i d).splits = st.splits := rfl
@[simp] theorem Strand.setDw_life : (st.setDw i d).life = st.life := rfl
@[simp] theorem Strand.setDw_cycles : (st.setDw i d).cycles = st.cycles := rfl
@[simp] theorem Strand.setDw_ring : (st.setDw i d).ring = st.ring := rfl
@[simp] theorem Strand.setDw_gen : (st.setDw i d).gen = st.gen := rfl
@[simp] theorem Strand.setDw_locket : (st.setDw i d).locket = st.locket := rfl
@[simp] theorem Strand.setDw_barSeen : (st.setDw i d).barSeen = st.barSeen := rfl
@[simp] theorem Strand.setDw_lines : (st.setDw i d).lines = st.lines := rfl
@[simp] theorem Strand.setDw_due : (st.setDw i d).due = st.due := rfl
@[simp] theorem Strand.setDw_contained : (st.setDw i d).contained = st.contained := rfl
@[simp] theorem Strand.setDw_clasp : (st.setDw i d).clasp = st.clasp := rfl
@[simp] theorem Strand.setDw_exited : (st.setDw i d).exited = st.exited := rfl
@[simp] theorem Strand.setDw_pend : (st.setDw i d).pend = st.pend := rfl
@[simp] theorem Strand.setDw_shared : (st.setDw i d).shared = st.shared := rfl
@[simp] theorem Strand.setDw_vecErr : (st.setDw i d).vecErr = st.vecErr := rfl
end

section
variable (o : Nat) (d : Dword)
@[simp] theorem Strand.setCtl_ctx : (st.setCtl o d).ctx = st.ctx := rfl
@[simp] theorem Strand.setCtl_gid : (st.setCtl o d).gid = st.gid := rfl
@[simp] theorem Strand.setCtl_blk : (st.setCtl o d).blk = st.blk := rfl
@[simp] theorem Strand.setCtl_num : (st.setCtl o d).num = st.num := rfl
@[simp] theorem Strand.setCtl_slot : (st.setCtl o d).slot = st.slot := rfl
@[simp] theorem Strand.setCtl_base : (st.setCtl o d).base = st.base := rfl
@[simp] theorem Strand.setCtl_frames : (st.setCtl o d).frames = st.frames := rfl
@[simp] theorem Strand.setCtl_vRegs : (st.setCtl o d).vRegs = st.vRegs := rfl
@[simp] theorem Strand.setCtl_sRegs : (st.setCtl o d).sRegs = st.sRegs := rfl
@[simp] theorem Strand.setCtl_tiles : (st.setCtl o d).tiles = st.tiles := rfl
@[simp] theorem Strand.setCtl_splits : (st.setCtl o d).splits = st.splits := rfl
@[simp] theorem Strand.setCtl_life : (st.setCtl o d).life = st.life := rfl
@[simp] theorem Strand.setCtl_cycles : (st.setCtl o d).cycles = st.cycles := rfl
@[simp] theorem Strand.setCtl_ring : (st.setCtl o d).ring = st.ring := rfl
@[simp] theorem Strand.setCtl_gen : (st.setCtl o d).gen = st.gen := rfl
@[simp] theorem Strand.setCtl_locket : (st.setCtl o d).locket = st.locket := rfl
@[simp] theorem Strand.setCtl_barSeen : (st.setCtl o d).barSeen = st.barSeen := rfl
@[simp] theorem Strand.setCtl_lines : (st.setCtl o d).lines = st.lines := rfl
@[simp] theorem Strand.setCtl_due : (st.setCtl o d).due = st.due := rfl
@[simp] theorem Strand.setCtl_contained : (st.setCtl o d).contained = st.contained := rfl
@[simp] theorem Strand.setCtl_clasp : (st.setCtl o d).clasp = st.clasp := rfl
@[simp] theorem Strand.setCtl_exited : (st.setCtl o d).exited = st.exited := rfl
@[simp] theorem Strand.setCtl_pend : (st.setCtl o d).pend = st.pend := rfl
@[simp] theorem Strand.setCtl_shared : (st.setCtl o d).shared = st.shared := rfl
@[simp] theorem Strand.setCtl_vecErr : (st.setCtl o d).vecErr = st.vecErr := rfl
end

section
variable (i : Nat) (f : Frag)
@[simp] theorem Strand.setFrag_ctx : (st.setFrag i f).ctx = st.ctx := rfl
@[simp] theorem Strand.setFrag_gid : (st.setFrag i f).gid = st.gid := rfl
@[simp] theorem Strand.setFrag_blk : (st.setFrag i f).blk = st.blk := rfl
@[simp] theorem Strand.setFrag_num : (st.setFrag i f).num = st.num := rfl
@[simp] theorem Strand.setFrag_slot : (st.setFrag i f).slot = st.slot := rfl
@[simp] theorem Strand.setFrag_base : (st.setFrag i f).base = st.base := rfl
@[simp] theorem Strand.setFrag_frames : (st.setFrag i f).frames = st.frames := rfl
@[simp] theorem Strand.setFrag_vRegs : (st.setFrag i f).vRegs = st.vRegs := rfl
@[simp] theorem Strand.setFrag_sRegs : (st.setFrag i f).sRegs = st.sRegs := rfl
@[simp] theorem Strand.setFrag_tiles : (st.setFrag i f).tiles = st.tiles := rfl
@[simp] theorem Strand.setFrag_img : (st.setFrag i f).img = st.img := rfl
@[simp] theorem Strand.setFrag_life : (st.setFrag i f).life = st.life := rfl
@[simp] theorem Strand.setFrag_cycles : (st.setFrag i f).cycles = st.cycles := rfl
@[simp] theorem Strand.setFrag_ring : (st.setFrag i f).ring = st.ring := rfl
@[simp] theorem Strand.setFrag_gen : (st.setFrag i f).gen = st.gen := rfl
@[simp] theorem Strand.setFrag_locket : (st.setFrag i f).locket = st.locket := rfl
@[simp] theorem Strand.setFrag_barSeen : (st.setFrag i f).barSeen = st.barSeen := rfl
@[simp] theorem Strand.setFrag_lines : (st.setFrag i f).lines = st.lines := rfl
@[simp] theorem Strand.setFrag_due : (st.setFrag i f).due = st.due := rfl
@[simp] theorem Strand.setFrag_contained : (st.setFrag i f).contained = st.contained := rfl
@[simp] theorem Strand.setFrag_clasp : (st.setFrag i f).clasp = st.clasp := rfl
@[simp] theorem Strand.setFrag_exited : (st.setFrag i f).exited = st.exited := rfl
@[simp] theorem Strand.setFrag_pend : (st.setFrag i f).pend = st.pend := rfl
@[simp] theorem Strand.setFrag_shared : (st.setFrag i f).shared = st.shared := rfl
@[simp] theorem Strand.setFrag_flips : (st.setFrag i f).flips = st.flips := rfl
@[simp] theorem Strand.setFrag_clean : (st.setFrag i f).clean = st.clean := rfl
@[simp] theorem Strand.setFrag_deadBits : (st.setFrag i f).deadBits = st.deadBits := rfl
@[simp] theorem Strand.setFrag_vecErr : (st.setFrag i f).vecErr = st.vecErr := rfl
end

section
variable (i : Nat) (g : Group)
@[simp] theorem Strand.setGroup_ctx : (st.setGroup i g).ctx = st.ctx := rfl
@[simp] theorem Strand.setGroup_gid : (st.setGroup i g).gid = st.gid := rfl
@[simp] theorem Strand.setGroup_blk : (st.setGroup i g).blk = st.blk := rfl
@[simp] theorem Strand.setGroup_num : (st.setGroup i g).num = st.num := rfl
@[simp] theorem Strand.setGroup_slot : (st.setGroup i g).slot = st.slot := rfl
@[simp] theorem Strand.setGroup_base : (st.setGroup i g).base = st.base := rfl
@[simp] theorem Strand.setGroup_frames : (st.setGroup i g).frames = st.frames := rfl
@[simp] theorem Strand.setGroup_vRegs : (st.setGroup i g).vRegs = st.vRegs := rfl
@[simp] theorem Strand.setGroup_sRegs : (st.setGroup i g).sRegs = st.sRegs := rfl
@[simp] theorem Strand.setGroup_tiles : (st.setGroup i g).tiles = st.tiles := rfl
@[simp] theorem Strand.setGroup_img : (st.setGroup i g).img = st.img := rfl
@[simp] theorem Strand.setGroup_life : (st.setGroup i g).life = st.life := rfl
@[simp] theorem Strand.setGroup_cycles : (st.setGroup i g).cycles = st.cycles := rfl
@[simp] theorem Strand.setGroup_ring : (st.setGroup i g).ring = st.ring := rfl
@[simp] theorem Strand.setGroup_gen : (st.setGroup i g).gen = st.gen := rfl
@[simp] theorem Strand.setGroup_locket : (st.setGroup i g).locket = st.locket := rfl
@[simp] theorem Strand.setGroup_barSeen : (st.setGroup i g).barSeen = st.barSeen := rfl
@[simp] theorem Strand.setGroup_lines : (st.setGroup i g).lines = st.lines := rfl
@[simp] theorem Strand.setGroup_due : (st.setGroup i g).due = st.due := rfl
@[simp] theorem Strand.setGroup_contained : (st.setGroup i g).contained = st.contained := rfl
@[simp] theorem Strand.setGroup_clasp : (st.setGroup i g).clasp = st.clasp := rfl
@[simp] theorem Strand.setGroup_exited : (st.setGroup i g).exited = st.exited := rfl
@[simp] theorem Strand.setGroup_pend : (st.setGroup i g).pend = st.pend := rfl
@[simp] theorem Strand.setGroup_shared : (st.setGroup i g).shared = st.shared := rfl
@[simp] theorem Strand.setGroup_flips : (st.setGroup i g).flips = st.flips := rfl
@[simp] theorem Strand.setGroup_clean : (st.setGroup i g).clean = st.clean := rfl
@[simp] theorem Strand.setGroup_deadBits : (st.setGroup i g).deadBits = st.deadBits := rfl
@[simp] theorem Strand.setGroup_vecErr : (st.setGroup i g).vecErr = st.vecErr := rfl
end

/-! ### Reads after updates -/

@[simp] theorem State.strand_setStrand (k : Nat) (x : Strand) : (s.setStrand k x).strand k = x := by
  simp only [State.strand, State.setStrand, aget_aput_same, Option.getD_some]

theorem State.strand_setStrand_other (k j : Nat) (x : Strand) (h : j ≠ k) : (s.setStrand k x).strand j = s.strand j := by
  simp only [State.strand, State.setStrand, aget_aput_other _ _ _ _ h]

theorem State.strand_modStrand (k : Nat) (f : Strand → Strand) (h : (aget s.strands k).isSome = true) :
    (s.modStrand k f).strand k = f (s.strand k) := by
  obtain ⟨x, hx⟩ := Option.isSome_iff_exists.mp h
  simp only [State.strand, State.modStrand, aget_amod_same, hx, Option.map_some, Option.getD_some]

theorem State.strand_modStrand_other (k j : Nat) (f : Strand → Strand) (h : j ≠ k) : (s.modStrand k f).strand j = s.strand j := by
  simp only [State.strand, State.modStrand, aget_amod_other _ _ _ _ h]

@[simp] theorem State.block_modStrand (k j : Nat) (f : Strand → Strand) : (s.modStrand k f).block j = s.block j := rfl
@[simp] theorem State.grid_modStrand (k j : Nat) (f : Strand → Strand) : (s.modStrand k f).grid j = s.grid j := rfl
@[simp] theorem State.nbhd_modStrand (k j : Nat) (f : Strand → Strand) : (s.modStrand k f).nbhd j = s.nbhd j := rfl
@[simp] theorem State.reg_modStrand (k : Nat) (r : RegId) (f : Strand → Strand) : (s.modStrand k f).reg r = s.reg r := rfl
@[simp] theorem State.strand_modBlock (k j : Nat) (f : Block → Block) : (s.modBlock k f).strand j = s.strand j := rfl
@[simp] theorem State.reg_modBlock (k : Nat) (r : RegId) (f : Block → Block) : (s.modBlock k f).reg r = s.reg r := rfl
@[simp] theorem State.strand_setReg (j : Nat) (r : RegId) (v : Dword) : (s.setReg r v).strand j = s.strand j := rfl
@[simp] theorem State.block_setReg (j : Nat) (r : RegId) (v : Dword) : (s.setReg r v).block j = s.block j := rfl

/-- A register reads as what was stored in it, and another as before. -/
@[simp] theorem State.reg_setReg (r : RegId) (v : Dword) : (s.setReg r v).reg r = v := by
  unfold State.reg State.setReg
  exact aget_aputD_same _ _ _ _

theorem State.reg_setReg_other (r q : RegId) (v : Dword) (h : regKey q ≠ regKey r) : (s.setReg r v).reg q = s.reg q := by
  unfold State.reg State.setReg
  dsimp only
  rw [aget_aputD_other _ _ _ _ _ h]

/-- Putting a word in an image is the canonical put of the maps. -/
theorem putImg_eq (m : List (Nat × ImgWord)) (i : Nat) (w : ImgWord) : putImg m i w = aputD .none m i w := by
  unfold putImg aputD
  split
  · rw [if_neg (by rintro rfl; simp [ImgWord.none] at *)]
  · rfl

/-- A word of an image reads as what was written, and another as before. -/
@[simp] theorem Strand.word_setWord (i : Nat) (w : ImgWord) : (st.setWord i w).word i = w := by
  unfold Strand.word Strand.setWord
  dsimp only
  rw [putImg_eq]
  exact aget_aputD_same _ _ _ _

theorem Strand.word_setWord_other (i j : Nat) (w : ImgWord) (h : j ≠ i) : (st.setWord i w).word j = st.word j := by
  unfold Strand.word Strand.setWord
  dsimp only
  rw [putImg_eq, aget_aputD_other _ _ _ _ _ h]

theorem Strand.word_setDw_other (i j : Nat) (d : Dword) (h : j ≠ i) (h' : j ≠ i + 1) : (st.setDw i d).word j = st.word j := by
  unfold Strand.setDw
  rw [Strand.word_setWord_other _ _ _ _ h', Strand.word_setWord_other _ _ _ _ h]

/-- A doubleword reads as what was written. -/
@[simp] theorem Strand.dw_setDw (i : Nat) (d : Dword) : (st.setDw i d).dw i = d := by
  unfold Strand.dw Strand.setDw
  rw [Strand.word_setWord, Strand.word_setWord_other _ _ _ _ (by omega), Strand.word_setWord]
  apply BitVec.eq_of_getLsbD_eq
  intro k hk
  simp only [join32, loW, hiW, BitVec.getLsbD_append, BitVec.getLsbD_extractLsb']
  by_cases h : k < 32
  · simp [h]
  · simp [h, show k - 32 < 32 by omega, show 32 + (k - 32) = k by omega]

end Sys2Proof.Machine
end

