-- ==== Sys2Proof/Laws/Canonical.lean ====
section
/-! SUPPORT. Every operation that writes a memory keeps its canonical form. -/
namespace Sys2Proof.Machine

/-- The canonical form is a matter of the five kinds of memory alone. -/
theorem State.Canonical.congr {s t : State} (h : s.Canonical) (h1 : t.mem = s.mem) (h2 : t.host = s.host) (h3 : t.bar4 = s.bar4)
    (h4 : t.remote = s.remote) (h5 : t.spads = s.spads) : t.Canonical := by
  unfold State.Canonical
  rw [h1, h2, h3, h4, h5]
  exact h

theorem State.Canonical.modStrand {s : State} (h : s.Canonical) (k : Nat) (f : Strand → Strand) : (s.modStrand k f).Canonical :=
  h.congr rfl rfl rfl rfl rfl

theorem State.Canonical.setStrand {s : State} (h : s.Canonical) (k : Nat) (x : Strand) : (s.setStrand k x).Canonical :=
  h.congr rfl rfl rfl rfl rfl

theorem State.Canonical.modGrid {s : State} (h : s.Canonical) (k : Nat) (f : Grid → Grid) : (s.modGrid k f).Canonical :=
  h.congr rfl rfl rfl rfl rfl

theorem State.Canonical.modNbhd {s : State} (h : s.Canonical) (k : Nat) (f : Nbhd → Nbhd) : (s.modNbhd k f).Canonical :=
  h.congr rfl rfl rfl rfl rfl

theorem State.Canonical.setReg {s : State} (h : s.Canonical) (r : RegId) (v : Dword) : (s.setReg r v).Canonical :=
  h.congr rfl rfl rfl rfl rfl

theorem State.Canonical.modBlock {s : State} (h : s.Canonical) (k : Nat) (f : Block → Block) : (s.modBlock k f).Canonical :=
  h.congr rfl rfl rfl rfl rfl

/-- Every scratchpad of a canonical state has its form. -/
theorem State.Canonical.spad {s : State} (h : s.Canonical) (k : Nat) : (s.spad k).wf = true := by
  unfold State.spad
  cases hk : aget s.spads k with
  | none => exact Mem.wf_empty
  | some m => exact h.2.2.2.2 _ (aget_mem _ _ _ hk)

theorem State.Canonical.countUp {s : State} (h : s.Canonical) (k : Nat) (c : BitVec 8) : (s.countUp k c).Canonical := by
  unfold State.countUp
  split
  · exact h
  · exact h.congr rfl rfl rfl rfl rfl

theorem State.Canonical.countDying {s : State} (h : s.Canonical) (k : Nat) (ws : List ImgWord) : (s.countDying k ws).Canonical := by
  unfold State.countDying
  induction dying ws generalizing s with
  | nil => exact h
  | cons c cs ih => exact ih (h.countUp k c)

/-- A word of an image. -/
theorem State.Canonical.putImage {s : State} (h : s.Canonical) (k i be : Nat) (w : MWord) : (s.putImage k i be w).Canonical := by
  unfold State.putImage
  dsimp only
  split
  · exact h
  · exact (h.countDying _ _).modStrand _ _

/-- A word of a scratchpad: a core whose bytes are all zero is not listed. -/
theorem State.Canonical.putSpad {s : State} (h : s.Canonical) (k o be : Nat) (w : MWord) : (s.putSpad k o be w).Canonical := by
  have hd : (s.dyingSpad k o).Canonical := by
    unfold State.dyingSpad
    dsimp only
    split
    · exact h.countUp _ _
    · exact h
  unfold State.putSpad
  split
  · exact h
  · exact ⟨hd.1, hd.2.1, hd.2.2.1, hd.2.2.2.1, forall_aputD _ _ _ _ _ hd.2.2.2.2 (Mem.wf_setWord _ _ _ _ (hd.spad k))⟩

/-- A word of a retired line, which lies in caches alone. -/
theorem State.Canonical.putRetired {s : State} (h : s.Canonical) (pa be : Nat) (w : MWord) : (s.putRetired pa be w).Canonical := by
  unfold State.putRetired
  dsimp only
  split
  · exact h
  · exact h.congr rfl rfl rfl rfl rfl

/-- A word written anywhere. -/
theorem State.Canonical.putW {s : State} (h : s.Canonical) (l : Loc) (be : Nat) (w : MWord) : (s.putW l be w).Canonical := by
  obtain ⟨h1, h2, h3, h4, h5⟩ := h
  have hs : s.Canonical := ⟨h1, h2, h3, h4, h5⟩
  unfold State.putW
  split
  · split
    · exact hs.putImage _ _ _ _
    · split
      · exact hs.putRetired _ _ _
      · exact ⟨Mem.wf_setWord _ _ _ _ h1, h2, h3, h4, h5⟩
  · exact ⟨h1, Mem.wf_setWord _ _ _ _ h2, h3, h4, h5⟩
  · refine ⟨h1, h2, h3, forall_aput _ _ _ _ h4 (Mem.wf_setWord _ _ _ _ ?_), h5⟩
    rename_i d pa
    cases hd : aget s.remote d with
    | none => exact Mem.wf_empty
    | some m => exact h4 _ (aget_mem _ _ _ hd)
  · exact hs.putSpad _ _ _ _
  · split
    · split
      · exact hs.putImage _ _ _ _
      · exact hs
    · split
      · exact hs.putSpad _ _ _ _
      · exact hs
  · exact hs
  · exact hs

theorem State.Canonical.putD64 {s : State} (h : s.Canonical) (l : Loc) (d : Dword) : (s.putD64 l d).Canonical :=
  (h.putW _ _ _).putW _ _ _

theorem State.Canonical.markD64 {s : State} (h : s.Canonical) (l : Loc) (t : Word) : (s.markD64 l t).Canonical :=
  (h.putW _ _ _).putW _ _ _

/-- What each step of a fold keeps, the fold keeps. -/
theorem State.Canonical.fold {α : Type} {f : State → α → State} (hf : ∀ s x, s.Canonical → (f s x).Canonical) (xs : List α) {s : State}
    (h : s.Canonical) : (xs.foldl f s).Canonical := by
  induction xs generalizing s with
  | nil => exact h
  | cons x xs ih => exact ih (hf s x h)

theorem State.Canonical.putWords {s : State} (h : s.Canonical) (l : Loc) (ws : List MWord) : (s.putWords l ws).Canonical :=
  fold (fun _ _ hs => hs.putW _ _ _) _ h

theorem State.Canonical.putDwords {s : State} (h : s.Canonical) (pa : Nat) (ds : List Dword) : (s.putDwords pa ds).Canonical := by
  refine fold (fun t d hs => ?_) _ h
  split
  · exact hs.putD64 _ _
  · exact hs

end Sys2Proof.Machine
end

