-- ==== Sys2Proof/Laws/Encoding.lean ====
section
/-! SUPPORT. Fields read back: the header and every body layout of R199 to R210 hold what is written to them, and writing what was
read gives the words again. -/
namespace Sys2Proof

/-! ### Parts of concatenations -/

theorem ext_hi {n m : Nat} (x : BitVec n) (y : BitVec m) : (x ++ y).extractLsb' m n = x := by
  apply BitVec.eq_of_getLsbD_eq
  intro j hj
  rw [BitVec.getLsbD_extractLsb', BitVec.getLsbD_append]
  simp [hj]

theorem ext_skip {n m : Nat} (x : BitVec n) (y : BitVec m) (s k : Nat) (h : s + k ≤ m) :
    (x ++ y).extractLsb' s k = y.extractLsb' s k := by
  apply BitVec.eq_of_getLsbD_eq
  intro j hj
  rw [BitVec.getLsbD_extractLsb', BitVec.getLsbD_extractLsb', BitVec.getLsbD_append, if_pos (by omega)]

theorem ext_all {n : Nat} (x : BitVec n) : x.extractLsb' 0 n = x := by simp

theorem bit_ext (w : Word) (i : Nat) (b : Bool) (h : w.extractLsb' i 1 = b1 b) : bitAt w i = b := by
  have := congrArg (fun x => x.getLsbD 0) h
  simpa [bitAt, b1] using this

/-- Two neighbouring parts of a word are one. -/
theorem glue {n : Nat} (w : BitVec n) (s k l : Nat) : w.extractLsb' (s + l) k ++ w.extractLsb' s l = w.extractLsb' s (k + l) := by
  apply BitVec.eq_of_getLsbD_eq
  intro j hj
  rw [BitVec.getLsbD_append, BitVec.getLsbD_extractLsb', BitVec.getLsbD_extractLsb', BitVec.getLsbD_extractLsb']
  split
  · simp [*]
  · simp [hj, show j - l < k by omega, show s + l + (j - l) = s + j by omega]

theorem b1_bitAt (w : Word) (i : Nat) : b1 (bitAt w i) = w.extractLsb' i 1 := by
  apply BitVec.eq_of_getLsbD_eq
  intro j hj
  simp [b1, bitAt, show j = 0 by omega]

/-! ### Operands -/

/-- The operand has a code of its own. -/
def Operand.proper (o : Operand) : Bool := Operand.ofCode o.code == o

theorem Operand.proper_eq {o : Operand} (h : o.proper = true) : Operand.ofCode o.code = o := by simpa [Operand.proper] using h

theorem Operand.code_ofCode (x : BitVec 10) : (Operand.ofCode x).code = x := by revert x; decide

theorem Operand.proper_vec (n : BitVec 8) : (Operand.vec n).proper = true := by revert n; decide
theorem Operand.proper_sc (n : BitVec 6) : (Operand.sc n).proper = true := by revert n; decide
theorem Operand.proper_spec (c : BitVec 6) : (Operand.spec c).proper = true := by revert c; decide
theorem Operand.proper_pred (n : BitVec 4) : (Operand.pred n).proper = true := by revert n; decide
theorem Operand.proper_zero : Operand.zero.proper = true := by decide

/-! ### The header -/

theorem Hdr.op_write (h : Hdr) (op : BitVec 10) : (h.write op).extractLsb' 0 10 = op := by
  unfold Hdr.write
  iterate 8 refine (ext_skip _ _ _ _ (by decide)).trans ?_
  exact ext_all op

theorem Hdr.typ_write (h : Hdr) (op : BitVec 10) : (h.write op).extractLsb' 28 4 = h.typ := by
  unfold Hdr.write
  exact ext_hi _ _

theorem Hdr.dest_write (h : Hdr) (op : BitVec 10) : (h.write op).extractLsb' 20 8 = h.dest := by
  unfold Hdr.write
  iterate 1 refine (ext_skip _ _ _ _ (by decide)).trans ?_
  exact ext_hi _ _

theorem Hdr.luc_write (h : Hdr) (op : BitVec 10) : bitAt (h.write op) 19 = h.luc := by
  unfold Hdr.write
  refine bit_ext _ _ _ ?_
  iterate 2 refine (ext_skip _ _ _ _ (by decide)).trans ?_
  exact ext_hi _ _

theorem Hdr.lub_write (h : Hdr) (op : BitVec 10) : bitAt (h.write op) 18 = h.lub := by
  unfold Hdr.write
  refine bit_ext _ _ _ ?_
  iterate 3 refine (ext_skip _ _ _ _ (by decide)).trans ?_
  exact ext_hi _ _

theorem Hdr.lua_write (h : Hdr) (op : BitVec 10) : bitAt (h.write op) 17 = h.lua := by
  unfold Hdr.write
  refine bit_ext _ _ _ ?_
  iterate 4 refine (ext_skip _ _ _ _ (by decide)).trans ?_
  exact ext_hi _ _

theorem Hdr.gneg_write (h : Hdr) (op : BitVec 10) : bitAt (h.write op) 16 = h.gneg := by
  unfold Hdr.write
  refine bit_ext _ _ _ ?_
  iterate 5 refine (ext_skip _ _ _ _ (by decide)).trans ?_
  exact ext_hi _ _

theorem Hdr.guard_write (h : Hdr) (op : BitVec 10) : (h.write op).extractLsb' 12 4 = h.guard := by
  unfold Hdr.write
  iterate 6 refine (ext_skip _ _ _ _ (by decide)).trans ?_
  exact ext_hi _ _

theorem Hdr.oc_write (h : Hdr) (op : BitVec 10) : (h.write op).extractLsb' 10 2 = h.oc := by
  unfold Hdr.write
  iterate 7 refine (ext_skip _ _ _ _ (by decide)).trans ?_
  exact ext_hi _ _

theorem Hdr.read_write (h : Hdr) (op : BitVec 10) : Hdr.read (h.write op) = h := by
  obtain ⟨_, _, _, _, _, _, _, _⟩ := h
  simp only [Hdr.read, Hdr.mk.injEq]
  exact ⟨Hdr.typ_write _ _, Hdr.dest_write _ _, Hdr.luc_write _ _, Hdr.lub_write _ _, Hdr.lua_write _ _, Hdr.gneg_write _ _,
    Hdr.guard_write _ _, Hdr.oc_write _ _⟩

theorem Hdr.write_read (w : Word) : (Hdr.read w).write (w.extractLsb' 0 10) = w := by
  unfold Hdr.read Hdr.write
  simp only [b1_bitAt]
  rw [glue w 0 2 10, glue w 0 4 12, glue w 0 1 16, glue w 0 1 17, glue w 0 1 18, glue w 0 1 19, glue w 0 8 20, glue w 0 4 28]
  exact ext_all w

/-! ### MemBody -/

theorem MemBody.shift_write (b : MemBody) : b.write1.extractLsb' 30 2 = b.shift := by
  unfold MemBody.write1
  exact ext_hi _ _

theorem MemBody.data_write (b : MemBody) : b.write1.extractLsb' 20 10 = b.data.code := by
  unfold MemBody.write1
  iterate 1 refine (ext_skip _ _ _ _ (by decide)).trans ?_
  exact ext_hi _ _

theorem MemBody.index_write (b : MemBody) : b.write1.extractLsb' 10 10 = b.index.code := by
  unfold MemBody.write1
  iterate 2 refine (ext_skip _ _ _ _ (by decide)).trans ?_
  exact ext_hi _ _

theorem MemBody.base_write (b : MemBody) : b.write1.extractLsb' 0 10 = b.base.code := by
  unfold MemBody.write1
  iterate 3 refine (ext_skip _ _ _ _ (by decide)).trans ?_
  exact ext_all _

theorem MemBody.var_write (b : MemBody) : b.write2.extractLsb' 30 2 = b.var := by
  unfold MemBody.write2
  exact ext_hi _ _

theorem MemBody.hint_write (b : MemBody) : b.write2.extractLsb' 28 2 = b.hint := by
  unfold MemBody.write2
  iterate 1 refine (ext_skip _ _ _ _ (by decide)).trans ?_
  exact ext_hi _ _

theorem MemBody.ord_write (b : MemBody) : b.write2.extractLsb' 26 2 = b.ord := by
  unfold MemBody.write2
  iterate 2 refine (ext_skip _ _ _ _ (by decide)).trans ?_
  exact ext_hi _ _

theorem MemBody.scope_write (b : MemBody) : b.write2.extractLsb' 23 3 = b.scope := by
  unfold MemBody.write2
  iterate 3 refine (ext_skip _ _ _ _ (by decide)).trans ?_
  exact ext_hi _ _

theorem MemBody.sx_write (b : MemBody) : bitAt b.write2 22 = b.sx := by
  unfold MemBody.write2
  refine bit_ext _ _ _ ?_
  iterate 4 refine (ext_skip _ _ _ _ (by decide)).trans ?_
  exact ext_hi _ _

theorem MemBody.size_write (b : MemBody) : b.write2.extractLsb' 20 2 = b.size := by
  unfold MemBody.write2
  iterate 5 refine (ext_skip _ _ _ _ (by decide)).trans ?_
  exact ext_hi _ _

theorem MemBody.off_write (b : MemBody) : b.write2.extractLsb' 0 20 = b.off := by
  unfold MemBody.write2
  iterate 6 refine (ext_skip _ _ _ _ (by decide)).trans ?_
  exact ext_all _

theorem MemBody.read_write (b : MemBody) (hdata : b.data.proper = true) (hindex : b.index.proper = true) (hbase : b.base.proper = true) :
    MemBody.read b.write1 b.write2 = b := by
  obtain ⟨_, _, _, _, _, _, _, _, _, _, _⟩ := b
  simp only [MemBody.read, MemBody.mk.injEq]
  exact ⟨MemBody.shift_write _,
    (congrArg Operand.ofCode (MemBody.data_write _)).trans (Operand.proper_eq hdata),
    (congrArg Operand.ofCode (MemBody.index_write _)).trans (Operand.proper_eq hindex),
    (congrArg Operand.ofCode (MemBody.base_write _)).trans (Operand.proper_eq hbase),
    MemBody.var_write _,
    MemBody.hint_write _,
    MemBody.ord_write _,
    MemBody.scope_write _,
    MemBody.sx_write _,
    MemBody.size_write _,
    MemBody.off_write _⟩

theorem MemBody.write1_read (w1 w2 : Word) : (MemBody.read w1 w2).write1 = w1 := by
  unfold MemBody.read MemBody.write1
  simp only [Operand.code_ofCode]
  rw [glue w1 0 10 10, glue w1 0 10 20, glue w1 0 2 30]
  exact ext_all w1

theorem MemBody.write2_read (w1 w2 : Word) : (MemBody.read w1 w2).write2 = w2 := by
  unfold MemBody.read MemBody.write2
  simp only [b1_bitAt]
  rw [glue w2 0 2 20, glue w2 0 1 22, glue w2 0 3 23, glue w2 0 2 26, glue w2 0 2 28, glue w2 0 2 30]
  exact ext_all w2

/-! ### MatBody -/

theorem MatBody.rows_write (b : MatBody) : b.write1.extractLsb' 27 5 = b.rows := by
  unfold MatBody.write1
  exact ext_hi _ _

theorem MatBody.scl_write (b : MatBody) : bitAt b.write1 26 = b.scl := by
  unfold MatBody.write1
  refine bit_ext _ _ _ ?_
  iterate 1 refine (ext_skip _ _ _ _ (by decide)).trans ?_
  exact ext_hi _ _

theorem MatBody.asp_write (b : MatBody) : bitAt b.write1 25 = b.asp := by
  unfold MatBody.write1
  refine bit_ext _ _ _ ?_
  iterate 2 refine (ext_skip _ _ _ _ (by decide)).trans ?_
  exact ext_hi _ _

theorem MatBody.bank_write (b : MatBody) : bitAt b.write1 24 = b.bank := by
  unfold MatBody.write1
  refine bit_ext _ _ _ ?_
  iterate 3 refine (ext_skip _ _ _ _ (by decide)).trans ?_
  exact ext_hi _ _

theorem MatBody.typb_write (b : MatBody) : b.write1.extractLsb' 20 4 = b.typb := by
  unfold MatBody.write1
  iterate 4 refine (ext_skip _ _ _ _ (by decide)).trans ?_
  exact ext_hi _ _

theorem MatBody.b_write (b : MatBody) : b.write1.extractLsb' 10 10 = b.b.code := by
  unfold MatBody.write1
  iterate 5 refine (ext_skip _ _ _ _ (by decide)).trans ?_
  exact ext_hi _ _

theorem MatBody.a_write (b : MatBody) : b.write1.extractLsb' 0 10 = b.a.code := by
  unfold MatBody.write1
  iterate 6 refine (ext_skip _ _ _ _ (by decide)).trans ?_
  exact ext_all _

theorem MatBody.rsv_write (b : MatBody) : b.write2.extractLsb' 23 9 = b.rsv := by
  unfold MatBody.write2
  exact ext_hi _ _

theorem MatBody.atile_write (b : MatBody) : b.write2.extractLsb' 19 4 = b.atile := by
  unfold MatBody.write2
  iterate 1 refine (ext_skip _ _ _ _ (by decide)).trans ?_
  exact ext_hi _ _

theorem MatBody.sat_write (b : MatBody) : bitAt b.write2 18 = b.sat := by
  unfold MatBody.write2
  refine bit_ext _ _ _ ?_
  iterate 2 refine (ext_skip _ _ _ _ (by decide)).trans ?_
  exact ext_hi _ _

theorem MatBody.rm_write (b : MatBody) : b.write2.extractLsb' 16 2 = b.rm := by
  unfold MatBody.write2
  iterate 3 refine (ext_skip _ _ _ _ (by decide)).trans ?_
  exact ext_hi _ _

theorem MatBody.var_write (b : MatBody) : b.write2.extractLsb' 10 6 = b.var := by
  unfold MatBody.write2
  iterate 4 refine (ext_skip _ _ _ _ (by decide)).trans ?_
  exact ext_hi _ _

theorem MatBody.c_write (b : MatBody) : b.write2.extractLsb' 0 10 = b.c.code := by
  unfold MatBody.write2
  iterate 5 refine (ext_skip _ _ _ _ (by decide)).trans ?_
  exact ext_all _

theorem MatBody.read_write (b : MatBody) (hb : b.b.proper = true) (ha : b.a.proper = true) (hc : b.c.proper = true) :
    MatBody.read b.write1 b.write2 = b := by
  obtain ⟨_, _, _, _, _, _, _, _, _, _, _, _, _⟩ := b
  simp only [MatBody.read, MatBody.mk.injEq]
  exact ⟨MatBody.rows_write _,
    MatBody.scl_write _,
    MatBody.asp_write _,
    MatBody.bank_write _,
    MatBody.typb_write _,
    (congrArg Operand.ofCode (MatBody.b_write _)).trans (Operand.proper_eq hb),
    (congrArg Operand.ofCode (MatBody.a_write _)).trans (Operand.proper_eq ha),
    MatBody.rsv_write _,
    MatBody.atile_write _,
    MatBody.sat_write _,
    MatBody.rm_write _,
    MatBody.var_write _,
    (congrArg Operand.ofCode (MatBody.c_write _)).trans (Operand.proper_eq hc)⟩

theorem MatBody.write1_read (w1 w2 : Word) : (MatBody.read w1 w2).write1 = w1 := by
  unfold MatBody.read MatBody.write1
  simp only [Operand.code_ofCode, b1_bitAt]
  rw [glue w1 0 10 10, glue w1 0 4 20, glue w1 0 1 24, glue w1 0 1 25, glue w1 0 1 26, glue w1 0 5 27]
  exact ext_all w1

theorem MatBody.write2_read (w1 w2 : Word) : (MatBody.read w1 w2).write2 = w2 := by
  unfold MatBody.read MatBody.write2
  simp only [Operand.code_ofCode, b1_bitAt]
  rw [glue w2 0 6 10, glue w2 0 2 16, glue w2 0 1 18, glue w2 0 4 19, glue w2 0 9 23]
  exact ext_all w2

/-! ### CtlBody -/

theorem CtlBody.aux_write (b : CtlBody) : b.write2.extractLsb' 16 16 = b.aux := by
  unfold CtlBody.write2
  exact ext_hi _ _

theorem CtlBody.var_write (b : CtlBody) : b.write2.extractLsb' 10 6 = b.var := by
  unfold CtlBody.write2
  iterate 1 refine (ext_skip _ _ _ _ (by decide)).trans ?_
  exact ext_hi _ _

theorem CtlBody.a_write (b : CtlBody) : b.write2.extractLsb' 0 10 = b.a.code := by
  unfold CtlBody.write2
  iterate 2 refine (ext_skip _ _ _ _ (by decide)).trans ?_
  exact ext_all _

theorem CtlBody.read_write (b : CtlBody) (ha : b.a.proper = true) :
    CtlBody.read b.write1 b.write2 = b := by
  obtain ⟨_, _, _, _⟩ := b
  simp only [CtlBody.read, CtlBody.mk.injEq]
  exact ⟨rfl,
    CtlBody.aux_write _,
    CtlBody.var_write _,
    (congrArg Operand.ofCode (CtlBody.a_write _)).trans (Operand.proper_eq ha)⟩

theorem CtlBody.write1_read (w1 w2 : Word) : (CtlBody.read w1 w2).write1 = w1 := rfl

theorem CtlBody.write2_read (w1 w2 : Word) : (CtlBody.read w1 w2).write2 = w2 := by
  unfold CtlBody.read CtlBody.write2
  simp only [Operand.code_ofCode]
  rw [glue w2 0 6 10, glue w2 0 16 16]
  exact ext_all w2

/-! ### AsyBody -/

theorem AsyBody.rsv1_write (b : AsyBody) : b.write1.extractLsb' 30 2 = b.rsv1 := by
  unfold AsyBody.write1
  exact ext_hi _ _

theorem AsyBody.c_write (b : AsyBody) : b.write1.extractLsb' 20 10 = b.c.code := by
  unfold AsyBody.write1
  iterate 1 refine (ext_skip _ _ _ _ (by decide)).trans ?_
  exact ext_hi _ _

theorem AsyBody.b_write (b : AsyBody) : b.write1.extractLsb' 10 10 = b.b.code := by
  unfold AsyBody.write1
  iterate 2 refine (ext_skip _ _ _ _ (by decide)).trans ?_
  exact ext_hi _ _

theorem AsyBody.a_write (b : AsyBody) : b.write1.extractLsb' 0 10 = b.a.code := by
  unfold AsyBody.write1
  iterate 3 refine (ext_skip _ _ _ _ (by decide)).trans ?_
  exact ext_all _

theorem AsyBody.rsv2_write (b : AsyBody) : b.write2.extractLsb' 18 14 = b.rsv2 := by
  unfold AsyBody.write2
  exact ext_hi _ _

theorem AsyBody.tile_write (b : AsyBody) : b.write2.extractLsb' 12 6 = b.tile := by
  unfold AsyBody.write2
  iterate 1 refine (ext_skip _ _ _ _ (by decide)).trans ?_
  exact ext_hi _ _

theorem AsyBody.tv_write (b : AsyBody) : bitAt b.write2 11 = b.tv := by
  unfold AsyBody.write2
  refine bit_ext _ _ _ ?_
  iterate 2 refine (ext_skip _ _ _ _ (by decide)).trans ?_
  exact ext_hi _ _

theorem AsyBody.scope_write (b : AsyBody) : b.write2.extractLsb' 8 3 = b.scope := by
  unfold AsyBody.write2
  iterate 3 refine (ext_skip _ _ _ _ (by decide)).trans ?_
  exact ext_hi _ _

theorem AsyBody.var_write (b : AsyBody) : b.write2.extractLsb' 0 8 = b.var := by
  unfold AsyBody.write2
  iterate 4 refine (ext_skip _ _ _ _ (by decide)).trans ?_
  exact ext_all _

theorem AsyBody.read_write (b : AsyBody) (hc : b.c.proper = true) (hb : b.b.proper = true) (ha : b.a.proper = true) :
    AsyBody.read b.write1 b.write2 = b := by
  obtain ⟨_, _, _, _, _, _, _, _, _⟩ := b
  simp only [AsyBody.read, AsyBody.mk.injEq]
  exact ⟨AsyBody.rsv1_write _,
    (congrArg Operand.ofCode (AsyBody.c_write _)).trans (Operand.proper_eq hc),
    (congrArg Operand.ofCode (AsyBody.b_write _)).trans (Operand.proper_eq hb),
    (congrArg Operand.ofCode (AsyBody.a_write _)).trans (Operand.proper_eq ha),
    AsyBody.rsv2_write _,
    AsyBody.tile_write _,
    AsyBody.tv_write _,
    AsyBody.scope_write _,
    AsyBody.var_write _⟩

theorem AsyBody.write1_read (w1 w2 : Word) : (AsyBody.read w1 w2).write1 = w1 := by
  unfold AsyBody.read AsyBody.write1
  simp only [Operand.code_ofCode]
  rw [glue w1 0 10 10, glue w1 0 10 20, glue w1 0 2 30]
  exact ext_all w1

theorem AsyBody.write2_read (w1 w2 : Word) : (AsyBody.read w1 w2).write2 = w2 := by
  unfold AsyBody.read AsyBody.write2
  simp only [b1_bitAt]
  rw [glue w2 0 3 8, glue w2 0 1 11, glue w2 0 6 12, glue w2 0 14 18]
  exact ext_all w2

/-! ### SysBody -/

theorem SysBody.sreg_write (b : SysBody) : b.write1.extractLsb' 20 12 = b.sreg := by
  unfold SysBody.write1
  exact ext_hi _ _

theorem SysBody.b_write (b : SysBody) : b.write1.extractLsb' 10 10 = b.b.code := by
  unfold SysBody.write1
  iterate 1 refine (ext_skip _ _ _ _ (by decide)).trans ?_
  exact ext_hi _ _

theorem SysBody.a_write (b : SysBody) : b.write1.extractLsb' 0 10 = b.a.code := by
  unfold SysBody.write1
  iterate 2 refine (ext_skip _ _ _ _ (by decide)).trans ?_
  exact ext_all _

theorem SysBody.rsv_write (b : SysBody) : b.write2.extractLsb' 8 24 = b.rsv := by
  unfold SysBody.write2
  exact ext_hi _ _

theorem SysBody.var_write (b : SysBody) : b.write2.extractLsb' 0 8 = b.var := by
  unfold SysBody.write2
  iterate 1 refine (ext_skip _ _ _ _ (by decide)).trans ?_
  exact ext_all _

theorem SysBody.read_write (b : SysBody) (hb : b.b.proper = true) (ha : b.a.proper = true) :
    SysBody.read b.write1 b.write2 = b := by
  obtain ⟨_, _, _, _, _⟩ := b
  simp only [SysBody.read, SysBody.mk.injEq]
  exact ⟨SysBody.sreg_write _,
    (congrArg Operand.ofCode (SysBody.b_write _)).trans (Operand.proper_eq hb),
    (congrArg Operand.ofCode (SysBody.a_write _)).trans (Operand.proper_eq ha),
    SysBody.rsv_write _,
    SysBody.var_write _⟩

theorem SysBody.write1_read (w1 w2 : Word) : (SysBody.read w1 w2).write1 = w1 := by
  unfold SysBody.read SysBody.write1
  simp only [Operand.code_ofCode]
  rw [glue w1 0 10 10, glue w1 0 12 20]
  exact ext_all w1

theorem SysBody.write2_read (w1 w2 : Word) : (SysBody.read w1 w2).write2 = w2 := by
  unfold SysBody.read SysBody.write2
  rw [glue w2 0 24 8]
  exact ext_all w2

/-! ### AluBody -/

/-- Both literal and register forms: what the layout of an instruction that reads `imm` holds. -/
def AluBody.fits (imm : Bool) (b : AluBody) : Bool := Machine.Check.bodyFits imm b && b.rsv == 0

theorem AluBody.reg_rm (rm : BitVec 2) (sat : Bool) (var : BitVec 8) (c : Operand) (o : Operand) (a : Operand)
    (ty3 ty2 : BitVec 4) (rsv : BitVec 15) :
    (AluBody.write1 (AluBody.mk rm sat var c (.reg o) a ty3 ty2 rsv)).extractLsb' 30 2 = rm := by
  unfold AluBody.write1
  exact ext_hi _ _

theorem AluBody.reg_c (rm : BitVec 2) (sat : Bool) (var : BitVec 8) (c : Operand) (o : Operand) (a : Operand)
    (ty3 ty2 : BitVec 4) (rsv : BitVec 15) :
    (AluBody.write1 (AluBody.mk rm sat var c (.reg o) a ty3 ty2 rsv)).extractLsb' 20 10 = c.code := by
  unfold AluBody.write1
  iterate 1 refine (ext_skip _ _ _ _ (by decide)).trans ?_
  exact ext_hi _ _

theorem AluBody.reg_b (rm : BitVec 2) (sat : Bool) (var : BitVec 8) (c : Operand) (o : Operand) (a : Operand)
    (ty3 ty2 : BitVec 4) (rsv : BitVec 15) :
    (AluBody.write1 (AluBody.mk rm sat var c (.reg o) a ty3 ty2 rsv)).extractLsb' 10 10 = o.code := by
  unfold AluBody.write1
  iterate 2 refine (ext_skip _ _ _ _ (by decide)).trans ?_
  exact ext_hi _ _

theorem AluBody.reg_a (rm : BitVec 2) (sat : Bool) (var : BitVec 8) (c : Operand) (o : Operand) (a : Operand)
    (ty3 ty2 : BitVec 4) (rsv : BitVec 15) :
    (AluBody.write1 (AluBody.mk rm sat var c (.reg o) a ty3 ty2 rsv)).extractLsb' 0 10 = a.code := by
  unfold AluBody.write1
  iterate 3 refine (ext_skip _ _ _ _ (by decide)).trans ?_
  exact ext_all _

theorem AluBody.reg_rsv (rm : BitVec 2) (sat : Bool) (var : BitVec 8) (c : Operand) (o : Operand) (a : Operand)
    (ty3 ty2 : BitVec 4) (rsv : BitVec 15) :
    (AluBody.write2 (AluBody.mk rm sat var c (.reg o) a ty3 ty2 rsv)).extractLsb' 17 15 = rsv := by
  unfold AluBody.write2
  exact ext_hi _ _

theorem AluBody.reg_sat (rm : BitVec 2) (sat : Bool) (var : BitVec 8) (c : Operand) (o : Operand) (a : Operand)
    (ty3 ty2 : BitVec 4) (rsv : BitVec 15) :
    bitAt (AluBody.write2 (AluBody.mk rm sat var c (.reg o) a ty3 ty2 rsv)) 16 = sat := by
  unfold AluBody.write2
  refine bit_ext _ _ _ ?_
  iterate 1 refine (ext_skip _ _ _ _ (by decide)).trans ?_
  exact ext_hi _ _

theorem AluBody.reg_var (rm : BitVec 2) (sat : Bool) (var : BitVec 8) (c : Operand) (o : Operand) (a : Operand)
    (ty3 ty2 : BitVec 4) (rsv : BitVec 15) :
    (AluBody.write2 (AluBody.mk rm sat var c (.reg o) a ty3 ty2 rsv)).extractLsb' 8 8 = var := by
  unfold AluBody.write2
  iterate 2 refine (ext_skip _ _ _ _ (by decide)).trans ?_
  exact ext_hi _ _

theorem AluBody.reg_ty3 (rm : BitVec 2) (sat : Bool) (var : BitVec 8) (c : Operand) (o : Operand) (a : Operand)
    (ty3 ty2 : BitVec 4) (rsv : BitVec 15) :
    (AluBody.write2 (AluBody.mk rm sat var c (.reg o) a ty3 ty2 rsv)).extractLsb' 4 4 = ty3 := by
  unfold AluBody.write2
  iterate 3 refine (ext_skip _ _ _ _ (by decide)).trans ?_
  exact ext_hi _ _

theorem AluBody.reg_ty2 (rm : BitVec 2) (sat : Bool) (var : BitVec 8) (c : Operand) (o : Operand) (a : Operand)
    (ty3 ty2 : BitVec 4) (rsv : BitVec 15) :
    (AluBody.write2 (AluBody.mk rm sat var c (.reg o) a ty3 ty2 rsv)).extractLsb' 0 4 = ty2 := by
  unfold AluBody.write2
  iterate 4 refine (ext_skip _ _ _ _ (by decide)).trans ?_
  exact ext_all _

theorem AluBody.imm_rm (rm : BitVec 2) (sat : Bool) (var : BitVec 8) (c : Operand) (w : Word) (a : Operand)
    (ty3 ty2 : BitVec 4) (rsv : BitVec 15) :
    (AluBody.write1 (AluBody.mk rm sat var c (.imm w) a ty3 ty2 rsv)).extractLsb' 30 2 = rm := by
  unfold AluBody.write1
  exact ext_hi _ _

theorem AluBody.imm_rsv (rm : BitVec 2) (sat : Bool) (var : BitVec 8) (c : Operand) (w : Word) (a : Operand)
    (ty3 ty2 : BitVec 4) (rsv : BitVec 15) :
    (AluBody.write1 (AluBody.mk rm sat var c (.imm w) a ty3 ty2 rsv)).extractLsb' 29 1 = rsv.extractLsb' 0 1 := by
  unfold AluBody.write1
  iterate 1 refine (ext_skip _ _ _ _ (by decide)).trans ?_
  exact ext_hi _ _

theorem AluBody.imm_sat (rm : BitVec 2) (sat : Bool) (var : BitVec 8) (c : Operand) (w : Word) (a : Operand)
    (ty3 ty2 : BitVec 4) (rsv : BitVec 15) :
    bitAt (AluBody.write1 (AluBody.mk rm sat var c (.imm w) a ty3 ty2 rsv)) 28 = sat := by
  unfold AluBody.write1
  refine bit_ext _ _ _ ?_
  iterate 2 refine (ext_skip _ _ _ _ (by decide)).trans ?_
  exact ext_hi _ _

theorem AluBody.imm_var (rm : BitVec 2) (sat : Bool) (var : BitVec 8) (c : Operand) (w : Word) (a : Operand)
    (ty3 ty2 : BitVec 4) (rsv : BitVec 15) :
    (AluBody.write1 (AluBody.mk rm sat var c (.imm w) a ty3 ty2 rsv)).extractLsb' 20 8 = var := by
  unfold AluBody.write1
  iterate 3 refine (ext_skip _ _ _ _ (by decide)).trans ?_
  exact ext_hi _ _

theorem AluBody.imm_c (rm : BitVec 2) (sat : Bool) (var : BitVec 8) (c : Operand) (w : Word) (a : Operand)
    (ty3 ty2 : BitVec 4) (rsv : BitVec 15) :
    (AluBody.write1 (AluBody.mk rm sat var c (.imm w) a ty3 ty2 rsv)).extractLsb' 10 10 = c.code := by
  unfold AluBody.write1
  iterate 4 refine (ext_skip _ _ _ _ (by decide)).trans ?_
  exact ext_hi _ _

theorem AluBody.imm_a (rm : BitVec 2) (sat : Bool) (var : BitVec 8) (c : Operand) (w : Word) (a : Operand)
    (ty3 ty2 : BitVec 4) (rsv : BitVec 15) :
    (AluBody.write1 (AluBody.mk rm sat var c (.imm w) a ty3 ty2 rsv)).extractLsb' 0 10 = a.code := by
  unfold AluBody.write1
  iterate 5 refine (ext_skip _ _ _ _ (by decide)).trans ?_
  exact ext_all _

/-- Source B, when it is a register, has a code of its own. -/
def AluBody.properB (b : AluBody) : Bool := match b.b with | .reg o => o.proper | .imm _ => true

theorem AluBody.read_write (imm : Bool) (b : AluBody) (hf : b.fits imm = true) (ha : b.a.proper = true) (hb : b.properB = true)
    (hc : b.c.proper = true) : AluBody.read imm b.write1 b.write2 = b := by
  obtain ⟨rm, sat, var, c, bb, a, ty3, ty2, rsv⟩ := b
  simp only [AluBody.fits, Machine.Check.bodyFits, Bool.and_eq_true, beq_iff_eq] at hf
  obtain ⟨hf, rfl⟩ := hf
  cases bb with
  | reg o =>
    obtain rfl : imm = false := by simpa using hf
    simp only [AluBody.read, Bool.false_eq_true, if_false, AluBody.mk.injEq]
    exact ⟨AluBody.reg_rm .., AluBody.reg_sat .., AluBody.reg_var .., (congrArg _ (AluBody.reg_c ..)).trans (Operand.proper_eq hc),
      congrArg SrcB.reg ((congrArg _ (AluBody.reg_b ..)).trans (Operand.proper_eq hb)),
      (congrArg _ (AluBody.reg_a ..)).trans (Operand.proper_eq ha), AluBody.reg_ty3 .., AluBody.reg_ty2 .., AluBody.reg_rsv ..⟩
  | imm w =>
    simp only [Bool.and_eq_true, beq_iff_eq] at hf
    obtain ⟨⟨⟨rfl, rfl⟩, rfl⟩, -⟩ := hf
    simp only [AluBody.read, if_true, AluBody.mk.injEq, true_and]
    refine ⟨AluBody.imm_rm .., AluBody.imm_sat .., AluBody.imm_var .., (congrArg _ (AluBody.imm_c ..)).trans (Operand.proper_eq hc),
      rfl, (congrArg _ (AluBody.imm_a ..)).trans (Operand.proper_eq ha), ?_⟩
    rw [AluBody.imm_rsv]
    rfl

theorem AluBody.write1_read (imm : Bool) (w1 w2 : Word) : (AluBody.read imm w1 w2).write1 = w1 := by
  cases imm <;> simp only [AluBody.read, AluBody.write1, Bool.false_eq_true, if_false, if_true, Operand.code_ofCode, b1_bitAt]
  · rw [glue w1 0 10 10, glue w1 0 10 20, glue w1 0 2 30]
    exact ext_all w1
  · have h : (0#14 ++ w1.extractLsb' 29 1).extractLsb' 0 1 = w1.extractLsb' 29 1 :=
      (ext_skip _ _ _ _ (by decide)).trans (ext_all _)
    erw [h]
    rw [glue w1 0 10 10, glue w1 0 8 20, glue w1 0 1 28, glue w1 0 1 29, glue w1 0 2 30]
    exact ext_all w1

theorem AluBody.write2_read (imm : Bool) (w1 w2 : Word) : (AluBody.read imm w1 w2).write2 = w2 := by
  cases imm <;> simp only [AluBody.read, AluBody.write2, Bool.false_eq_true, if_false, if_true, b1_bitAt]
  rw [glue w2 0 4 4, glue w2 0 8 8, glue w2 0 1 16, glue w2 0 15 17]
  exact ext_all w2

end Sys2Proof
end

