-- ==== Sys2Proof/Laws/Checks.lean ====
section
/-! SUPPORT. What the static checks leave of a form's fields: every operand has a code of its own, and the literal stands where the
class says (R200, R202, R211). -/
namespace Sys2Proof
open Machine

/-! ### Operands that a check admits -/

theorem proper_src {k : Check.SK} {s w : Bool} {o : Operand} (h : Check.src k s w o = true) : o.proper = true := by
  cases o with
  | vec n => exact Operand.proper_vec n
  | sc n => exact Operand.proper_sc n
  | spec c => exact Operand.proper_spec c
  | pred n => exact Operand.proper_pred n
  | zero => exact Operand.proper_zero
  | other x => cases k <;> cases s <;> simp [Check.src, Check.srcS, Check.srcV, Check.unused, Check.isPred, Check.isVec, Check.isVecPair] at h

theorem proper_unused {o : Operand} (h : Check.unused o = true) : o.proper = true := by
  cases o with
  | vec n => exact Operand.proper_vec n
  | sc n => exact Operand.proper_sc n
  | spec c => exact Operand.proper_spec c
  | pred n => exact Operand.proper_pred n
  | zero => exact Operand.proper_zero
  | other x => simp [Check.unused] at h

theorem proper_isPred {o : Operand} (h : Check.isPred o = true) : o.proper = true := by
  cases o with
  | vec n => exact Operand.proper_vec n
  | sc n => exact Operand.proper_sc n
  | spec c => exact Operand.proper_spec c
  | pred n => exact Operand.proper_pred n
  | zero => exact Operand.proper_zero
  | other x => simp [Check.isPred] at h

theorem proper_isVec {o : Operand} (h : Check.isVec o = true) : o.proper = true := by
  cases o with
  | vec n => exact Operand.proper_vec n
  | sc n => exact Operand.proper_sc n
  | spec c => exact Operand.proper_spec c
  | pred n => exact Operand.proper_pred n
  | zero => exact Operand.proper_zero
  | other x => simp [Check.isVec] at h

theorem proper_isVecPair {o : Operand} (h : Check.isVecPair o = true) : o.proper = true := by
  cases o with
  | vec n => exact Operand.proper_vec n
  | sc n => exact Operand.proper_sc n
  | spec c => exact Operand.proper_spec c
  | pred n => exact Operand.proper_pred n
  | zero => exact Operand.proper_zero
  | other x => simp [Check.isVecPair] at h

theorem proper_isSc {o : Operand} (h : Check.isSc o = true) : o.proper = true := by
  cases o with
  | vec n => exact Operand.proper_vec n
  | sc n => exact Operand.proper_sc n
  | spec c => exact Operand.proper_spec c
  | pred n => exact Operand.proper_pred n
  | zero => exact Operand.proper_zero
  | other x => simp [Check.isSc] at h

theorem proper_isScOrZero {o : Operand} (h : Check.isScOrZero o = true) : o.proper = true := by
  cases o with
  | vec n => exact Operand.proper_vec n
  | sc n => exact Operand.proper_sc n
  | spec c => exact Operand.proper_spec c
  | pred n => exact Operand.proper_pred n
  | zero => exact Operand.proper_zero
  | other x => simp [Check.isScOrZero] at h

theorem proper_isVecOrZero {o : Operand} (h : Check.isVecOrZero o = true) : o.proper = true := by
  cases o with
  | vec n => exact Operand.proper_vec n
  | sc n => exact Operand.proper_sc n
  | spec c => exact Operand.proper_spec c
  | pred n => exact Operand.proper_pred n
  | zero => exact Operand.proper_zero
  | other x => simp [Check.isVecOrZero, Check.isVec] at h

theorem proper_isIndex {o : Operand} (h : Check.isIndex o = true) : o.proper = true := by
  cases o with
  | vec n => exact Operand.proper_vec n
  | sc n => exact Operand.proper_sc n
  | spec c => exact Operand.proper_spec c
  | pred n => exact Operand.proper_pred n
  | zero => exact Operand.proper_zero
  | other x => simp [Check.isIndex, Check.isVec, Check.isSc] at h

theorem proper_isTarget {o : Operand} (h : Check.isTarget o = true) : o.proper = true := by
  cases o with
  | vec n => exact Operand.proper_vec n
  | sc n => exact Operand.proper_sc n
  | spec c => exact Operand.proper_spec c
  | pred n => exact Operand.proper_pred n
  | zero => exact Operand.proper_zero
  | other x => simp [Check.isTarget, Check.isVecPair, Check.isSc] at h

theorem proper_base {k : Bool} {o : Operand} (h : Check.base k o = true) : o.proper = true := by
  cases o with
  | vec n => exact Operand.proper_vec n
  | sc n => exact Operand.proper_sc n
  | spec c => exact Operand.proper_spec c
  | pred n => exact Operand.proper_pred n
  | zero => exact Operand.proper_zero
  | other x => simp [Check.base] at h

theorem proper_index {k : Bool} {o : Operand} (h : Check.index k o = true) : o.proper = true := by
  cases o with
  | vec n => exact Operand.proper_vec n
  | sc n => exact Operand.proper_sc n
  | spec c => exact Operand.proper_spec c
  | pred n => exact Operand.proper_pred n
  | zero => exact Operand.proper_zero
  | other x => simp [Check.index] at h

theorem proper_stData {k : Bool} {o : Operand} (h : Check.stData k o = true) : o.proper = true := by
  cases o with
  | vec n => exact Operand.proper_vec n
  | sc n => exact Operand.proper_sc n
  | spec c => exact Operand.proper_spec c
  | pred n => exact Operand.proper_pred n
  | zero => exact Operand.proper_zero
  | other x => simp [Check.stData] at h

theorem proper_opData {k p : Bool} {nv ns : Nat} {o : Operand} (h : Check.opData k p nv ns o = true) : o.proper = true := by
  cases o with
  | vec n => exact Operand.proper_vec n
  | sc n => exact Operand.proper_sc n
  | spec c => exact Operand.proper_spec c
  | pred n => exact Operand.proper_pred n
  | zero => exact Operand.proper_zero
  | other x => simp [Check.opData] at h

theorem proper_vecRange {n : Nat} {o : Operand} (h : Check.vecRange n o = true) : o.proper = true := by
  cases o with
  | vec n => exact Operand.proper_vec n
  | sc n => exact Operand.proper_sc n
  | spec c => exact Operand.proper_spec c
  | pred n => exact Operand.proper_pred n
  | zero => exact Operand.proper_zero
  | other x => simp [Check.vecRange] at h

theorem proper_matSrc {k : Operand → Bool} {used bit : Bool} {o : Operand} (hk : ∀ o, k o = true → o.proper = true)
    (h : Check.matSrc k used bit o = true) : o.proper = true := by
  cases used <;> simp only [Check.matSrc, Bool.false_eq_true, if_false, if_true, Bool.and_eq_true] at h
  · exact proper_unused h.1
  · exact hk _ h.1

theorem proper_asySrc {used bit : Bool} {o : Operand} (h : Check.asySrc used bit o = true) : o.proper = true := by
  cases used <;> simp only [Check.asySrc, Bool.false_eq_true, if_false, if_true, Bool.and_eq_true] at h
  · exact proper_unused h.1
  · exact proper_isScOrZero h.1

/-! ### The classes VV, VI, SS and SI -/

/-- What reading back needs of a body of these classes, for a form whose literal stands where `imm` says. -/
def AluBody.Sound (imm : Bool) (b : AluBody) : Prop :=
  b.fits imm = true ∧ b.a.proper = true ∧ b.properB = true ∧ b.c.proper = true

theorem sound_alu {cl : List Nat} {ka kb kc : Check.SK} {kd : Check.DK} {w : Bool} {h : Hdr} {b : AluBody}
    (e : Check.alu cl ka kb kc kd w h b = true) : b.Sound (h.oc.getLsbD 0) := by
  simp only [Check.alu, Bool.and_eq_true] at e
  refine ⟨?_, proper_src e.1.1.1.1.1.1.1.1.2, ?_, proper_src e.1.1.1.1.1.2⟩
  · simp only [AluBody.fits, Bool.and_eq_true]
    exact ⟨e.1.1.1.1.1.1.1.1.1.1.2, e.1.1.1.1.1.1.1.1.1.2⟩
  · obtain ⟨rm, sat, var, c, bb, a, ty3, ty2, rsv⟩ := b
    cases bb with
    | reg o =>
      simp only [Bool.and_eq_true] at e
      exact proper_src e.1.1.1.1.1.1.2.1
    | imm w => rfl

theorem sound_si {k : Bool} {h : Hdr} {b : AluBody} (e : Check.si k h b = true) : b.Sound true := by
  simp only [Check.si, Bool.and_eq_true] at e
  refine ⟨?_, ?_, ?_, proper_unused e.1.1.1.2⟩
  · simp only [AluBody.fits, Bool.and_eq_true]
    exact ⟨e.1.1.1.1.1.2, e.1.1.1.1.2⟩
  · have ha := e.2
    cases k <;> simp only [Bool.false_eq_true, if_false, if_true, Bool.and_eq_true] at ha
    · exact proper_unused ha.1
    · exact proper_isSc ha
  · obtain ⟨rm, sat, var, c, bb, a, ty3, ty2, rsv⟩ := b
    cases bb with
    | reg o => simp [Check.bodyFits] at e
    | imm w => rfl

theorem sound_int {u sat : Bool} {ka kb kc : Check.SK} {kd : Check.DK} {h : Hdr} {b : AluBody} (e : Check.int u sat ka kb kc kd h b = true) : b.Sound (h.oc.getLsbD 0) := by
  simp only [Check.int, Bool.and_eq_true] at e
  casesm* _ ∧ _
  exact sound_alu (by assumption)

theorem sound_icmp {h : Hdr} {b : AluBody} (e : Check.icmp h b = true) : b.Sound (h.oc.getLsbD 0) := by
  simp only [Check.icmp, Bool.and_eq_true] at e
  casesm* _ ∧ _
  exact sound_alu (by assumption)

theorem sound_isel {h : Hdr} {b : AluBody} (e : Check.isel h b = true) : b.Sound (h.oc.getLsbD 0) := by
  simp only [Check.isel, Bool.and_eq_true] at e
  casesm* _ ∧ _
  exact sound_alu (by assumption)

theorem sound_lea {h : Hdr} {b : AluBody} (e : Check.lea h b = true) : b.Sound (h.oc.getLsbD 0) := by
  simp only [Check.lea, Bool.and_eq_true] at e
  casesm* _ ∧ _
  exact sound_alu (by assumption)

theorem sound_mov {h : Hdr} {b : AluBody} (e : Check.mov h b = true) : b.Sound (h.oc.getLsbD 0) := by
  simp only [Check.mov, Bool.and_eq_true] at e
  have e := e.2
  split at e <;> exact sound_alu e

theorem sound_bit {mask : BitVec 8} {cl : List Nat} {ka kb kc : Check.SK} {kd : Check.DK} {h : Hdr} {b : AluBody} (e : Check.bit mask cl ka kb kc kd h b = true) : b.Sound (h.oc.getLsbD 0) := by
  simp only [Check.bit, Bool.and_eq_true] at e
  casesm* _ ∧ _
  exact sound_alu (by assumption)

theorem sound_logt {h : Hdr} {b : AluBody} (e : Check.logt h b = true) : b.Sound (h.oc.getLsbD 0) := by
  simp only [Check.logt, Bool.and_eq_true] at e
  casesm* _ ∧ _
  exact sound_alu (by assumption)

theorem sound_plogt {h : Hdr} {b : AluBody} (e : Check.plogt h b = true) : b.Sound (h.oc.getLsbD 0) := by
  simp only [Check.plogt, Bool.and_eq_true] at e
  casesm* _ ∧ _
  exact sound_alu (by assumption)

theorem sound_shfl {h : Hdr} {b : AluBody} (e : Check.shfl h b = true) : b.Sound (h.oc.getLsbD 0) := by
  simp only [Check.shfl, Bool.and_eq_true] at e
  casesm* _ ∧ _
  exact sound_alu (by assumption)

theorem sound_vote {h : Hdr} {b : AluBody} (e : Check.vote h b = true) : b.Sound (h.oc.getLsbD 0) := by
  simp only [Check.vote, Bool.and_eq_true] at e
  have e := e.2
  split at e <;> exact sound_alu e

theorem sound_matchLanes {h : Hdr} {b : AluBody} (e : Check.matchLanes h b = true) : b.Sound (h.oc.getLsbD 0) := by
  simp only [Check.matchLanes, Bool.and_eq_true] at e
  casesm* _ ∧ _
  exact sound_alu (by assumption)

theorem sound_scan {excl : Bool} {h : Hdr} {b : AluBody} (e : Check.scan excl h b = true) : b.Sound (h.oc.getLsbD 0) := by
  simp only [Check.scan, Bool.and_eq_true] at e
  casesm* _ ∧ _
  exact sound_alu (by assumption)

theorem sound_bcast {h : Hdr} {b : AluBody} (e : Check.bcast h b = true) : b.Sound (h.oc.getLsbD 0) := by
  simp only [Check.bcast, Bool.and_eq_true] at e
  casesm* _ ∧ _
  exact sound_alu (by assumption)

theorem sound_solo {h : Hdr} {b : AluBody} (e : Check.solo h b = true) : b.Sound (h.oc.getLsbD 0) := by
  simp only [Check.solo, Bool.and_eq_true] at e
  casesm* _ ∧ _
  exact sound_alu (by assumption)

theorem sound_mget {h : Hdr} {b : AluBody} (e : Check.mget h b = true) : b.Sound (h.oc.getLsbD 0) := by
  simp only [Check.mget, Bool.and_eq_true] at e
  casesm* _ ∧ _
  exact sound_alu (by assumption)

theorem sound_p2s {h : Hdr} {b : AluBody} (e : Check.p2s h b = true) : b.Sound (h.oc.getLsbD 0) := by
  simp only [Check.p2s, Bool.and_eq_true] at e
  casesm* _ ∧ _
  exact sound_alu (by assumption)

theorem sound_s2p {h : Hdr} {b : AluBody} (e : Check.s2p h b = true) : b.Sound (h.oc.getLsbD 0) := by
  simp only [Check.s2p, Bool.and_eq_true] at e
  casesm* _ ∧ _
  exact sound_alu (by assumption)

theorem sound_pcnt {h : Hdr} {b : AluBody} (e : Check.pcnt h b = true) : b.Sound (h.oc.getLsbD 0) := by
  simp only [Check.pcnt, Bool.and_eq_true] at e
  casesm* _ ∧ _
  exact sound_alu (by assumption)

theorem sound_flt {types : BitVec 4 → Bool} {cl : List Nat} {rm sat : Bool} {mask : BitVec 8} {ka kb kc : Check.SK} {kd : Check.DK} {h : Hdr} {b : AluBody} (e : Check.flt types cl rm sat mask ka kb kc kd h b = true) : b.Sound (h.oc.getLsbD 0) := by
  simp only [Check.flt, Bool.and_eq_true] at e
  casesm* _ ∧ _
  exact sound_alu (by assumption)

theorem sound_fcmp {h : Hdr} {b : AluBody} (e : Check.fcmp h b = true) : b.Sound (h.oc.getLsbD 0) := by
  simp only [Check.fcmp, Check.flt, Bool.and_eq_true] at e
  casesm* _ ∧ _
  exact sound_alu (by assumption)

theorem sound_fscale {h : Hdr} {b : AluBody} (e : Check.fscale h b = true) : b.Sound (h.oc.getLsbD 0) := by
  simp only [Check.fscale, Bool.and_eq_true] at e
  casesm* _ ∧ _
  exact sound_alu (by assumption)

theorem sound_fdot4 {h : Hdr} {b : AluBody} (e : Check.fdot4 h b = true) : b.Sound (h.oc.getLsbD 0) := by
  simp only [Check.fdot4, Check.typed, Bool.and_eq_true] at e
  casesm* _ ∧ _
  exact sound_alu (by assumption)

theorem sound_idot4 {h : Hdr} {b : AluBody} (e : Check.idot4 h b = true) : b.Sound (h.oc.getLsbD 0) := by
  simp only [Check.idot4, Check.typed, Bool.and_eq_true] at e
  casesm* _ ∧ _
  exact sound_alu (by assumption)

theorem sound_hdot2 {h : Hdr} {b : AluBody} (e : Check.hdot2 h b = true) : b.Sound (h.oc.getLsbD 0) := by
  simp only [Check.hdot2, Check.typed, Bool.and_eq_true] at e
  casesm* _ ∧ _
  exact sound_alu (by assumption)

theorem sound_cvt {h : Hdr} {b : AluBody} (e : Check.cvt h b = true) : b.Sound (h.oc.getLsbD 0) := by
  simp only [Check.cvt, Check.typed, Bool.and_eq_true] at e
  casesm* _ ∧ _
  exact sound_alu (by assumption)

theorem sound_cvtp {h : Hdr} {b : AluBody} (e : Check.cvtp h b = true) : b.Sound (h.oc.getLsbD 0) := by
  simp only [Check.cvtp, Check.typed, Bool.and_eq_true] at e
  casesm* _ ∧ _
  exact sound_alu (by assumption)

theorem sound_cvts {h : Hdr} {b : AluBody} (e : Check.cvts h b = true) : b.Sound (h.oc.getLsbD 0) := by
  simp only [Check.cvts, Check.typed, Bool.and_eq_true] at e
  casesm* _ ∧ _
  exact sound_alu (by assumption)

theorem sound_qnt {h : Hdr} {b : AluBody} (e : Check.qnt h b = true) : b.Sound (h.oc.getLsbD 0) := by
  simp only [Check.qnt, Check.typed, Bool.and_eq_true] at e
  casesm* _ ∧ _
  exact sound_alu (by assumption)

theorem sound_qnts {h : Hdr} {b : AluBody} (e : Check.qnts h b = true) : b.Sound (h.oc.getLsbD 0) := by
  simp only [Check.qnts, Check.typed, Bool.and_eq_true] at e
  casesm* _ ∧ _
  exact sound_alu (by assumption)

theorem sound_dqnt {h : Hdr} {b : AluBody} (e : Check.dqnt h b = true) : b.Sound (h.oc.getLsbD 0) := by
  simp only [Check.dqnt, Check.typed, Bool.and_eq_true] at e
  casesm* _ ∧ _
  exact sound_alu (by assumption)

theorem sound_latq {h : Hdr} {b : AluBody} (e : Check.latq h b = true) : b.Sound (h.oc.getLsbD 0) := by
  simp only [Check.latq, Check.typed, Bool.and_eq_true] at e
  casesm* _ ∧ _
  exact sound_alu (by assumption)

theorem sound_pack {h : Hdr} {b : AluBody} (e : Check.pack h b = true) : b.Sound (h.oc.getLsbD 0) := by
  simp only [Check.pack, Check.typed, Bool.and_eq_true] at e
  casesm* _ ∧ _
  exact sound_alu (by assumption)

theorem sound_unpack {h : Hdr} {b : AluBody} (e : Check.unpack h b = true) : b.Sound (h.oc.getLsbD 0) := by
  simp only [Check.unpack, Check.typed, Bool.and_eq_true] at e
  casesm* _ ∧ _
  exact sound_alu (by assumption)

theorem sound_t5pk {h : Hdr} {b : AluBody} (e : Check.t5pk h b = true) : b.Sound (h.oc.getLsbD 0) := by
  simp only [Check.t5pk, Check.typed, Bool.and_eq_true] at e
  casesm* _ ∧ _
  exact sound_alu (by assumption)

theorem sound_t5up {h : Hdr} {b : AluBody} (e : Check.t5up h b = true) : b.Sound (h.oc.getLsbD 0) := by
  simp only [Check.t5up, Check.typed, Bool.and_eq_true] at e
  casesm* _ ∧ _
  exact sound_alu (by assumption)

theorem sound_bmax {h : Hdr} {b : AluBody} (e : Check.bmax h b = true) : b.Sound (h.oc.getLsbD 0) := by
  simp only [Check.bmax, Check.typed, Bool.and_eq_true] at e
  casesm* _ ∧ _
  exact sound_alu (by assumption)

theorem sound_bar {h : Hdr} {b : AluBody} (e : Check.bar h b = true) : b.Sound true := by
  simp only [Check.bar, Bool.and_eq_true] at e
  casesm* _ ∧ _
  exact sound_si (by assumption)

theorem sound_fence {h : Hdr} {b : AluBody} (e : Check.fence h b = true) : b.Sound true := by
  simp only [Check.fence, Bool.and_eq_true] at e
  casesm* _ ∧ _
  exact sound_si (by assumption)

theorem sound_rgnOpen {h : Hdr} {b : AluBody} (e : Check.rgnOpen h b = true) : b.Sound true := by
  simp only [Check.rgnOpen, Bool.and_eq_true] at e
  casesm* _ ∧ _
  exact sound_si (by assumption)

/-! ### The other classes -/

/-- What reading back needs of a body of this class. -/
def MemBody.Sound (b : MemBody) : Prop := b.base.proper = true ∧ b.index.proper = true ∧ b.data.proper = true

theorem sound_ld {h : Hdr} {b : MemBody} (e : Check.ld h b = true) : b.Sound := by
  simp only [Check.ld, Check.mem, Check.noData, Bool.and_eq_true] at e
  casesm* _ ∧ _
  exact ⟨proper_base (by assumption), proper_index (by assumption), proper_unused (by assumption)⟩

theorem sound_ldu {h : Hdr} {b : MemBody} (e : Check.ldu h b = true) : b.Sound := by
  simp only [Check.ldu, Check.mem, Check.noData, Bool.and_eq_true] at e
  casesm* _ ∧ _
  exact ⟨proper_base (by assumption), proper_index (by assumption), proper_unused (by assumption)⟩

theorem sound_lds {h : Hdr} {b : MemBody} (e : Check.lds h b = true) : b.Sound := by
  simp only [Check.lds, Check.mem, Check.noData, Bool.and_eq_true] at e
  casesm* _ ∧ _
  exact ⟨proper_base (by assumption), proper_index (by assumption), proper_unused (by assumption)⟩

theorem sound_ldv {h : Hdr} {b : MemBody} (e : Check.ldv h b = true) : b.Sound := by
  simp only [Check.ldv, Check.mem, Check.noData, Bool.and_eq_true] at e
  casesm* _ ∧ _
  exact ⟨proper_base (by assumption), proper_index (by assumption), proper_unused (by assumption)⟩

theorem sound_prefD {h : Hdr} {b : MemBody} (e : Check.prefD h b = true) : b.Sound := by
  simp only [Check.prefD, Check.mem, Check.noData, Bool.and_eq_true] at e
  casesm* _ ∧ _
  exact ⟨proper_base (by assumption), proper_index (by assumption), proper_unused (by assumption)⟩

theorem sound_probe {h : Hdr} {b : MemBody} (e : Check.probe h b = true) : b.Sound := by
  simp only [Check.probe, Check.mem, Check.noData, Bool.and_eq_true] at e
  casesm* _ ∧ _
  exact ⟨proper_base (by assumption), proper_index (by assumption), proper_unused (by assumption)⟩

theorem sound_st {h : Hdr} {b : MemBody} (e : Check.st h b = true) : b.Sound := by
  simp only [Check.st, Check.mem, Bool.and_eq_true] at e
  casesm* _ ∧ _
  exact ⟨proper_base (by assumption), proper_index (by assumption), proper_stData (by assumption)⟩

theorem sound_sts {h : Hdr} {b : MemBody} (e : Check.sts h b = true) : b.Sound := by
  simp only [Check.sts, Check.mem, Bool.and_eq_true] at e
  casesm* _ ∧ _
  exact ⟨proper_base (by assumption), proper_index (by assumption), proper_isSc (by assumption)⟩

theorem sound_stv {h : Hdr} {b : MemBody} (e : Check.stv h b = true) : b.Sound := by
  simp only [Check.stv, Check.mem, Bool.and_eq_true] at e
  casesm* _ ∧ _
  exact ⟨proper_base (by assumption), proper_index (by assumption), proper_isVecPair (by assumption)⟩

theorem sound_stz {h : Hdr} {b : MemBody} (e : Check.stz h b = true) : b.Sound := by
  simp only [Check.stz, Check.mem, Check.noData, Bool.and_eq_true] at e
  casesm* _ ∧ _
  exact ⟨proper_base (by assumption), proper_index (by assumption), proper_unused (by assumption)⟩

theorem sound_stzLine {h : Hdr} {b : MemBody} (e : Check.stzLine h b = true) : b.Sound := by
  simp only [Check.stzLine, Check.mem, Check.noData, Bool.and_eq_true] at e
  casesm* _ ∧ _
  exact ⟨proper_base (by assumption), proper_index (by assumption), proper_unused (by assumption)⟩

theorem sound_tdef {h : Hdr} {b : MemBody} (e : Check.tdef h b = true) : b.Sound := by
  simp only [Check.tdef, Check.tile, Check.noAddr, Bool.and_eq_true] at e
  casesm* _ ∧ _
  exact ⟨proper_unused (by assumption), proper_unused (by assumption), proper_isSc (by assumption)⟩

theorem sound_tld {h : Hdr} {b : MemBody} (e : Check.tld h b = true) : b.Sound := by
  simp only [Check.tld, Check.mem, Check.noData, Check.tile, Bool.and_eq_true] at e
  casesm* _ ∧ _
  exact ⟨proper_base (by assumption), proper_index (by assumption), proper_unused (by assumption)⟩

theorem sound_tstr {h : Hdr} {b : MemBody} (e : Check.tstr h b = true) : b.Sound := by
  simp only [Check.tstr, Check.mem, Check.noData, Check.tile, Bool.and_eq_true] at e
  casesm* _ ∧ _
  exact ⟨proper_base (by assumption), proper_index (by assumption), proper_unused (by assumption)⟩

theorem sound_trel {h : Hdr} {b : MemBody} (e : Check.trel h b = true) : b.Sound := by
  simp only [Check.trel, Check.noData, Check.tile, Check.noAddr, Bool.and_eq_true] at e
  casesm* _ ∧ _
  exact ⟨proper_unused (by assumption), proper_unused (by assumption), proper_unused (by assumption)⟩

theorem sound_tqry {h : Hdr} {b : MemBody} (e : Check.tqry h b = true) : b.Sound := by
  simp only [Check.tqry, Check.noData, Check.tile, Check.noAddr, Bool.and_eq_true] at e
  casesm* _ ∧ _
  exact ⟨proper_unused (by assumption), proper_unused (by assumption), proper_unused (by assumption)⟩

theorem sound_cacheOp {h : Hdr} {b : MemBody} (e : Check.cacheOp h b = true) : b.Sound := by
  simp only [Check.cacheOp, Check.mem, Check.noData, Bool.and_eq_true] at e
  casesm* _ ∧ _
  exact ⟨proper_base (by assumption), proper_index (by assumption), proper_unused (by assumption)⟩

theorem sound_atom {oc : Nat} {once : Bool} {h : Hdr} {b : MemBody} (e : Check.atom oc once h b = true) : b.Sound := by
  simp only [Check.atom, Check.atomCommon, Check.mem, Bool.and_eq_true] at e
  casesm* _ ∧ _
  exact ⟨proper_base (by assumption), proper_index (by assumption), proper_opData (by assumption)⟩

theorem sound_red {oc : Nat} {once : Bool} {h : Hdr} {b : MemBody} (e : Check.red oc once h b = true) : b.Sound := by
  simp only [Check.red, Check.atomCommon, Check.mem, Bool.and_eq_true] at e
  casesm* _ ∧ _
  exact ⟨proper_base (by assumption), proper_index (by assumption), proper_opData (by assumption)⟩

theorem sound_cas {oc : Nat} {once : Bool} {h : Hdr} {b : MemBody} (e : Check.cas oc once h b = true) : b.Sound := by
  simp only [Check.cas, Check.atomCommon, Check.mem, Bool.and_eq_true] at e
  casesm* _ ∧ _
  exact ⟨proper_base (by assumption), proper_index (by assumption), proper_opData (by assumption)⟩

theorem sound_fixed {r : Nat} {h : Hdr} {b : MemBody} (e : Check.fixed r h b = true) : b.Sound := by
  simp only [Check.fixed, Check.atomCommon, Check.mem, Bool.and_eq_true] at e
  casesm* _ ∧ _
  exact ⟨proper_base (by assumption), proper_index (by assumption), proper_opData (by assumption)⟩

theorem sound_cas4 {h : Hdr} {b : MemBody} (e : Check.cas4 h b = true) : b.Sound := by
  simp only [Check.cas4, Check.atomCommon, Check.mem, Bool.and_eq_true] at e
  casesm* _ ∧ _
  exact ⟨proper_base (by assumption), proper_index (by assumption), proper_opData (by assumption)⟩

theorem sound_opk {oc : Nat} {once : Bool} {h : Hdr} {b : MemBody} (e : Check.opk oc once h b = true) : b.Sound := by
  simp only [Check.opk, Check.atomCommon, Check.mem, Bool.and_eq_true] at e
  casesm* _ ∧ _
  exact ⟨proper_base (by assumption), proper_index (by assumption), proper_opData (by assumption)⟩

theorem sound_opkx {oc : Nat} {once : Bool} {h : Hdr} {b : MemBody} (e : Check.opkx oc once h b = true) : b.Sound := by
  simp only [Check.opkx, Check.atomCommon, Check.mem, Bool.and_eq_true] at e
  casesm* _ ∧ _
  exact ⟨proper_base (by assumption), proper_index (by assumption), proper_opData (by assumption)⟩

theorem sound_objArr {h : Hdr} {b : MemBody} (e : Check.objArr h b = true) : b.Sound := by
  simp only [Check.objArr, Check.sync, Check.mem, Bool.and_eq_true] at e
  casesm* _ ∧ _
  exact ⟨proper_base (by assumption), proper_index (by assumption), proper_isSc (by assumption)⟩

theorem sound_objWait {v : Nat} {h : Hdr} {b : MemBody} (e : Check.objWait v h b = true) : b.Sound := by
  simp only [Check.objWait, Check.sync, Check.mem, Bool.and_eq_true] at e
  casesm* _ ∧ _
  exact ⟨proper_base (by assumption), proper_index (by assumption), proper_isSc (by assumption)⟩

theorem sound_waitc {h : Hdr} {b : MemBody} (e : Check.waitc h b = true) : b.Sound := by
  simp only [Check.waitc, Check.sync, Check.mem, Bool.and_eq_true] at e
  casesm* _ ∧ _
  exact ⟨proper_base (by assumption), proper_index (by assumption), proper_isSc (by assumption)⟩

theorem sound_signal {h : Hdr} {b : MemBody} (e : Check.signal h b = true) : b.Sound := by
  simp only [Check.signal, Check.sync, Check.mem, Bool.and_eq_true] at e
  casesm* _ ∧ _
  exact ⟨proper_base (by assumption), proper_index (by assumption), proper_isSc (by assumption)⟩

/-- What reading back needs of a body of this class. -/
def CtlBody.Sound (b : CtlBody) : Prop := b.a.proper = true

theorem sound_ctlNone {h : Hdr} {b : CtlBody} (e : Check.ctlNone h b = true) : b.Sound := by
  simp only [Check.ctlNone, Check.ctl, Bool.false_eq_true, if_false, Bool.and_eq_true] at e
  casesm* _ ∧ _
  exact proper_unused (by assumption)

theorem sound_bra {h : Hdr} {b : CtlBody} (e : Check.bra h b = true) : b.Sound := by
  simp only [Check.bra, Check.ctl, Bool.false_eq_true, if_false, Bool.and_eq_true] at e
  casesm* _ ∧ _
  exact proper_unused (by assumption)

theorem sound_brc {h : Hdr} {b : CtlBody} (e : Check.brc h b = true) : b.Sound := by
  simp only [Check.brc, Check.ctl, Bool.false_eq_true, if_false, if_true, Bool.and_eq_true] at e
  casesm* _ ∧ _
  exact proper_isPred (by assumption)

theorem sound_brany {h : Hdr} {b : CtlBody} (e : Check.brany h b = true) : b.Sound := by
  simp only [Check.brany, Check.ctl, Bool.false_eq_true, if_false, if_true, Bool.and_eq_true] at e
  casesm* _ ∧ _
  exact proper_isPred (by assumption)

theorem sound_loop {h : Hdr} {b : CtlBody} (e : Check.loop h b = true) : b.Sound := by
  simp only [Check.loop, Check.ctl, Bool.false_eq_true, if_false, Bool.and_eq_true] at e
  casesm* _ ∧ _
  exact proper_unused (by assumption)

theorem sound_jtab {h : Hdr} {b : CtlBody} (e : Check.jtab h b = true) : b.Sound := by
  simp only [Check.jtab, Check.ctl, if_true, Bool.and_eq_true] at e
  casesm* _ ∧ _
  exact proper_isIndex (by assumption)

theorem sound_call {h : Hdr} {b : CtlBody} (e : Check.call h b = true) : b.Sound := by
  simp only [Check.call, Check.ctl, Bool.false_eq_true, if_false, Bool.and_eq_true] at e
  casesm* _ ∧ _
  exact proper_unused (by assumption)

theorem sound_callInd {h : Hdr} {b : CtlBody} (e : Check.callInd h b = true) : b.Sound := by
  simp only [Check.callInd, Check.ctl, Bool.false_eq_true, if_false, if_true, Bool.and_eq_true] at e
  casesm* _ ∧ _
  exact proper_unused (by assumption)

theorem sound_callt {h : Hdr} {b : CtlBody} (e : Check.callt h b = true) : b.Sound := by
  simp only [Check.callt, Check.ctl, if_true, Bool.and_eq_true] at e
  casesm* _ ∧ _
  exact proper_isIndex (by assumption)

theorem sound_ret {h : Hdr} {b : CtlBody} (e : Check.ret h b = true) : b.Sound := by
  simp only [Check.ret, Check.ctl, Bool.false_eq_true, if_false, if_true, Bool.and_eq_true] at e
  casesm* _ ∧ _
  exact proper_isTarget (by assumption)

theorem sound_pad {h : Hdr} {b : CtlBody} (e : Check.pad h b = true) : b.Sound := by
  simp only [Check.pad, Check.ctl, Bool.false_eq_true, if_false, Bool.and_eq_true] at e
  casesm* _ ∧ _
  exact proper_unused (by assumption)

theorem sound_brx {h : Hdr} {b : CtlBody} (e : Check.brx h b = true) : b.Sound := by
  simp only [Check.brx, Check.ctl, Bool.false_eq_true, if_false, if_true, Bool.and_eq_true] at e
  casesm* _ ∧ _
  exact proper_isTarget (by assumption)

theorem sound_prefI {h : Hdr} {b : CtlBody} (e : Check.prefI h b = true) : b.Sound := by
  simp only [Check.prefI, Check.ctl, Bool.false_eq_true, if_false, Bool.and_eq_true] at e
  casesm* _ ∧ _
  exact proper_unused (by assumption)

theorem sound_icinv {h : Hdr} {b : CtlBody} (e : Check.icinv h b = true) : b.Sound := by
  simp only [Check.icinv, Check.ctl, Bool.false_eq_true, if_false, if_true, Bool.and_eq_true] at e
  casesm* _ ∧ _
  exact proper_isSc (by assumption)

theorem sound_icinvAll {h : Hdr} {b : CtlBody} (e : Check.icinvAll h b = true) : b.Sound := by
  simp only [Check.icinvAll, Check.ctl, Bool.false_eq_true, if_false, Bool.and_eq_true] at e
  casesm* _ ∧ _
  exact proper_unused (by assumption)

theorem sound_trap {h : Hdr} {b : CtlBody} (e : Check.trap h b = true) : b.Sound := by
  simp only [Check.trap, Check.ctl, Bool.false_eq_true, if_false, Bool.and_eq_true] at e
  casesm* _ ∧ _
  exact proper_unused (by assumption)

theorem sound_getpc {h : Hdr} {b : CtlBody} (e : Check.getpc h b = true) : b.Sound := by
  simp only [Check.getpc, Check.ctl, Bool.false_eq_true, if_false, Bool.and_eq_true] at e
  casesm* _ ∧ _
  exact proper_unused (by assumption)

theorem sound_commit {h : Hdr} {b : CtlBody} (e : Check.commit h b = true) : b.Sound := by
  simp only [Check.commit, Check.ctl, Bool.false_eq_true, if_false, if_true, Bool.and_eq_true] at e
  casesm* _ ∧ _
  exact proper_isSc (by assumption)

theorem sound_commitPark {h : Hdr} {b : CtlBody} (e : Check.commitPark h b = true) : b.Sound := by
  simp only [Check.commitPark, Check.ctl, Bool.false_eq_true, if_false, if_true, Bool.and_eq_true] at e
  casesm* _ ∧ _
  exact proper_isSc (by assumption)

/-- What reading back needs of a body of this class. -/
def MatBody.Sound (b : MatBody) : Prop := b.a.proper = true ∧ b.b.proper = true ∧ b.c.proper = true

theorem sound_mlatchReg {h : Hdr} {b : MatBody} (e : Check.mlatchReg h b = true) : b.Sound := by
  simp only [Check.mlatchReg, Check.mat, Bool.and_eq_true] at e
  casesm* _ ∧ _
  exact ⟨proper_matSrc (fun _ => proper_vecRange) (by assumption), proper_matSrc (fun _ => proper_isSc) (by assumption), proper_matSrc (fun _ => proper_isSc) (by assumption)⟩

theorem sound_mlatchSp {h : Hdr} {b : MatBody} (e : Check.mlatchSp h b = true) : b.Sound := by
  simp only [Check.mlatchSp, Check.mat, Bool.and_eq_true] at e
  casesm* _ ∧ _
  exact ⟨proper_matSrc (fun _ => proper_isSc) (by assumption), proper_matSrc (fun _ => proper_isSc) (by assumption), proper_matSrc (fun _ => proper_isSc) (by assumption)⟩

theorem sound_mmqReg {h : Hdr} {b : MatBody} (e : Check.mmqReg h b = true) : b.Sound := by
  simp only [Check.mmqReg, Check.mat, Bool.and_eq_true] at e
  casesm* _ ∧ _
  exact ⟨proper_matSrc (fun _ => proper_vecRange) (by assumption), proper_matSrc (fun _ => proper_isSc) (by assumption), proper_matSrc (fun _ => proper_vecRange) (by assumption)⟩

theorem sound_mmqSp {h : Hdr} {b : MatBody} (e : Check.mmqSp h b = true) : b.Sound := by
  simp only [Check.mmqSp, Check.mat, Bool.and_eq_true] at e
  casesm* _ ∧ _
  exact ⟨proper_matSrc (fun _ => proper_isSc) (by assumption), proper_matSrc (fun _ => proper_isSc) (by assumption), proper_matSrc (fun _ => proper_isSc) (by assumption)⟩

theorem sound_maccZ {h : Hdr} {b : MatBody} (e : Check.maccZ h b = true) : b.Sound := by
  simp only [Check.maccZ, Check.mat, Check.matNoSrc, Bool.and_eq_true] at e
  casesm* _ ∧ _
  exact ⟨proper_matSrc (fun _ => proper_isSc) (by assumption), proper_matSrc (fun _ => proper_isSc) (by assumption), proper_matSrc (fun _ => proper_isSc) (by assumption)⟩

theorem sound_maccZAll {h : Hdr} {b : MatBody} (e : Check.maccZAll h b = true) : b.Sound := by
  simp only [Check.maccZAll, Check.mat, Check.matNoSrc, Bool.and_eq_true] at e
  casesm* _ ∧ _
  exact ⟨proper_matSrc (fun _ => proper_isSc) (by assumption), proper_matSrc (fun _ => proper_isSc) (by assumption), proper_matSrc (fun _ => proper_isSc) (by assumption)⟩

theorem sound_maccLd {h : Hdr} {b : MatBody} (e : Check.maccLd h b = true) : b.Sound := by
  simp only [Check.maccLd, Check.mat, Bool.and_eq_true] at e
  casesm* _ ∧ _
  exact ⟨proper_matSrc (fun _ => proper_vecRange) (by assumption), proper_matSrc (fun _ => proper_isSc) (by assumption), proper_matSrc (fun _ => proper_isSc) (by assumption)⟩

theorem sound_maccSt {h : Hdr} {b : MatBody} (e : Check.maccSt h b = true) : b.Sound := by
  simp only [Check.maccSt, Check.mat, Check.matNoSrc, Bool.and_eq_true] at e
  casesm* _ ∧ _
  exact ⟨proper_matSrc (fun _ => proper_isSc) (by assumption), proper_matSrc (fun _ => proper_isSc) (by assumption), proper_matSrc (fun _ => proper_isSc) (by assumption)⟩

theorem sound_maccCp {oc : Nat} {h : Hdr} {b : MatBody} (e : Check.maccCp oc h b = true) : b.Sound := by
  simp only [Check.maccCp, Check.mat, Check.matNoSrc, Bool.and_eq_true] at e
  casesm* _ ∧ _
  exact ⟨proper_matSrc (fun _ => proper_isSc) (by assumption), proper_matSrc (fun _ => proper_isSc) (by assumption), proper_matSrc (fun _ => proper_isSc) (by assumption)⟩

theorem sound_maccScl {h : Hdr} {b : MatBody} (e : Check.maccScl h b = true) : b.Sound := by
  simp only [Check.maccScl, Check.mat, Bool.and_eq_true] at e
  casesm* _ ∧ _
  exact ⟨proper_matSrc (fun _ => proper_isVecOrZero) (by assumption), proper_matSrc (fun _ => proper_isVecOrZero) (by assumption), proper_matSrc (fun _ => proper_isSc) (by assumption)⟩

theorem sound_stage {k : Operand → Bool} {h : Hdr} {b : MatBody} (hk : ∀ o, k o = true → o.proper = true) (e : Check.stage k h b = true) : b.Sound := by
  simp only [Check.stage, Check.mat, Bool.and_eq_true] at e
  casesm* _ ∧ _
  exact ⟨proper_matSrc hk (by assumption), proper_matSrc (fun _ => proper_isSc) (by assumption), proper_matSrc (fun _ => proper_isSc) (by assumption)⟩

theorem sound_mrel {h : Hdr} {b : MatBody} (e : Check.mrel h b = true) : b.Sound := by
  simp only [Check.mrel, Check.mat, Check.matNoSrc, Bool.and_eq_true] at e
  casesm* _ ∧ _
  exact ⟨proper_matSrc (fun _ => proper_isSc) (by assumption), proper_matSrc (fun _ => proper_isSc) (by assumption), proper_matSrc (fun _ => proper_isSc) (by assumption)⟩

theorem sound_mwait {h : Hdr} {b : MatBody} (e : Check.mwait h b = true) : b.Sound := by
  simp only [Check.mwait, Check.mat, Check.matNoSrc, Bool.and_eq_true] at e
  casesm* _ ∧ _
  exact ⟨proper_matSrc (fun _ => proper_isSc) (by assumption), proper_matSrc (fun _ => proper_isSc) (by assumption), proper_matSrc (fun _ => proper_isSc) (by assumption)⟩

theorem sound_mstat {h : Hdr} {b : MatBody} (e : Check.mstat h b = true) : b.Sound := by
  simp only [Check.mstat, Check.mat, Check.matNoSrc, Bool.and_eq_true] at e
  casesm* _ ∧ _
  exact ⟨proper_matSrc (fun _ => proper_isSc) (by assumption), proper_matSrc (fun _ => proper_isSc) (by assumption), proper_matSrc (fun _ => proper_isSc) (by assumption)⟩

/-- What reading back needs of a body of this class. -/
def AsyBody.Sound (b : AsyBody) : Prop := b.a.proper = true ∧ b.b.proper = true ∧ b.c.proper = true

theorem sound_acopy {h : Hdr} {b : AsyBody} (e : Check.acopy h b = true) : b.Sound := by
  simp only [Check.acopy, Check.asy, Bool.and_eq_true] at e
  have e := e.2
  split at e <;> (simp only [Bool.and_eq_true] at e; casesm* _ ∧ _; exact ⟨proper_asySrc (by assumption), proper_asySrc (by assumption), proper_asySrc (by assumption)⟩)

theorem sound_agath {h : Hdr} {b : AsyBody} (e : Check.agath h b = true) : b.Sound := by
  simp only [Check.agath, Check.asy, Bool.and_eq_true] at e
  casesm* _ ∧ _
  exact ⟨proper_asySrc (by assumption), proper_asySrc (by assumption), proper_asySrc (by assumption)⟩

theorem sound_acoll {h : Hdr} {b : AsyBody} (e : Check.acoll h b = true) : b.Sound := by
  simp only [Check.acoll, Check.asy, Bool.and_eq_true] at e
  casesm* _ ∧ _
  exact ⟨proper_asySrc (by assumption), proper_asySrc (by assumption), proper_asySrc (by assumption)⟩

theorem sound_afill {h : Hdr} {b : AsyBody} (e : Check.afill h b = true) : b.Sound := by
  simp only [Check.afill, Check.asy, Bool.and_eq_true] at e
  casesm* _ ∧ _
  exact ⟨proper_asySrc (by assumption), proper_asySrc (by assumption), proper_asySrc (by assumption)⟩

theorem sound_acopyt {h : Hdr} {b : AsyBody} (e : Check.acopyt h b = true) : b.Sound := by
  simp only [Check.acopyt, Check.asy, Bool.and_eq_true] at e
  casesm* _ ∧ _
  exact ⟨proper_asySrc (by assumption), proper_asySrc (by assumption), proper_asySrc (by assumption)⟩

theorem sound_apref {h : Hdr} {b : AsyBody} (e : Check.apref h b = true) : b.Sound := by
  simp only [Check.apref, Check.asy, Bool.and_eq_true] at e
  casesm* _ ∧ _
  exact ⟨proper_asySrc (by assumption), proper_asySrc (by assumption), proper_asySrc (by assumption)⟩

theorem sound_aqry {h : Hdr} {b : AsyBody} (e : Check.aqry h b = true) : b.Sound := by
  simp only [Check.aqry, Check.asy, Bool.and_eq_true] at e
  casesm* _ ∧ _
  exact ⟨proper_asySrc (by assumption), proper_asySrc (by assumption), proper_asySrc (by assumption)⟩

theorem sound_lnch {h : Hdr} {b : AsyBody} (e : Check.lnch h b = true) : b.Sound := by
  simp only [Check.lnch, Check.asy, Bool.and_eq_true] at e
  casesm* _ ∧ _
  exact ⟨proper_asySrc (by assumption), proper_asySrc (by assumption), proper_asySrc (by assumption)⟩

theorem sound_join {h : Hdr} {b : AsyBody} (e : Check.join h b = true) : b.Sound := by
  simp only [Check.join, Check.asy, Bool.and_eq_true] at e
  casesm* _ ∧ _
  exact ⟨proper_asySrc (by assumption), proper_asySrc (by assumption), proper_asySrc (by assumption)⟩

theorem sound_cancel {v : Nat} {h : Hdr} {b : AsyBody} (e : Check.cancel v h b = true) : b.Sound := by
  simp only [Check.cancel, Check.asy, Bool.and_eq_true] at e
  casesm* _ ∧ _
  exact ⟨proper_asySrc (by assumption), proper_asySrc (by assumption), proper_asySrc (by assumption)⟩

theorem sound_lstat {h : Hdr} {b : AsyBody} (e : Check.lstat h b = true) : b.Sound := by
  simp only [Check.lstat, Check.asy, Bool.and_eq_true] at e
  casesm* _ ∧ _
  exact ⟨proper_asySrc (by assumption), proper_asySrc (by assumption), proper_asySrc (by assumption)⟩

/-- What reading back needs of a body of this class. -/
def SysBody.Sound (b : SysBody) : Prop := b.a.proper = true ∧ b.b.proper = true

theorem sound_sys {oc : Nat} {dest sreg ua ub : Bool} {var : List Nat} {h : Hdr} {b : SysBody} (e : Check.sys oc dest sreg ua ub var h b = true) : b.Sound := by
  simp only [Check.sys, Bool.and_eq_true] at e
  casesm* _ ∧ _
  exact ⟨proper_asySrc (by assumption), proper_asySrc (by assumption)⟩

end Sys2Proof
end

