-- ==== Sys2Proof/Laws/Issue.lean ====
section
/-! SUPPORT. What an issue does: the effect where nothing stands before it, and each of the things that can. -/
namespace Sys2Proof.Machine

@[simp] theorem State.hold_nil (s : State) (sid idx : Nat) (pc : Dword) : s.hold sid idx pc [] = s := rfl

@[simp] theorem predHolds_nil : predHolds [] = [] := rfl

@[simp] theorem maskOf_nil : maskOf [] = 0 := rfl

/-- No predicate source is poisoned: nothing is taken from the lanes that pass the guard. -/
theorem Clear.sources {s : State} {ok : Bool} {h : Hdr} {us : List Use} {sid idx : Nat} {f : Frag} {act : Lanes}
    (c : Clear s ok h us sid idx f act) :
    (predSources us).flatMap (fun u => ((s.strand sid).readPred s.tick u.n u.quarters act).2) = [] := by
  rw [List.flatMap_eq_nil_iff]
  exact c.readable

/-- Where nothing stands before the effect, the issue is the effect and what becomes of the fragment. -/
theorem Clear.issue_eq {s : State} {ok : Bool} {h : Hdr} {us : List Use} {sid idx : Nat} {f : Frag} {act : Lanes}
    (c : Clear s ok h us sid idx f act) (eff : State → Cx → State × List Hold × Go) :
    s.issue ok h us eff = match eff (s.spent sid h us f.mask act act) ⟨sid, idx, f, act, s⟩ with
      | (_, _, .stall) => .next s.unready
      | (s', hs', go) => .next (((s'.buried sid (s.strand sid) us act hs').finish sid idx f.pc hs' go).claspCheck sid) := by
  have hb := c.sources
  have ha : act &&& ~~~(0 : Lanes) = act := BitVec.and_allOnes
  have hm : f.mask &&& ~~~(0 : Lanes) = f.mask := BitVec.and_allOnes
  have hp : s.checkParity sid f.pc (sourceWords (s.strand sid) h us f.mask) = s := by simp [State.checkParity, c.whole]
  rcases hr : eff (s.spent sid h us f.mask act act) ⟨sid, idx, f, act, s⟩ with ⟨s', hs, go⟩
  unfold State.issue
  rw [c.issuing]
  cases go <;> simp only [c.sound, c.available, hp, c.allowed, c.passes, c.within, c.unprotected, hb, c.active,
    Bool.false_eq_true, ↓reduceIte, Bool.not_true, List.map_nil, maskOf_nil, List.append_nil, predHolds_nil, List.nil_append, ha, hm,
    State.spent, State.eatPreds] at hr ⊢ <;> simp only [hr]

/-- Where nothing stands before an effect that holds no lane, the issue gives the state that the effect leaves. -/
theorem issue_clear {s : State} {ok : Bool} {h : Hdr} {us : List Use} {sid idx : Nat} {f : Frag} {act : Lanes}
    (c : Clear s ok h us sid idx f act) {eff : State → Cx → State × List Hold × Go} {s' : State} {hs : List Hold} {go : Go}
    (he : eff (s.spent sid h us f.mask act act) ⟨sid, idx, f, act, s⟩ = (s', hs, go)) (hg : go ≠ .stall) :
    s.issue ok h us eff = .next (((s'.buried sid (s.strand sid) us act hs).finish sid idx f.pc hs go).claspCheck sid) := by
  rw [c.issue_eq eff, he]
  cases go <;> first | rfl | exact absurd rfl hg

/-- Where the instruction is not ready, nothing happens but the note that says so. -/
theorem issue_stall {s : State} {ok : Bool} {h : Hdr} {us : List Use} {sid idx : Nat} {f : Frag} {act : Lanes}
    (c : Clear s ok h us sid idx f act) {eff : State → Cx → State × List Hold × Go} {s' : State} {hs : List Hold}
    (he : eff (s.spent sid h us f.mask act act) ⟨sid, idx, f, act, s⟩ = (s', hs, .stall)) :
    s.issue ok h us eff = .next s.unready := by
  rw [c.issue_eq eff, he]

/-- The same, as the tables of results say what is left. -/
theorem issue_after {s : State} {ok : Bool} {h : Hdr} {us : List Use} {sid idx : Nat} {f : Frag} {act : Lanes}
    (c : Clear s ok h us sid idx f act) {eff : State → Cx → State × List Hold × Go} {r : State × List Hold × Go}
    (he : eff (s.spent sid h us f.mask act act) ⟨sid, idx, f, act, s⟩ = r) (hg : r.2.2 ≠ .stall) :
    s.issue ok h us eff = .next (s.after ⟨sid, idx, f, act, s⟩ us r) := issue_clear c he hg

/-- With no fragment issuing, a program form stops. -/
theorem issue_none {s : State} {ok : Bool} {h : Hdr} {us : List Use} {eff : State → Cx → State × List Hold × Go}
    (hi : s.issuer = none) : s.issue ok h us eff = .fault .noIssuer := by
  unfold State.issue
  rw [hi]

/-- An issue never refuses, and stops only with no fragment issuing. -/
theorem issue_next {s : State} {ok : Bool} {h : Hdr} {us : List Use} {eff : State → Cx → State × List Hold × Go}
    (hi : s.issuer ≠ none) : ∃ t, s.issue ok h us eff = .next t := by
  unfold State.issue
  split
  · next hn => exact absurd hn hi
  · dsimp only
    split
    · exact ⟨_, rfl⟩
    split
    · exact ⟨_, rfl⟩
    split
    · exact ⟨_, rfl⟩
    generalize s.checkParity _ _ _ = s1
    repeat' first | exact ⟨_, rfl⟩ | split

end Sys2Proof.Machine
end

