-- ==== Sys2Proof/Laws/PerInstr.lean ====
section
/-! SUPPORT. One lemma for each instruction: the decoder gives it back from the words that the encoder writes for it. -/
namespace Sys2Proof.Laws.RoundTrip
open Sys2Proof.Machine
set_option Elab.async false

/-- A well-formed instruction that has words is what the decoder reads from them; an event has no words. -/
def Statement (i : Instr) : Prop := WellFormed i → ∀ r, encode i = some r → decodeWords r.w0 r.w1 r.w2 = i

theorem value_eq {w n : Nat} {x : BitVec w} (h : (x.toNat == n) = true) : x = BitVec.ofNat w n := by
  rw [beq_iff_eq] at h
  rw [← h, BitVec.ofNat_toNat, BitVec.setWidth_eq]

theorem only_eq {w n : Nat} {x : BitVec w} (h : [n].contains x.toNat = true) : x = BitVec.ofNat w n :=
  value_eq (by simpa using h)

theorem aspOf {b : MatBody} {k : Bool} (h : b.asp = k) : bitAt b.write1 25 = k := (MatBody.asp_write b).trans h

theorem backMem {c : Hdr → MemBody → Instr} {op : BitVec 10} {h : Hdr} {b : MemBody} {r : RawInsn} (s : b.Sound)
    (he : some (RawInsn.mk (h.write op) b.write1 b.write2) = some r)
    (hd : decodeWords (h.write op) b.write1 b.write2 = c (.read (h.write op)) (.read b.write1 b.write2)) :
    decodeWords r.w0 r.w1 r.w2 = c h b := by
  obtain rfl := Option.some.inj he
  exact hd.trans (by rw [Hdr.read_write, MemBody.read_write b s.2.2 s.2.1 s.1])

theorem backCtl {c : Hdr → CtlBody → Instr} {op : BitVec 10} {h : Hdr} {b : CtlBody} {r : RawInsn} (s : b.Sound)
    (he : some (RawInsn.mk (h.write op) b.write1 b.write2) = some r)
    (hd : decodeWords (h.write op) b.write1 b.write2 = c (.read (h.write op)) (.read b.write1 b.write2)) :
    decodeWords r.w0 r.w1 r.w2 = c h b := by
  obtain rfl := Option.some.inj he
  exact hd.trans (by rw [Hdr.read_write, CtlBody.read_write b s])

theorem backMat {c : Hdr → MatBody → Instr} {op : BitVec 10} {h : Hdr} {b : MatBody} {r : RawInsn} (s : b.Sound)
    (he : some (RawInsn.mk (h.write op) b.write1 b.write2) = some r)
    (hd : decodeWords (h.write op) b.write1 b.write2 = c (.read (h.write op)) (.read b.write1 b.write2)) :
    decodeWords r.w0 r.w1 r.w2 = c h b := by
  obtain rfl := Option.some.inj he
  exact hd.trans (by rw [Hdr.read_write, MatBody.read_write b s.2.1 s.1 s.2.2])

theorem backAsy {c : Hdr → AsyBody → Instr} {op : BitVec 10} {h : Hdr} {b : AsyBody} {r : RawInsn} (s : b.Sound)
    (he : some (RawInsn.mk (h.write op) b.write1 b.write2) = some r)
    (hd : decodeWords (h.write op) b.write1 b.write2 = c (.read (h.write op)) (.read b.write1 b.write2)) :
    decodeWords r.w0 r.w1 r.w2 = c h b := by
  obtain rfl := Option.some.inj he
  exact hd.trans (by rw [Hdr.read_write, AsyBody.read_write b s.2.2 s.2.1 s.1])

theorem backSys {c : Hdr → SysBody → Instr} {op : BitVec 10} {h : Hdr} {b : SysBody} {r : RawInsn} (s : b.Sound)
    (he : some (RawInsn.mk (h.write op) b.write1 b.write2) = some r)
    (hd : decodeWords (h.write op) b.write1 b.write2 = c (.read (h.write op)) (.read b.write1 b.write2)) :
    decodeWords r.w0 r.w1 r.w2 = c h b := by
  obtain rfl := Option.some.inj he
  exact hd.trans (by rw [Hdr.read_write, SysBody.read_write b s.2 s.1])

theorem backAlu {c : Hdr → AluBody → Instr} {op : BitVec 10} {h : Hdr} {b : AluBody} {r : RawInsn} (s : b.Sound (h.oc.getLsbD 0))
    (he : some (RawInsn.mk (h.write op) b.write1 b.write2) = some r)
    (hd : decodeWords (h.write op) b.write1 b.write2 =
      c (.read (h.write op)) (.read (bitAt (h.write op) 10) b.write1 b.write2)) :
    decodeWords r.w0 r.w1 r.w2 = c h b := by
  obtain rfl := Option.some.inj he
  have hc : bitAt (h.write op) 10 = h.oc.getLsbD 0 := by
    rw [← Hdr.oc_write h op, BitVec.getLsbD_extractLsb']
    rfl
  exact hd.trans (by rw [Hdr.read_write, hc, AluBody.read_write _ b s.1 s.2.1 s.2.2.1 s.2.2.2])

theorem backSi {c : Hdr → AluBody → Instr} {op : BitVec 10} {h : Hdr} {b : AluBody} {r : RawInsn} (s : b.Sound true)
    (he : some (RawInsn.mk (h.write op) b.write1 b.write2) = some r)
    (hd : decodeWords (h.write op) b.write1 b.write2 = c (.read (h.write op)) (.read true b.write1 b.write2)) :
    decodeWords r.w0 r.w1 r.w2 = c h b := by
  obtain rfl := Option.some.inj he
  exact hd.trans (by rw [Hdr.read_write, AluBody.read_write _ b s.1 s.2.1 s.2.2.1 s.2.2.2])

theorem nop (h : Hdr) (b : CtlBody) : Statement (.nop h b) := fun hw _ he =>
  backCtl (sound_ctlNone hw) he (by rw [decodeWords, Hdr.op_write]; rfl)

theorem bra (h : Hdr) (b : CtlBody) : Statement (.bra h b) := fun hw _ he =>
  backCtl (sound_bra hw) he (by rw [decodeWords, Hdr.op_write]; rfl)

theorem brc (h : Hdr) (b : CtlBody) : Statement (.brc h b) := fun hw _ he =>
  backCtl (sound_brc hw) he (by rw [decodeWords, Hdr.op_write]; rfl)

theorem brany (h : Hdr) (b : CtlBody) : Statement (.brany h b) := fun hw _ he =>
  backCtl (sound_brany hw) he (by rw [decodeWords, Hdr.op_write]; rfl)

theorem brall (h : Hdr) (b : CtlBody) : Statement (.brall h b) := fun hw _ he =>
  backCtl (sound_brany hw) he (by rw [decodeWords, Hdr.op_write]; rfl)

theorem loopOp (h : Hdr) (b : CtlBody) : Statement (.loopOp h b) := fun hw _ he =>
  backCtl (sound_loop hw) he (by rw [decodeWords, Hdr.op_write]; rfl)

theorem jtab (h : Hdr) (b : CtlBody) : Statement (.jtab h b) := fun hw _ he =>
  backCtl (sound_jtab hw) he (by rw [decodeWords, Hdr.op_write]; rfl)

theorem call (h : Hdr) (b : CtlBody) : Statement (.call h b) := by
  intro hw r he
  have e : Check.call h b = true := hw
  simp only [Check.call, Check.ctl, Bool.and_eq_true] at e
  casesm* _ ∧ _
  have k : h.oc = 0#2 := value_eq (by assumption)
  exact backCtl (sound_call hw) he (by rw [decodeWords, Hdr.op_write]; show ite _ _ _ = _; rw [Hdr.oc_write, k]; rfl)

theorem callInd (h : Hdr) (b : CtlBody) : Statement (.callInd h b) := by
  intro hw r he
  have e : Check.callInd h b = true := hw
  simp only [Check.callInd, Check.ctl, Bool.and_eq_true] at e
  casesm* _ ∧ _
  have k : h.oc = 1#2 := value_eq (by assumption)
  exact backCtl (sound_callInd hw) he (by rw [decodeWords, Hdr.op_write]; show ite _ _ _ = _; rw [Hdr.oc_write, k]; rfl)

theorem callt (h : Hdr) (b : CtlBody) : Statement (.callt h b) := fun hw _ he =>
  backCtl (sound_callt hw) he (by rw [decodeWords, Hdr.op_write]; rfl)

theorem ret (h : Hdr) (b : CtlBody) : Statement (.ret h b) := fun hw _ he =>
  backCtl (sound_ret hw) he (by rw [decodeWords, Hdr.op_write]; rfl)

theorem pad (h : Hdr) (b : CtlBody) : Statement (.pad h b) := fun hw _ he =>
  backCtl (sound_pad hw) he (by rw [decodeWords, Hdr.op_write]; rfl)

theorem brx (h : Hdr) (b : CtlBody) : Statement (.brx h b) := fun hw _ he =>
  backCtl (sound_brx hw) he (by rw [decodeWords, Hdr.op_write]; rfl)

theorem exit (h : Hdr) (b : CtlBody) : Statement (.exit h b) := fun hw _ he =>
  backCtl (sound_ctlNone hw) he (by rw [decodeWords, Hdr.op_write]; rfl)

theorem yield (h : Hdr) (b : CtlBody) : Statement (.yield h b) := fun hw _ he =>
  backCtl (sound_ctlNone hw) he (by rw [decodeWords, Hdr.op_write]; rfl)

theorem prefI (h : Hdr) (b : CtlBody) : Statement (.prefI h b) := fun hw _ he =>
  backCtl (sound_prefI hw) he (by rw [decodeWords, Hdr.op_write]; rfl)

theorem icinv (h : Hdr) (b : CtlBody) : Statement (.icinv h b) := by
  intro hw r he
  have e : Check.icinv h b = true := hw
  simp only [Check.icinv, Check.ctl, Bool.and_eq_true] at e
  casesm* _ ∧ _
  have k : h.oc = 0#2 := value_eq (by assumption)
  exact backCtl (sound_icinv hw) he (by rw [decodeWords, Hdr.op_write]; show ite _ _ _ = _; rw [Hdr.oc_write, k]; rfl)

theorem icinvAll (h : Hdr) (b : CtlBody) : Statement (.icinvAll h b) := by
  intro hw r he
  have e : Check.icinvAll h b = true := hw
  simp only [Check.icinvAll, Check.ctl, Bool.and_eq_true] at e
  casesm* _ ∧ _
  have k : h.oc = 1#2 := value_eq (by assumption)
  exact backCtl (sound_icinvAll hw) he (by rw [decodeWords, Hdr.op_write]; show ite _ _ _ = _; rw [Hdr.oc_write, k]; rfl)

theorem fbar (h : Hdr) (b : CtlBody) : Statement (.fbar h b) := fun hw _ he =>
  backCtl (sound_ctlNone hw) he (by rw [decodeWords, Hdr.op_write]; rfl)

theorem trap (h : Hdr) (b : CtlBody) : Statement (.trap h b) := fun hw _ he =>
  backCtl (sound_trap hw) he (by rw [decodeWords, Hdr.op_write]; rfl)

theorem bkpt (h : Hdr) (b : CtlBody) : Statement (.bkpt h b) := fun hw _ he =>
  backCtl (sound_trap hw) he (by rw [decodeWords, Hdr.op_write]; rfl)

theorem getpc (h : Hdr) (b : CtlBody) : Statement (.getpc h b) := fun hw _ he =>
  backCtl (sound_getpc hw) he (by rw [decodeWords, Hdr.op_write]; rfl)

theorem iadd (h : Hdr) (b : AluBody) : Statement (.iadd h b) := fun hw _ he =>
  backAlu (sound_int hw) he (by rw [decodeWords, Hdr.op_write]; rfl)

theorem isub (h : Hdr) (b : AluBody) : Statement (.isub h b) := fun hw _ he =>
  backAlu (sound_int hw) he (by rw [decodeWords, Hdr.op_write]; rfl)

theorem imul (h : Hdr) (b : AluBody) : Statement (.imul h b) := fun hw _ he =>
  backAlu (sound_int hw) he (by rw [decodeWords, Hdr.op_write]; rfl)

theorem imulh (h : Hdr) (b : AluBody) : Statement (.imulh h b) := fun hw _ he =>
  backAlu (sound_int hw) he (by rw [decodeWords, Hdr.op_write]; rfl)

theorem imad (h : Hdr) (b : AluBody) : Statement (.imad h b) := fun hw _ he =>
  backAlu (sound_int hw) he (by rw [decodeWords, Hdr.op_write]; rfl)

theorem imin (h : Hdr) (b : AluBody) : Statement (.imin h b) := fun hw _ he =>
  backAlu (sound_int hw) he (by rw [decodeWords, Hdr.op_write]; rfl)

theorem imax (h : Hdr) (b : AluBody) : Statement (.imax h b) := fun hw _ he =>
  backAlu (sound_int hw) he (by rw [decodeWords, Hdr.op_write]; rfl)

theorem iabs (h : Hdr) (b : AluBody) : Statement (.iabs h b) := fun hw _ he =>
  backAlu (sound_int hw) he (by rw [decodeWords, Hdr.op_write]; rfl)

theorem idiv (h : Hdr) (b : AluBody) : Statement (.idiv h b) := fun hw _ he =>
  backAlu (sound_int hw) he (by rw [decodeWords, Hdr.op_write]; rfl)

theorem irem (h : Hdr) (b : AluBody) : Statement (.irem h b) := fun hw _ he =>
  backAlu (sound_int hw) he (by rw [decodeWords, Hdr.op_write]; rfl)

theorem icmp (h : Hdr) (b : AluBody) : Statement (.icmp h b) := fun hw _ he =>
  backAlu (sound_icmp hw) he (by rw [decodeWords, Hdr.op_write]; rfl)

theorem isel (h : Hdr) (b : AluBody) : Statement (.isel h b) := fun hw _ he =>
  backAlu (sound_isel hw) he (by rw [decodeWords, Hdr.op_write]; rfl)

theorem lea (h : Hdr) (b : AluBody) : Statement (.lea h b) := fun hw _ he =>
  backAlu (sound_lea hw) he (by rw [decodeWords, Hdr.op_write]; rfl)

theorem mov (h : Hdr) (b : AluBody) : Statement (.mov h b) := fun hw _ he =>
  backAlu (sound_mov hw) he (by rw [decodeWords, Hdr.op_write]; rfl)

theorem iadd3 (h : Hdr) (b : AluBody) : Statement (.iadd3 h b) := fun hw _ he =>
  backAlu (sound_int hw) he (by rw [decodeWords, Hdr.op_write]; rfl)

theorem iclamp (h : Hdr) (b : AluBody) : Statement (.iclamp h b) := fun hw _ he =>
  backAlu (sound_int hw) he (by rw [decodeWords, Hdr.op_write]; rfl)

theorem andOp (h : Hdr) (b : AluBody) : Statement (.andOp h b) := fun hw _ he =>
  backAlu (sound_bit hw) he (by rw [decodeWords, Hdr.op_write]; rfl)

theorem orOp (h : Hdr) (b : AluBody) : Statement (.orOp h b) := fun hw _ he =>
  backAlu (sound_bit hw) he (by rw [decodeWords, Hdr.op_write]; rfl)

theorem xorOp (h : Hdr) (b : AluBody) : Statement (.xorOp h b) := fun hw _ he =>
  backAlu (sound_bit hw) he (by rw [decodeWords, Hdr.op_write]; rfl)

theorem andn (h : Hdr) (b : AluBody) : Statement (.andn h b) := fun hw _ he =>
  backAlu (sound_bit hw) he (by rw [decodeWords, Hdr.op_write]; rfl)

theorem notOp (h : Hdr) (b : AluBody) : Statement (.notOp h b) := fun hw _ he =>
  backAlu (sound_bit hw) he (by rw [decodeWords, Hdr.op_write]; rfl)

theorem logt (h : Hdr) (b : AluBody) : Statement (.logt h b) := fun hw _ he =>
  backAlu (sound_logt hw) he (by rw [decodeWords, Hdr.op_write]; rfl)

theorem shl (h : Hdr) (b : AluBody) : Statement (.shl h b) := fun hw _ he =>
  backAlu (sound_bit hw) he (by rw [decodeWords, Hdr.op_write]; rfl)

theorem shr (h : Hdr) (b : AluBody) : Statement (.shr h b) := fun hw _ he =>
  backAlu (sound_bit hw) he (by rw [decodeWords, Hdr.op_write]; rfl)

theorem sar (h : Hdr) (b : AluBody) : Statement (.sar h b) := fun hw _ he =>
  backAlu (sound_bit hw) he (by rw [decodeWords, Hdr.op_write]; rfl)

theorem rot (h : Hdr) (b : AluBody) : Statement (.rot h b) := fun hw _ he =>
  backAlu (sound_bit hw) he (by rw [decodeWords, Hdr.op_write]; rfl)

theorem dsh (h : Hdr) (b : AluBody) : Statement (.dsh h b) := fun hw _ he =>
  backAlu (sound_bit hw) he (by rw [decodeWords, Hdr.op_write]; rfl)

theorem popc (h : Hdr) (b : AluBody) : Statement (.popc h b) := fun hw _ he =>
  backAlu (sound_bit hw) he (by rw [decodeWords, Hdr.op_write]; rfl)

theorem clz (h : Hdr) (b : AluBody) : Statement (.clz h b) := fun hw _ he =>
  backAlu (sound_bit hw) he (by rw [decodeWords, Hdr.op_write]; rfl)

theorem ctz (h : Hdr) (b : AluBody) : Statement (.ctz h b) := fun hw _ he =>
  backAlu (sound_bit hw) he (by rw [decodeWords, Hdr.op_write]; rfl)

theorem brev (h : Hdr) (b : AluBody) : Statement (.brev h b) := fun hw _ he =>
  backAlu (sound_bit hw) he (by rw [decodeWords, Hdr.op_write]; rfl)

theorem bswap (h : Hdr) (b : AluBody) : Statement (.bswap h b) := fun hw _ he =>
  backAlu (sound_bit hw) he (by rw [decodeWords, Hdr.op_write]; rfl)

theorem fxt (h : Hdr) (b : AluBody) : Statement (.fxt h b) := fun hw _ he =>
  backAlu (sound_bit hw) he (by rw [decodeWords, Hdr.op_write]; rfl)

theorem fins (h : Hdr) (b : AluBody) : Statement (.fins h b) := fun hw _ he =>
  backAlu (sound_bit hw) he (by rw [decodeWords, Hdr.op_write]; rfl)

theorem bysel (h : Hdr) (b : AluBody) : Statement (.bysel h b) := fun hw _ he =>
  backAlu (sound_bit hw) he (by rw [decodeWords, Hdr.op_write]; rfl)

theorem plogt (h : Hdr) (b : AluBody) : Statement (.plogt h b) := fun hw _ he =>
  backAlu (sound_plogt hw) he (by rw [decodeWords, Hdr.op_write]; rfl)

theorem shfl (h : Hdr) (b : AluBody) : Statement (.shfl h b) := fun hw _ he =>
  backAlu (sound_shfl hw) he (by rw [decodeWords, Hdr.op_write]; rfl)

theorem shflq (h : Hdr) (b : AluBody) : Statement (.shflq h b) := fun hw _ he =>
  backAlu (sound_shfl hw) he (by rw [decodeWords, Hdr.op_write]; rfl)

theorem vote (h : Hdr) (b : AluBody) : Statement (.vote h b) := fun hw _ he =>
  backAlu (sound_vote hw) he (by rw [decodeWords, Hdr.op_write]; rfl)

theorem matchOp (h : Hdr) (b : AluBody) : Statement (.matchOp h b) := fun hw _ he =>
  backAlu (sound_matchLanes hw) he (by rw [decodeWords, Hdr.op_write]; rfl)

theorem prefixOp (h : Hdr) (b : AluBody) : Statement (.prefixOp h b) := fun hw _ he =>
  backAlu (sound_scan hw) he (by rw [decodeWords, Hdr.op_write]; rfl)

theorem redux (h : Hdr) (b : AluBody) : Statement (.redux h b) := fun hw _ he =>
  backAlu (sound_scan hw) he (by rw [decodeWords, Hdr.op_write]; rfl)

theorem bcast (h : Hdr) (b : AluBody) : Statement (.bcast h b) := fun hw _ he =>
  backAlu (sound_bcast hw) he (by rw [decodeWords, Hdr.op_write]; rfl)

theorem solo (h : Hdr) (b : AluBody) : Statement (.solo h b) := fun hw _ he =>
  backAlu (sound_solo hw) he (by rw [decodeWords, Hdr.op_write]; rfl)

theorem mget (h : Hdr) (b : AluBody) : Statement (.mget h b) := fun hw _ he =>
  backAlu (sound_mget hw) he (by rw [decodeWords, Hdr.op_write]; rfl)

theorem p2s (h : Hdr) (b : AluBody) : Statement (.p2s h b) := fun hw _ he =>
  backAlu (sound_p2s hw) he (by rw [decodeWords, Hdr.op_write]; rfl)

theorem s2p (h : Hdr) (b : AluBody) : Statement (.s2p h b) := fun hw _ he =>
  backAlu (sound_s2p hw) he (by rw [decodeWords, Hdr.op_write]; rfl)

theorem pcnt (h : Hdr) (b : AluBody) : Statement (.pcnt h b) := fun hw _ he =>
  backAlu (sound_pcnt hw) he (by rw [decodeWords, Hdr.op_write]; rfl)

theorem fadd (h : Hdr) (b : AluBody) : Statement (.fadd h b) := fun hw _ he =>
  backAlu (sound_flt hw) he (by rw [decodeWords, Hdr.op_write]; rfl)

theorem fsub (h : Hdr) (b : AluBody) : Statement (.fsub h b) := fun hw _ he =>
  backAlu (sound_flt hw) he (by rw [decodeWords, Hdr.op_write]; rfl)

theorem fmul (h : Hdr) (b : AluBody) : Statement (.fmul h b) := fun hw _ he =>
  backAlu (sound_flt hw) he (by rw [decodeWords, Hdr.op_write]; rfl)

theorem ffma (h : Hdr) (b : AluBody) : Statement (.ffma h b) := fun hw _ he =>
  backAlu (sound_flt hw) he (by rw [decodeWords, Hdr.op_write]; rfl)

theorem fmin (h : Hdr) (b : AluBody) : Statement (.fmin h b) := fun hw _ he =>
  backAlu (sound_flt hw) he (by rw [decodeWords, Hdr.op_write]; rfl)

theorem fmax (h : Hdr) (b : AluBody) : Statement (.fmax h b) := fun hw _ he =>
  backAlu (sound_flt hw) he (by rw [decodeWords, Hdr.op_write]; rfl)

theorem fabs (h : Hdr) (b : AluBody) : Statement (.fabs h b) := fun hw _ he =>
  backAlu (sound_flt hw) he (by rw [decodeWords, Hdr.op_write]; rfl)

theorem fneg (h : Hdr) (b : AluBody) : Statement (.fneg h b) := fun hw _ he =>
  backAlu (sound_flt hw) he (by rw [decodeWords, Hdr.op_write]; rfl)

theorem fcpys (h : Hdr) (b : AluBody) : Statement (.fcpys h b) := fun hw _ he =>
  backAlu (sound_flt hw) he (by rw [decodeWords, Hdr.op_write]; rfl)

theorem fcmp (h : Hdr) (b : AluBody) : Statement (.fcmp h b) := fun hw _ he =>
  backAlu (sound_fcmp hw) he (by rw [decodeWords, Hdr.op_write]; rfl)

theorem fclass (h : Hdr) (b : AluBody) : Statement (.fclass h b) := fun hw _ he =>
  backAlu (sound_flt hw) he (by rw [decodeWords, Hdr.op_write]; rfl)

theorem frnd (h : Hdr) (b : AluBody) : Statement (.frnd h b) := fun hw _ he =>
  backAlu (sound_flt hw) he (by rw [decodeWords, Hdr.op_write]; rfl)

theorem fdiv (h : Hdr) (b : AluBody) : Statement (.fdiv h b) := fun hw _ he =>
  backAlu (sound_flt hw) he (by rw [decodeWords, Hdr.op_write]; rfl)

theorem fsqrt (h : Hdr) (b : AluBody) : Statement (.fsqrt h b) := fun hw _ he =>
  backAlu (sound_flt hw) he (by rw [decodeWords, Hdr.op_write]; rfl)

theorem fscale (h : Hdr) (b : AluBody) : Statement (.fscale h b) := fun hw _ he =>
  backAlu (sound_fscale hw) he (by rw [decodeWords, Hdr.op_write]; rfl)

theorem hadd2 (h : Hdr) (b : AluBody) : Statement (.hadd2 h b) := fun hw _ he =>
  backAlu (sound_flt hw) he (by rw [decodeWords, Hdr.op_write]; rfl)

theorem hmul2 (h : Hdr) (b : AluBody) : Statement (.hmul2 h b) := fun hw _ he =>
  backAlu (sound_flt hw) he (by rw [decodeWords, Hdr.op_write]; rfl)

theorem hfma2 (h : Hdr) (b : AluBody) : Statement (.hfma2 h b) := fun hw _ he =>
  backAlu (sound_flt hw) he (by rw [decodeWords, Hdr.op_write]; rfl)

theorem hmin2 (h : Hdr) (b : AluBody) : Statement (.hmin2 h b) := fun hw _ he =>
  backAlu (sound_flt hw) he (by rw [decodeWords, Hdr.op_write]; rfl)

theorem hmax2 (h : Hdr) (b : AluBody) : Statement (.hmax2 h b) := fun hw _ he =>
  backAlu (sound_flt hw) he (by rw [decodeWords, Hdr.op_write]; rfl)

theorem frcp (h : Hdr) (b : AluBody) : Statement (.frcp h b) := fun hw _ he =>
  backAlu (sound_flt hw) he (by rw [decodeWords, Hdr.op_write]; rfl)

theorem frsq (h : Hdr) (b : AluBody) : Statement (.frsq h b) := fun hw _ he =>
  backAlu (sound_flt hw) he (by rw [decodeWords, Hdr.op_write]; rfl)

theorem fexp2 (h : Hdr) (b : AluBody) : Statement (.fexp2 h b) := fun hw _ he =>
  backAlu (sound_flt hw) he (by rw [decodeWords, Hdr.op_write]; rfl)

theorem flog2 (h : Hdr) (b : AluBody) : Statement (.flog2 h b) := fun hw _ he =>
  backAlu (sound_flt hw) he (by rw [decodeWords, Hdr.op_write]; rfl)

theorem fsin (h : Hdr) (b : AluBody) : Statement (.fsin h b) := fun hw _ he =>
  backAlu (sound_flt hw) he (by rw [decodeWords, Hdr.op_write]; rfl)

theorem fcos (h : Hdr) (b : AluBody) : Statement (.fcos h b) := fun hw _ he =>
  backAlu (sound_flt hw) he (by rw [decodeWords, Hdr.op_write]; rfl)

theorem ftanh (h : Hdr) (b : AluBody) : Statement (.ftanh h b) := fun hw _ he =>
  backAlu (sound_flt hw) he (by rw [decodeWords, Hdr.op_write]; rfl)

theorem fdot4 (h : Hdr) (b : AluBody) : Statement (.fdot4 h b) := fun hw _ he =>
  backAlu (sound_fdot4 hw) he (by rw [decodeWords, Hdr.op_write]; rfl)

theorem idot4 (h : Hdr) (b : AluBody) : Statement (.idot4 h b) := fun hw _ he =>
  backAlu (sound_idot4 hw) he (by rw [decodeWords, Hdr.op_write]; rfl)

theorem hdot2 (h : Hdr) (b : AluBody) : Statement (.hdot2 h b) := fun hw _ he =>
  backAlu (sound_hdot2 hw) he (by rw [decodeWords, Hdr.op_write]; rfl)

theorem cvt (h : Hdr) (b : AluBody) : Statement (.cvt h b) := fun hw _ he =>
  backAlu (sound_cvt hw) he (by rw [decodeWords, Hdr.op_write]; rfl)

theorem cvtp (h : Hdr) (b : AluBody) : Statement (.cvtp h b) := fun hw _ he =>
  backAlu (sound_cvtp hw) he (by rw [decodeWords, Hdr.op_write]; rfl)

theorem cvts (h : Hdr) (b : AluBody) : Statement (.cvts h b) := fun hw _ he =>
  backAlu (sound_cvts hw) he (by rw [decodeWords, Hdr.op_write]; rfl)

theorem qnt (h : Hdr) (b : AluBody) : Statement (.qnt h b) := fun hw _ he =>
  backAlu (sound_qnt hw) he (by rw [decodeWords, Hdr.op_write]; rfl)

theorem qnts (h : Hdr) (b : AluBody) : Statement (.qnts h b) := fun hw _ he =>
  backAlu (sound_qnts hw) he (by rw [decodeWords, Hdr.op_write]; rfl)

theorem dqnt (h : Hdr) (b : AluBody) : Statement (.dqnt h b) := fun hw _ he =>
  backAlu (sound_dqnt hw) he (by rw [decodeWords, Hdr.op_write]; rfl)

theorem latq (h : Hdr) (b : AluBody) : Statement (.latq h b) := fun hw _ he =>
  backAlu (sound_latq hw) he (by rw [decodeWords, Hdr.op_write]; rfl)

theorem pack (h : Hdr) (b : AluBody) : Statement (.pack h b) := fun hw _ he =>
  backAlu (sound_pack hw) he (by rw [decodeWords, Hdr.op_write]; rfl)

theorem unpack (h : Hdr) (b : AluBody) : Statement (.unpack h b) := fun hw _ he =>
  backAlu (sound_unpack hw) he (by rw [decodeWords, Hdr.op_write]; rfl)

theorem t5pk (h : Hdr) (b : AluBody) : Statement (.t5pk h b) := fun hw _ he =>
  backAlu (sound_t5pk hw) he (by rw [decodeWords, Hdr.op_write]; rfl)

theorem t5up (h : Hdr) (b : AluBody) : Statement (.t5up h b) := fun hw _ he =>
  backAlu (sound_t5up hw) he (by rw [decodeWords, Hdr.op_write]; rfl)

theorem bmax (h : Hdr) (b : AluBody) : Statement (.bmax h b) := fun hw _ he =>
  backAlu (sound_bmax hw) he (by rw [decodeWords, Hdr.op_write]; rfl)

theorem mlatch (h : Hdr) (b : MatBody) : Statement (.mlatch h b) := by
  intro hw r he
  have e : Check.mlatchReg h b = true := hw
  simp only [Check.mlatchReg, Check.mat, Bool.and_eq_true] at e
  casesm* _ ∧ _
  have k : b.asp = false := by simpa using ‹(false || !b.asp) = true›
  exact backMat (sound_mlatchReg hw) he (by rw [decodeWords, Hdr.op_write]; show ite _ _ _ = _; rw [MatBody.asp_write, k]; rfl)

theorem mlatchScratchpad (h : Hdr) (b : MatBody) : Statement (.mlatchScratchpad h b) := by
  intro hw r he
  have e : Check.mlatchSp h b = true := hw
  simp only [Check.mlatchSp, Check.mat, Bool.and_eq_true] at e
  casesm* _ ∧ _
  have k : b.asp = true := by assumption
  exact backMat (sound_mlatchSp hw) he (by rw [decodeWords, Hdr.op_write]; show ite _ _ _ = _; rw [MatBody.asp_write, k]; rfl)

theorem mmq (h : Hdr) (b : MatBody) : Statement (.mmq h b) := by
  intro hw r he
  have e : Check.mmqReg h b = true := hw
  simp only [Check.mmqReg, Check.mat, Bool.and_eq_true] at e
  casesm* _ ∧ _
  have k : b.asp = false := by simpa using ‹(false || !b.asp) = true›
  exact backMat (sound_mmqReg hw) he (by rw [decodeWords, Hdr.op_write]; show ite _ _ _ = _; rw [MatBody.asp_write, k]; rfl)

theorem mmqScratchpad (h : Hdr) (b : MatBody) : Statement (.mmqScratchpad h b) := by
  intro hw r he
  have e : Check.mmqSp h b = true := hw
  simp only [Check.mmqSp, Check.mat, Bool.and_eq_true] at e
  casesm* _ ∧ _
  have k : b.asp = true := by assumption
  exact backMat (sound_mmqSp hw) he (by rw [decodeWords, Hdr.op_write]; show ite _ _ _ = _; rw [MatBody.asp_write, k]; rfl)

theorem maccZ (h : Hdr) (b : MatBody) : Statement (.maccZ h b) := by
  intro hw r he
  have e : Check.maccZ h b = true := hw
  simp only [Check.maccZ, Check.mat, Bool.and_eq_true] at e
  casesm* _ ∧ _
  have k : h.oc = 0#2 := value_eq (by assumption)
  exact backMat (sound_maccZ hw) he (by rw [decodeWords, Hdr.op_write]; show ite _ _ _ = _; rw [Hdr.oc_write, k]; rfl)

theorem maccZAll (h : Hdr) (b : MatBody) : Statement (.maccZAll h b) := by
  intro hw r he
  have e : Check.maccZAll h b = true := hw
  simp only [Check.maccZAll, Check.mat, Bool.and_eq_true] at e
  casesm* _ ∧ _
  have k : h.oc = 1#2 := value_eq (by assumption)
  exact backMat (sound_maccZAll hw) he (by rw [decodeWords, Hdr.op_write]; show ite _ _ _ = _; rw [Hdr.oc_write, k]; rfl)

theorem maccLd (h : Hdr) (b : MatBody) : Statement (.maccLd h b) := fun hw _ he =>
  backMat (sound_maccLd hw) he (by rw [decodeWords, Hdr.op_write]; rfl)

theorem maccSt (h : Hdr) (b : MatBody) : Statement (.maccSt h b) := fun hw _ he =>
  backMat (sound_maccSt hw) he (by rw [decodeWords, Hdr.op_write]; rfl)

theorem maccCp (h : Hdr) (b : MatBody) : Statement (.maccCp h b) := by
  intro hw r he
  have e : Check.maccCp 0 h b = true := hw
  simp only [Check.maccCp, Check.mat, Bool.and_eq_true] at e
  casesm* _ ∧ _
  have k : h.oc = 0#2 := value_eq (by assumption)
  exact backMat (sound_maccCp hw) he (by rw [decodeWords, Hdr.op_write]; show ite _ _ _ = _; rw [Hdr.oc_write, k]; rfl)

theorem maccCpAdd (h : Hdr) (b : MatBody) : Statement (.maccCpAdd h b) := by
  intro hw r he
  have e : Check.maccCp 1 h b = true := hw
  simp only [Check.maccCp, Check.mat, Bool.and_eq_true] at e
  casesm* _ ∧ _
  have k : h.oc = 1#2 := value_eq (by assumption)
  exact backMat (sound_maccCp hw) he (by rw [decodeWords, Hdr.op_write]; show ite _ _ _ = _; rw [Hdr.oc_write, k]; rfl)

theorem maccScl (h : Hdr) (b : MatBody) : Statement (.maccScl h b) := fun hw _ he =>
  backMat (sound_maccScl hw) he (by rw [decodeWords, Hdr.op_write]; rfl)

theorem mtbl (h : Hdr) (b : MatBody) : Statement (.mtbl h b) := fun hw _ he =>
  backMat (sound_stage (fun _ => proper_isVecPair) hw) he (by rw [decodeWords, Hdr.op_write]; rfl)

theorem mscl (h : Hdr) (b : MatBody) : Statement (.mscl h b) := fun hw _ he =>
  backMat (sound_stage (fun _ => proper_isVec) hw) he (by rw [decodeWords, Hdr.op_write]; rfl)

theorem mscla (h : Hdr) (b : MatBody) : Statement (.mscla h b) := fun hw _ he =>
  backMat (sound_stage (fun _ => proper_isSc) hw) he (by rw [decodeWords, Hdr.op_write]; rfl)

theorem mrel (h : Hdr) (b : MatBody) : Statement (.mrel h b) := fun hw _ he =>
  backMat (sound_mrel hw) he (by rw [decodeWords, Hdr.op_write]; rfl)

theorem mwait (h : Hdr) (b : MatBody) : Statement (.mwait h b) := fun hw _ he =>
  backMat (sound_mwait hw) he (by rw [decodeWords, Hdr.op_write]; rfl)

theorem mstat (h : Hdr) (b : MatBody) : Statement (.mstat h b) := fun hw _ he =>
  backMat (sound_mstat hw) he (by rw [decodeWords, Hdr.op_write]; rfl)

theorem ld (h : Hdr) (b : MemBody) : Statement (.ld h b) := by
  intro hw r he
  have e : Check.ld h b = true := hw
  simp only [Check.ld, Check.mem, Bool.and_eq_true] at e
  casesm* _ ∧ _
  have k : h.oc = 0#2 := value_eq (by assumption)
  exact backMem (sound_ld hw) he (by rw [decodeWords, Hdr.op_write]; show ite _ _ _ = _; rw [Hdr.oc_write, k]; rfl)

theorem ldu (h : Hdr) (b : MemBody) : Statement (.ldu h b) := by
  intro hw r he
  have e : Check.ldu h b = true := hw
  simp only [Check.ldu, Check.mem, Bool.and_eq_true] at e
  casesm* _ ∧ _
  have k : h.oc = 1#2 := value_eq (by assumption)
  exact backMem (sound_ldu hw) he (by rw [decodeWords, Hdr.op_write]; show ite _ _ _ = _; rw [Hdr.oc_write, k]; rfl)

theorem lds (h : Hdr) (b : MemBody) : Statement (.lds h b) := by
  intro hw r he
  have e : Check.lds h b = true := hw
  simp only [Check.lds, Check.mem, Bool.and_eq_true] at e
  casesm* _ ∧ _
  have k : h.oc = 2#2 := value_eq (by assumption)
  exact backMem (sound_lds hw) he (by rw [decodeWords, Hdr.op_write]; show ite _ _ _ = _; rw [Hdr.oc_write, k]; rfl)

theorem ldv (h : Hdr) (b : MemBody) : Statement (.ldv h b) := fun hw _ he =>
  backMem (sound_ldv hw) he (by rw [decodeWords, Hdr.op_write]; rfl)

theorem prefD (h : Hdr) (b : MemBody) : Statement (.prefD h b) := fun hw _ he =>
  backMem (sound_prefD hw) he (by rw [decodeWords, Hdr.op_write]; rfl)

theorem probe (h : Hdr) (b : MemBody) : Statement (.probe h b) := fun hw _ he =>
  backMem (sound_probe hw) he (by rw [decodeWords, Hdr.op_write]; rfl)

theorem st (h : Hdr) (b : MemBody) : Statement (.st h b) := by
  intro hw r he
  have e : Check.st h b = true := hw
  simp only [Check.st, Check.mem, Bool.and_eq_true] at e
  casesm* _ ∧ _
  have k : h.oc = 0#2 := value_eq (by assumption)
  exact backMem (sound_st hw) he (by rw [decodeWords, Hdr.op_write]; show ite _ _ _ = _; rw [Hdr.oc_write, k]; rfl)

theorem sts (h : Hdr) (b : MemBody) : Statement (.sts h b) := by
  intro hw r he
  have e : Check.sts h b = true := hw
  simp only [Check.sts, Check.mem, Bool.and_eq_true] at e
  casesm* _ ∧ _
  have k : h.oc = 2#2 := value_eq (by assumption)
  exact backMem (sound_sts hw) he (by rw [decodeWords, Hdr.op_write]; show ite _ _ _ = _; rw [Hdr.oc_write, k]; rfl)

theorem stv (h : Hdr) (b : MemBody) : Statement (.stv h b) := fun hw _ he =>
  backMem (sound_stv hw) he (by rw [decodeWords, Hdr.op_write]; rfl)

theorem stz (h : Hdr) (b : MemBody) : Statement (.stz h b) := by
  intro hw r he
  have e : Check.stz h b = true := hw
  simp only [Check.stz, Check.mem, Bool.and_eq_true] at e
  casesm* _ ∧ _
  have k : b.var = 0#2 := eq_of_beq (by assumption)
  exact backMem (sound_stz hw) he (by rw [decodeWords, Hdr.op_write]; show ite _ _ _ = _; rw [MemBody.var_write, k]; rfl)

theorem stzLine (h : Hdr) (b : MemBody) : Statement (.stzLine h b) := by
  intro hw r he
  have e : Check.stzLine h b = true := hw
  simp only [Check.stzLine, Check.mem, Bool.and_eq_true] at e
  casesm* _ ∧ _
  have k : b.var = 1#2 := eq_of_beq (by assumption)
  exact backMem (sound_stzLine hw) he (by rw [decodeWords, Hdr.op_write]; show ite _ _ _ = _; rw [MemBody.var_write, k]; rfl)

theorem tdef (h : Hdr) (b : MemBody) : Statement (.tdef h b) := fun hw _ he =>
  backMem (sound_tdef hw) he (by rw [decodeWords, Hdr.op_write]; rfl)

theorem tld (h : Hdr) (b : MemBody) : Statement (.tld h b) := fun hw _ he =>
  backMem (sound_tld hw) he (by rw [decodeWords, Hdr.op_write]; rfl)

theorem tstr (h : Hdr) (b : MemBody) : Statement (.tstr h b) := fun hw _ he =>
  backMem (sound_tstr hw) he (by rw [decodeWords, Hdr.op_write]; rfl)

theorem trel (h : Hdr) (b : MemBody) : Statement (.trel h b) := fun hw _ he =>
  backMem (sound_trel hw) he (by rw [decodeWords, Hdr.op_write]; rfl)

theorem tqry (h : Hdr) (b : MemBody) : Statement (.tqry h b) := fun hw _ he =>
  backMem (sound_tqry hw) he (by rw [decodeWords, Hdr.op_write]; rfl)

theorem cwb (h : Hdr) (b : MemBody) : Statement (.cwb h b) := fun hw _ he =>
  backMem (sound_cacheOp hw) he (by rw [decodeWords, Hdr.op_write]; rfl)

theorem cflush (h : Hdr) (b : MemBody) : Statement (.cflush h b) := fun hw _ he =>
  backMem (sound_cacheOp hw) he (by rw [decodeWords, Hdr.op_write]; rfl)

theorem cinv (h : Hdr) (b : MemBody) : Statement (.cinv h b) := fun hw _ he =>
  backMem (sound_cacheOp hw) he (by rw [decodeWords, Hdr.op_write]; rfl)

theorem atom (h : Hdr) (b : MemBody) : Statement (.atom h b) := by
  intro hw r he
  have e : Check.atom 0 false h b = true := hw
  simp only [Check.atom, Check.atomCommon, Check.mem, Bool.and_eq_true] at e
  casesm* _ ∧ _
  have k : h.oc = 0#2 := value_eq (by assumption)
  exact backMem (sound_atom hw) he (by rw [decodeWords, Hdr.op_write]; show ite _ _ _ = _; rw [Hdr.oc_write, k]; rfl)

theorem atoms (h : Hdr) (b : MemBody) : Statement (.atoms h b) := by
  intro hw r he
  have e : Check.atom 2 true h b = true := hw
  simp only [Check.atom, Check.atomCommon, Check.mem, Bool.and_eq_true] at e
  casesm* _ ∧ _
  have k : h.oc = 2#2 := value_eq (by assumption)
  exact backMem (sound_atom hw) he (by rw [decodeWords, Hdr.op_write]; show ite _ _ _ = _; rw [Hdr.oc_write, k]; rfl)

theorem red (h : Hdr) (b : MemBody) : Statement (.red h b) := by
  intro hw r he
  have e : Check.red 0 false h b = true := hw
  simp only [Check.red, Check.atomCommon, Check.mem, Bool.and_eq_true] at e
  casesm* _ ∧ _
  have k : h.oc = 0#2 := value_eq (by assumption)
  exact backMem (sound_red hw) he (by rw [decodeWords, Hdr.op_write]; show ite _ _ _ = _; rw [Hdr.oc_write, k]; rfl)

theorem reds (h : Hdr) (b : MemBody) : Statement (.reds h b) := by
  intro hw r he
  have e : Check.red 2 true h b = true := hw
  simp only [Check.red, Check.atomCommon, Check.mem, Bool.and_eq_true] at e
  casesm* _ ∧ _
  have k : h.oc = 2#2 := value_eq (by assumption)
  exact backMem (sound_red hw) he (by rw [decodeWords, Hdr.op_write]; show ite _ _ _ = _; rw [Hdr.oc_write, k]; rfl)

theorem cas (h : Hdr) (b : MemBody) : Statement (.cas h b) := by
  intro hw r he
  have e : Check.cas 0 false h b = true := hw
  simp only [Check.cas, Check.atomCommon, Check.mem, Bool.and_eq_true] at e
  casesm* _ ∧ _
  have k : h.oc = 0#2 := value_eq (by assumption)
  exact backMem (sound_cas hw) he (by rw [decodeWords, Hdr.op_write]; show ite _ _ _ = _; rw [Hdr.oc_write, k]; rfl)

theorem cass (h : Hdr) (b : MemBody) : Statement (.cass h b) := by
  intro hw r he
  have e : Check.cas 2 true h b = true := hw
  simp only [Check.cas, Check.atomCommon, Check.mem, Bool.and_eq_true] at e
  casesm* _ ∧ _
  have k : h.oc = 2#2 := value_eq (by assumption)
  exact backMem (sound_cas hw) he (by rw [decodeWords, Hdr.op_write]; show ite _ _ _ = _; rw [Hdr.oc_write, k]; rfl)

theorem cas2 (h : Hdr) (b : MemBody) : Statement (.cas2 h b) := fun hw _ he =>
  backMem (sound_fixed hw) he (by rw [decodeWords, Hdr.op_write]; rfl)

theorem cas4 (h : Hdr) (b : MemBody) : Statement (.cas4 h b) := fun hw _ he =>
  backMem (sound_cas4 hw) he (by rw [decodeWords, Hdr.op_write]; rfl)

theorem enq (h : Hdr) (b : MemBody) : Statement (.enq h b) := fun hw _ he =>
  backMem (sound_fixed hw) he (by rw [decodeWords, Hdr.op_write]; rfl)

theorem chase (h : Hdr) (b : MemBody) : Statement (.chase h b) := fun hw _ he =>
  backMem (sound_fixed hw) he (by rw [decodeWords, Hdr.op_write]; rfl)

theorem cred (h : Hdr) (b : MemBody) : Statement (.cred h b) := fun hw _ he =>
  backMem (sound_fixed hw) he (by rw [decodeWords, Hdr.op_write]; rfl)

theorem opk (h : Hdr) (b : MemBody) : Statement (.opk h b) := by
  intro hw r he
  have e : Check.opk 0 false h b = true := hw
  simp only [Check.opk, Check.atomCommon, Check.mem, Bool.and_eq_true] at e
  casesm* _ ∧ _
  have k : h.oc = 0#2 := value_eq (by assumption)
  exact backMem (sound_opk hw) he (by rw [decodeWords, Hdr.op_write]; show ite _ _ _ = _; rw [Hdr.oc_write, k]; rfl)

theorem opkScalar (h : Hdr) (b : MemBody) : Statement (.opkScalar h b) := by
  intro hw r he
  have e : Check.opk 2 true h b = true := hw
  simp only [Check.opk, Check.atomCommon, Check.mem, Bool.and_eq_true] at e
  casesm* _ ∧ _
  have k : h.oc = 2#2 := value_eq (by assumption)
  exact backMem (sound_opk hw) he (by rw [decodeWords, Hdr.op_write]; show ite _ _ _ = _; rw [Hdr.oc_write, k]; rfl)

theorem opkx (h : Hdr) (b : MemBody) : Statement (.opkx h b) := by
  intro hw r he
  have e : Check.opkx 0 false h b = true := hw
  simp only [Check.opkx, Check.atomCommon, Check.mem, Bool.and_eq_true] at e
  casesm* _ ∧ _
  have k : h.oc = 0#2 := value_eq (by assumption)
  exact backMem (sound_opkx hw) he (by rw [decodeWords, Hdr.op_write]; show ite _ _ _ = _; rw [Hdr.oc_write, k]; rfl)

theorem opkxScalar (h : Hdr) (b : MemBody) : Statement (.opkxScalar h b) := by
  intro hw r he
  have e : Check.opkx 2 true h b = true := hw
  simp only [Check.opkx, Check.atomCommon, Check.mem, Bool.and_eq_true] at e
  casesm* _ ∧ _
  have k : h.oc = 2#2 := value_eq (by assumption)
  exact backMem (sound_opkx hw) he (by rw [decodeWords, Hdr.op_write]; show ite _ _ _ = _; rw [Hdr.oc_write, k]; rfl)

theorem barArr (h : Hdr) (b : AluBody) : Statement (.barArr h b) := fun hw _ he =>
  backSi (sound_bar hw) he (by rw [decodeWords, Hdr.op_write]; rfl)

theorem barWait (h : Hdr) (b : AluBody) : Statement (.barWait h b) := fun hw _ he =>
  backSi (sound_bar hw) he (by rw [decodeWords, Hdr.op_write]; rfl)

theorem barSync (h : Hdr) (b : AluBody) : Statement (.barSync h b) := fun hw _ he =>
  backSi (sound_bar hw) he (by rw [decodeWords, Hdr.op_write]; rfl)

theorem objArr (h : Hdr) (b : MemBody) : Statement (.objArr h b) := fun hw _ he =>
  backMem (sound_objArr hw) he (by rw [decodeWords, Hdr.op_write]; rfl)

theorem objWait (h : Hdr) (b : MemBody) : Statement (.objWait h b) := by
  intro hw r he
  have e : Check.objWait 0 h b = true := hw
  simp only [Check.objWait, Check.sync, Check.mem, Bool.and_eq_true] at e
  casesm* _ ∧ _
  have k : b.var = 0#2 := value_eq (by assumption)
  exact backMem (sound_objWait hw) he (by rw [decodeWords, Hdr.op_write]; show ite _ _ _ = _; rw [MemBody.var_write, k]; rfl)

theorem objWaitEv (h : Hdr) (b : MemBody) : Statement (.objWaitEv h b) := by
  intro hw r he
  have e : Check.objWait 1 h b = true := hw
  simp only [Check.objWait, Check.sync, Check.mem, Bool.and_eq_true] at e
  casesm* _ ∧ _
  have k : b.var = 1#2 := value_eq (by assumption)
  exact backMem (sound_objWait hw) he (by rw [decodeWords, Hdr.op_write]; show ite _ _ _ = _; rw [MemBody.var_write, k]; rfl)

theorem waitc (h : Hdr) (b : MemBody) : Statement (.waitc h b) := fun hw _ he =>
  backMem (sound_waitc hw) he (by rw [decodeWords, Hdr.op_write]; rfl)

theorem signal (h : Hdr) (b : MemBody) : Statement (.signal h b) := fun hw _ he =>
  backMem (sound_signal hw) he (by rw [decodeWords, Hdr.op_write]; rfl)

theorem fence (h : Hdr) (b : AluBody) : Statement (.fence h b) := fun hw _ he =>
  backSi (sound_fence hw) he (by rw [decodeWords, Hdr.op_write]; rfl)

theorem rgnOpen (h : Hdr) (b : AluBody) : Statement (.rgnOpen h b) := fun hw _ he =>
  backSi (sound_rgnOpen hw) he (by rw [decodeWords, Hdr.op_write]; rfl)

theorem commit (h : Hdr) (b : CtlBody) : Statement (.commit h b) := by
  intro hw r he
  have e : Check.commit h b = true := hw
  simp only [Check.commit, Check.ctl, Bool.and_eq_true] at e
  casesm* _ ∧ _
  have k : h.oc = 0#2 := value_eq (by assumption)
  exact backCtl (sound_commit hw) he (by rw [decodeWords, Hdr.op_write]; show ite _ _ _ = _; rw [Hdr.oc_write, k]; rfl)

theorem commitPark (h : Hdr) (b : CtlBody) : Statement (.commitPark h b) := by
  intro hw r he
  have e : Check.commitPark h b = true := hw
  simp only [Check.commitPark, Check.ctl, Bool.and_eq_true] at e
  casesm* _ ∧ _
  have k : h.oc = 1#2 := value_eq (by assumption)
  exact backCtl (sound_commitPark hw) he (by rw [decodeWords, Hdr.op_write]; show ite _ _ _ = _; rw [Hdr.oc_write, k]; rfl)

theorem commitR (h : Hdr) (b : CtlBody) : Statement (.commitR h b) := by
  intro hw r he
  have e : Check.commit h b = true := hw
  simp only [Check.commit, Check.ctl, Bool.and_eq_true] at e
  casesm* _ ∧ _
  have k : h.oc = 0#2 := value_eq (by assumption)
  exact backCtl (sound_commit hw) he (by rw [decodeWords, Hdr.op_write]; show ite _ _ _ = _; rw [Hdr.oc_write, k]; rfl)

theorem commitRPark (h : Hdr) (b : CtlBody) : Statement (.commitRPark h b) := by
  intro hw r he
  have e : Check.commitPark h b = true := hw
  simp only [Check.commitPark, Check.ctl, Bool.and_eq_true] at e
  casesm* _ ∧ _
  have k : h.oc = 1#2 := value_eq (by assumption)
  exact backCtl (sound_commitPark hw) he (by rw [decodeWords, Hdr.op_write]; show ite _ _ _ = _; rw [Hdr.oc_write, k]; rfl)

theorem rgnDrop (h : Hdr) (b : CtlBody) : Statement (.rgnDrop h b) := fun hw _ he =>
  backCtl (sound_ctlNone hw) he (by rw [decodeWords, Hdr.op_write]; rfl)

theorem acopy (h : Hdr) (b : AsyBody) : Statement (.acopy h b) := fun hw _ he =>
  backAsy (sound_acopy hw) he (by rw [decodeWords, Hdr.op_write]; rfl)

theorem agath (h : Hdr) (b : AsyBody) : Statement (.agath h b) := fun hw _ he =>
  backAsy (sound_agath hw) he (by rw [decodeWords, Hdr.op_write]; rfl)

theorem ascat (h : Hdr) (b : AsyBody) : Statement (.ascat h b) := fun hw _ he =>
  backAsy (sound_agath hw) he (by rw [decodeWords, Hdr.op_write]; rfl)

theorem acoll (h : Hdr) (b : AsyBody) : Statement (.acoll h b) := fun hw _ he =>
  backAsy (sound_acoll hw) he (by rw [decodeWords, Hdr.op_write]; rfl)

theorem afill (h : Hdr) (b : AsyBody) : Statement (.afill h b) := fun hw _ he =>
  backAsy (sound_afill hw) he (by rw [decodeWords, Hdr.op_write]; rfl)

theorem acopyt (h : Hdr) (b : AsyBody) : Statement (.acopyt h b) := fun hw _ he =>
  backAsy (sound_acopyt hw) he (by rw [decodeWords, Hdr.op_write]; rfl)

theorem apref (h : Hdr) (b : AsyBody) : Statement (.apref h b) := fun hw _ he =>
  backAsy (sound_apref hw) he (by rw [decodeWords, Hdr.op_write]; rfl)

theorem aqry (h : Hdr) (b : AsyBody) : Statement (.aqry h b) := fun hw _ he =>
  backAsy (sound_aqry hw) he (by rw [decodeWords, Hdr.op_write]; rfl)

theorem lnch (h : Hdr) (b : AsyBody) : Statement (.lnch h b) := fun hw _ he =>
  backAsy (sound_lnch hw) he (by rw [decodeWords, Hdr.op_write]; rfl)

theorem lnchPod (h : Hdr) (b : AsyBody) : Statement (.lnchPod h b) := fun hw _ he =>
  backAsy (sound_lnch hw) he (by rw [decodeWords, Hdr.op_write]; rfl)

theorem join (h : Hdr) (b : AsyBody) : Statement (.join h b) := fun hw _ he =>
  backAsy (sound_join hw) he (by rw [decodeWords, Hdr.op_write]; rfl)

theorem cancel (h : Hdr) (b : AsyBody) : Statement (.cancel h b) := by
  intro hw r he
  have e : Check.cancel 0 h b = true := hw
  simp only [Check.cancel, Check.asy, Bool.and_eq_true] at e
  casesm* _ ∧ _
  have k : b.var = 0#8 := only_eq (by assumption)
  exact backAsy (sound_cancel hw) he (by rw [decodeWords, Hdr.op_write]; show ite _ _ _ = _; rw [AsyBody.var_write, k]; rfl)

theorem cancelTerm (h : Hdr) (b : AsyBody) : Statement (.cancelTerm h b) := by
  intro hw r he
  have e : Check.cancel 1 h b = true := hw
  simp only [Check.cancel, Check.asy, Bool.and_eq_true] at e
  casesm* _ ∧ _
  have k : b.var = 1#8 := only_eq (by assumption)
  exact backAsy (sound_cancel hw) he (by rw [decodeWords, Hdr.op_write]; show ite _ _ _ = _; rw [AsyBody.var_write, k]; rfl)

theorem lrec (h : Hdr) (b : AsyBody) : Statement (.lrec h b) := fun hw _ he =>
  backAsy (sound_lnch hw) he (by rw [decodeWords, Hdr.op_write]; rfl)

theorem lstat (h : Hdr) (b : AsyBody) : Statement (.lstat h b) := fun hw _ he =>
  backAsy (sound_lstat hw) he (by rw [decodeWords, Hdr.op_write]; rfl)

theorem srd (h : Hdr) (b : SysBody) : Statement (.srd h b) := fun hw _ he =>
  backSys (sound_sys hw) he (by rw [decodeWords, Hdr.op_write]; rfl)

theorem swr (h : Hdr) (b : SysBody) : Statement (.swr h b) := fun hw _ he =>
  backSys (sound_sys hw) he (by rw [decodeWords, Hdr.op_write]; rfl)

theorem tbinv (h : Hdr) (b : SysBody) : Statement (.tbinv h b) := fun hw _ he =>
  backSys (sound_sys hw) he (by rw [decodeWords, Hdr.op_write]; rfl)

theorem tbsync (h : Hdr) (b : SysBody) : Statement (.tbsync h b) := fun hw _ he =>
  backSys (sound_sys hw) he (by rw [decodeWords, Hdr.op_write]; rfl)

theorem ctxswOut (h : Hdr) (b : SysBody) : Statement (.ctxswOut h b) := by
  intro hw r he
  have e : Check.sys 0 true false true false [0] h b = true := hw
  simp only [Check.sys, Bool.and_eq_true] at e
  casesm* _ ∧ _
  have k : h.oc = 0#2 := value_eq (by assumption)
  exact backSys (sound_sys hw) he (by rw [decodeWords, Hdr.op_write]; show ite _ _ _ = _; rw [Hdr.oc_write, k]; rfl)

theorem ctxswIn (h : Hdr) (b : SysBody) : Statement (.ctxswIn h b) := by
  intro hw r he
  have e : Check.sys 1 true false true false [0] h b = true := hw
  simp only [Check.sys, Bool.and_eq_true] at e
  casesm* _ ∧ _
  have k : h.oc = 1#2 := value_eq (by assumption)
  exact backSys (sound_sys hw) he (by rw [decodeWords, Hdr.op_write]; show ite _ _ _ = _; rw [Hdr.oc_write, k]; rfl)

theorem shalt (h : Hdr) (b : SysBody) : Statement (.shalt h b) := fun hw _ he =>
  backSys (sound_sys hw) he (by rw [decodeWords, Hdr.op_write]; rfl)

theorem sresm (h : Hdr) (b : SysBody) : Statement (.sresm h b) := by
  intro hw r he
  have e : Check.sys 0 false false true true [0] h b = true := hw
  simp only [Check.sys, Bool.and_eq_true] at e
  casesm* _ ∧ _
  have k : b.var = 0#8 := only_eq (by assumption)
  exact backSys (sound_sys hw) he (by rw [decodeWords, Hdr.op_write]; show ite _ _ _ = _; rw [SysBody.var_write, k]; rfl)

theorem sresmFetch (h : Hdr) (b : SysBody) : Statement (.sresmFetch h b) := by
  intro hw r he
  have e : Check.sys 0 false false true true [1] h b = true := hw
  simp only [Check.sys, Bool.and_eq_true] at e
  casesm* _ ∧ _
  have k : b.var = 1#8 := only_eq (by assumption)
  exact backSys (sound_sys hw) he (by rw [decodeWords, Hdr.op_write]; show ite _ _ _ = _; rw [SysBody.var_write, k]; rfl)

theorem sresmKill (h : Hdr) (b : SysBody) : Statement (.sresmKill h b) := by
  intro hw r he
  have e : Check.sys 0 false false true true [2] h b = true := hw
  simp only [Check.sys, Bool.and_eq_true] at e
  casesm* _ ∧ _
  have k : b.var = 2#8 := only_eq (by assumption)
  exact backSys (sound_sys hw) he (by rw [decodeWords, Hdr.op_write]; show ite _ _ _ = _; rw [SysBody.var_write, k]; rfl)

theorem ievict (h : Hdr) (b : SysBody) : Statement (.ievict h b) := fun hw _ he =>
  backSys (sound_sys hw) he (by rw [decodeWords, Hdr.op_write]; rfl)

theorem pld (h : Hdr) (b : SysBody) : Statement (.pld h b) := fun hw _ he =>
  backSys (sound_sys hw) he (by rw [decodeWords, Hdr.op_write]; rfl)

theorem pst (h : Hdr) (b : SysBody) : Statement (.pst h b) := fun hw _ he =>
  backSys (sound_sys hw) he (by rw [decodeWords, Hdr.op_write]; rfl)

theorem convhcHc (h : Hdr) (b : SysBody) : Statement (.convhcHc h b) := by
  intro hw r he
  have e : Check.sys 0 true false true true [0] h b = true := hw
  simp only [Check.sys, Bool.and_eq_true] at e
  casesm* _ ∧ _
  have k : h.oc = 0#2 := value_eq (by assumption)
  exact backSys (sound_sys hw) he (by rw [decodeWords, Hdr.op_write]; show ite _ _ _ = _; rw [Hdr.oc_write, k]; rfl)

theorem convhcSm (h : Hdr) (b : SysBody) : Statement (.convhcSm h b) := by
  intro hw r he
  have e : Check.sys 1 true false true true [0] h b = true := hw
  simp only [Check.sys, Bool.and_eq_true] at e
  casesm* _ ∧ _
  have k : h.oc = 1#2 := value_eq (by assumption)
  exact backSys (sound_sys hw) he (by rw [decodeWords, Hdr.op_write]; show ite _ _ _ = _; rw [Hdr.oc_write, k]; rfl)

theorem fqpop (h : Hdr) (b : SysBody) : Statement (.fqpop h b) := fun hw _ he =>
  backSys (sound_sys hw) he (by rw [decodeWords, Hdr.op_write]; rfl)

theorem ttload (h : Hdr) (b : SysBody) : Statement (.ttload h b) := fun hw _ he =>
  backSys (sound_sys hw) he (by rw [decodeWords, Hdr.op_write]; rfl)

theorem cwball (h : Hdr) (b : SysBody) : Statement (.cwball h b) := by
  intro hw r he
  have e : Check.sys 0 false false false false (Check.scopeVar [0]) h b = true := hw
  simp only [Check.sys, Bool.and_eq_true] at e
  casesm* _ ∧ _
  have k : h.oc = 0#2 := value_eq (by assumption)
  exact backSys (sound_sys hw) he (by rw [decodeWords, Hdr.op_write]; show ite _ _ _ = _; rw [Hdr.oc_write, k]; rfl)

theorem cwballInv (h : Hdr) (b : SysBody) : Statement (.cwballInv h b) := by
  intro hw r he
  have e : Check.sys 1 false false false false (Check.scopeVar [0]) h b = true := hw
  simp only [Check.sys, Bool.and_eq_true] at e
  casesm* _ ∧ _
  have k : h.oc = 1#2 := value_eq (by assumption)
  exact backSys (sound_sys hw) he (by rw [decodeWords, Hdr.op_write]; show ite _ _ _ = _; rw [Hdr.oc_write, k]; rfl)

theorem hint (w : RawInsn) : Statement (.hint w) := by
  intro hw r he
  obtain rfl := Option.some.inj he
  have hw : w.w0.extractLsb' 6 4 = 0xE#4 := by simpa [WellFormed, legal, Check.isHint] using hw
  have ho : (w.w0.extractLsb' 0 10).toNat / 64 = 14 := by
    have h := congrArg BitVec.toNat hw
    simp only [BitVec.extractLsb'_toNat, Nat.shiftRight_eq_div_pow] at h ⊢
    change _ = 14 at h
    omega
  simp only [decodeWords, ho]

theorem free0 {op : Nat} (w0 w1 w2 : Word) (h : ¬(0x1 ≤ op ∧ op ≤ 0x14)) :
    decodeGroup0 op w0 w1 w2 = .illegalInstruction ⟨w0, w1, w2⟩ := by
  unfold decodeGroup0
  split <;> first | rfl | (exfalso; omega)

theorem free1 {op : Nat} (w0 w1 w2 : Word) (h : ¬(0x40 ≤ op ∧ op ≤ 0x4F)) :
    decodeGroup1 op w0 w1 w2 = .illegalInstruction ⟨w0, w1, w2⟩ := by
  unfold decodeGroup1
  split <;> first | rfl | (exfalso; omega)

theorem free2 {op : Nat} (w0 w1 w2 : Word) (h : ¬(0x80 ≤ op ∧ op ≤ 0x93)) :
    decodeGroup2 op w0 w1 w2 = .illegalInstruction ⟨w0, w1, w2⟩ := by
  unfold decodeGroup2
  split <;> first | rfl | (exfalso; omega)

theorem free3 {op : Nat} (w0 w1 w2 : Word) (h : ¬(0xC0 ≤ op ∧ op ≤ 0xCB)) :
    decodeGroup3 op w0 w1 w2 = .illegalInstruction ⟨w0, w1, w2⟩ := by
  unfold decodeGroup3
  split <;> first | rfl | (exfalso; omega)

theorem free4 {op : Nat} (w0 w1 w2 : Word) (h : ¬(0x100 ≤ op ∧ op ≤ 0x113)) :
    decodeGroup4 op w0 w1 w2 = .illegalInstruction ⟨w0, w1, w2⟩ := by
  unfold decodeGroup4
  split <;> first | rfl | (exfalso; omega)

theorem free5 {op : Nat} (w0 w1 w2 : Word) (h : ¬(0x140 ≤ op ∧ op ≤ 0x149)) :
    decodeGroup5 op w0 w1 w2 = .illegalInstruction ⟨w0, w1, w2⟩ := by
  unfold decodeGroup5
  split <;> first | rfl | (exfalso; omega)

theorem free6 {op : Nat} (w0 w1 w2 : Word) (h : ¬(0x180 ≤ op ∧ op ≤ 0x18B)) :
    decodeGroup6 op w0 w1 w2 = .illegalInstruction ⟨w0, w1, w2⟩ := by
  unfold decodeGroup6
  split <;> first | rfl | (exfalso; omega)

theorem free7 {op : Nat} (w0 w1 w2 : Word) (h : ¬(0x1C0 ≤ op ∧ op ≤ 0x1CC)) :
    decodeGroup7 op w0 w1 w2 = .illegalInstruction ⟨w0, w1, w2⟩ := by
  unfold decodeGroup7
  split <;> first | rfl | (exfalso; omega)

theorem free8 {op : Nat} (w0 w1 w2 : Word) (h : ¬(0x200 ≤ op ∧ op ≤ 0x203)) :
    decodeGroup8 op w0 w1 w2 = .illegalInstruction ⟨w0, w1, w2⟩ := by
  unfold decodeGroup8
  split <;> first | rfl | (exfalso; omega)

theorem free9 {op : Nat} (w0 w1 w2 : Word) (h : ¬(0x240 ≤ op ∧ op ≤ 0x24A)) :
    decodeGroup9 op w0 w1 w2 = .illegalInstruction ⟨w0, w1, w2⟩ := by
  unfold decodeGroup9
  split <;> first | rfl | (exfalso; omega)

theorem freeA {op : Nat} (w0 w1 w2 : Word) (h : ¬(0x280 ≤ op ∧ op ≤ 0x289)) :
    decodeGroupA op w0 w1 w2 = .illegalInstruction ⟨w0, w1, w2⟩ := by
  unfold decodeGroupA
  split <;> first | rfl | (exfalso; omega)

theorem freeB {op : Nat} (w0 w1 w2 : Word) (h : ¬(0x2C0 ≤ op ∧ op ≤ 0x2CB)) :
    decodeGroupB op w0 w1 w2 = .illegalInstruction ⟨w0, w1, w2⟩ := by
  unfold decodeGroupB
  split <;> first | rfl | (exfalso; omega)

theorem freeC {op : Nat} (w0 w1 w2 : Word) (h : ¬(0x300 ≤ op ∧ op ≤ 0x307) ∧ ¬(0x310 ≤ op ∧ op ≤ 0x315)) :
    decodeGroupC op w0 w1 w2 = .illegalInstruction ⟨w0, w1, w2⟩ := by
  unfold decodeGroupC
  split <;> first | rfl | (exfalso; omega)

theorem freeD {op : Nat} (w0 w1 w2 : Word) (h : ¬(0x340 ≤ op ∧ op ≤ 0x34D)) :
    decodeGroupD op w0 w1 w2 = .illegalInstruction ⟨w0, w1, w2⟩ := by
  unfold decodeGroupD
  split <;> first | rfl | (exfalso; omega)

theorem illegalInstruction (w : RawInsn) : Statement (.illegalInstruction w) := by
  intro hw r he
  obtain rfl := Option.some.inj he
  obtain ⟨w0, w1, w2⟩ := w
  have hi : Check.isHint w0 = false ∧ Check.allocated (Check.opcode w0) = false := by
    have hw : Check.isIllegal w0 = true := hw
    simpa [Check.isIllegal] using hw
  have hh : (w0.extractLsb' 6 4).toNat = Check.opcode w0 / 64 := by
    simp only [Check.opcode, BitVec.extractLsb'_toNat, Nat.shiftRight_eq_div_pow]
    omega
  have hn : Check.opcode w0 / 64 ≠ 14 := by
    rw [← hh]
    exact fun h => beq_eq_false_iff_ne.mp hi.1 (BitVec.eq_of_toNat_eq h)
  have ha := hi.2
  show decodeWords w0 w1 w2 = _
  unfold decodeWords
  unfold Check.opcode at ha hn
  generalize (w0.extractLsb' 0 10).toNat = op at ha hn ⊢
  simp only [Check.allocated, Bool.or_eq_false_iff, Bool.and_eq_false_iff, decide_eq_false_iff_not] at ha
  dsimp only
  split
  all_goals first
    | rfl
    | exact free0 w0 w1 w2 (by omega)
    | exact free1 w0 w1 w2 (by omega)
    | exact free2 w0 w1 w2 (by omega)
    | exact free3 w0 w1 w2 (by omega)
    | exact free4 w0 w1 w2 (by omega)
    | exact free5 w0 w1 w2 (by omega)
    | exact free6 w0 w1 w2 (by omega)
    | exact free7 w0 w1 w2 (by omega)
    | exact free8 w0 w1 w2 (by omega)
    | exact free9 w0 w1 w2 (by omega)
    | exact freeA w0 w1 w2 (by omega)
    | exact freeB w0 w1 w2 (by omega)
    | exact freeC w0 w1 w2 (by omega)
    | exact freeD w0 w1 w2 (by omega)
    | (exfalso; omega)

theorem addRoutine (p : Packet) : Statement (.addRoutine p) := fun _ _ h => nomatch h

theorem signedMinRoutine (p : Packet) : Statement (.signedMinRoutine p) := fun _ _ h => nomatch h

theorem signedMaxRoutine (p : Packet) : Statement (.signedMaxRoutine p) := fun _ _ h => nomatch h

theorem unsignedMinRoutine (p : Packet) : Statement (.unsignedMinRoutine p) := fun _ _ h => nomatch h

theorem unsignedMaxRoutine (p : Packet) : Statement (.unsignedMaxRoutine p) := fun _ _ h => nomatch h

theorem andRoutine (p : Packet) : Statement (.andRoutine p) := fun _ _ h => nomatch h

theorem orRoutine (p : Packet) : Statement (.orRoutine p) := fun _ _ h => nomatch h

theorem xorRoutine (p : Packet) : Statement (.xorRoutine p) := fun _ _ h => nomatch h

theorem swapRoutine (p : Packet) : Statement (.swapRoutine p) := fun _ _ h => nomatch h

theorem casRoutine (p : Packet) : Statement (.casRoutine p) := fun _ _ h => nomatch h

theorem f32AddRoutine (p : Packet) : Statement (.f32AddRoutine p) := fun _ _ h => nomatch h

theorem f16PairAddRoutine (p : Packet) : Statement (.f16PairAddRoutine p) := fun _ _ h => nomatch h

theorem b16PairAddRoutine (p : Packet) : Statement (.b16PairAddRoutine p) := fun _ _ h => nomatch h

theorem twoWordCasRoutine (p : Packet) : Statement (.twoWordCasRoutine p) := fun _ _ h => nomatch h

theorem fourWordCasRoutine (p : Packet) : Statement (.fourWordCasRoutine p) := fun _ _ h => nomatch h

theorem listEnqueueRoutine (p : Packet) : Statement (.listEnqueueRoutine p) := fun _ _ h => nomatch h

theorem pointerChaseRoutine (p : Packet) : Statement (.pointerChaseRoutine p) := fun _ _ h => nomatch h

theorem contributorReductionRoutine (p : Packet) : Statement (.contributorReductionRoutine p) := fun _ _ h => nomatch h

theorem installedRoutine (p : Packet) : Statement (.installedRoutine p) := fun _ _ h => nomatch h

theorem fabricStoreRequest (r : FabReq) : Statement (.fabricStoreRequest r) := fun _ _ h => nomatch h

theorem tileTransaction (r : FabReq) : Statement (.tileTransaction r) := fun _ _ h => nomatch h

theorem ualinkStandardRequest (r : FabReq) : Statement (.ualinkStandardRequest r) := fun _ _ h => nomatch h

theorem fabricAcknowledge (src : Nat) (stn : Nat) (seq : HomeSeq) : Statement (.fabricAcknowledge src stn seq) := fun _ _ h => nomatch h

theorem fabricRetransmit (id : Nat) : Statement (.fabricRetransmit id) := fun _ _ h => nomatch h

theorem fabricRequestTimeout (id : Nat) : Statement (.fabricRequestTimeout id) := fun _ _ h => nomatch h

theorem tileLockTimeout (t : TileOp) : Statement (.tileLockTimeout t) := fun _ _ h => nomatch h

theorem replyLand (r : Reply) : Statement (.replyLand r) := fun _ _ h => nomatch h

theorem barrierObjectArrive (a : Arrival) : Statement (.barrierObjectArrive a) := fun _ _ h => nomatch h

theorem engineComplete (c : Cmd) : Statement (.engineComplete c) := fun _ _ h => nomatch h

theorem collectiveCombine (op : BitVec 3) (p : Place) (esize : Nat) (sv : MWord) : Statement (.collectiveCombine op p esize sv) := fun _ _ h => nomatch h

theorem matrixPassComplete (m : MatPass) : Statement (.matrixPassComplete m) := fun _ _ h => nomatch h

theorem tileFillComplete (t : TileOp) : Statement (.tileFillComplete t) := fun _ _ h => nomatch h

theorem tileDrainComplete (t : TileOp) : Statement (.tileDrainComplete t) := fun _ _ h => nomatch h

theorem monitorMatch (m : Monitor) : Statement (.monitorMatch m) := fun _ _ h => nomatch h

theorem deadlineFire (sid : Nat) : Statement (.deadlineFire sid) := fun _ _ h => nomatch h

theorem commitParkEnd (sid : Nat) : Statement (.commitParkEnd sid) := fun _ _ h => nomatch h

theorem heldTrapTaken (sid : Nat) : Statement (.heldTrapTaken sid) := fun _ _ h => nomatch h

theorem fetchTrap (sid : Nat) (frag : Nat) (cause : BitVec 8) : Statement (.fetchTrap sid frag cause) := fun _ _ h => nomatch h

theorem instructionCacheFill (core : Nat) (ctx : Nat) (va : Dword) : Statement (.instructionCacheFill core ctx va) := fun _ _ h => nomatch h

theorem starvationPromote (sid : Nat) (frag : Nat) : Statement (.starvationPromote sid frag) := fun _ _ h => nomatch h

theorem strandRetire (sid : Nat) : Statement (.strandRetire sid) := fun _ _ h => nomatch h

theorem gridComplete (gid : Nat) : Statement (.gridComplete gid) := fun _ _ h => nomatch h

theorem slotTakeback (sid : Nat) : Statement (.slotTakeback sid) := fun _ _ h => nomatch h

theorem strandReadmit (sid : Nat) : Statement (.strandReadmit sid) := fun _ _ h => nomatch h

theorem launchQueueHandoff (core : Nat) : Statement (.launchQueueHandoff core) := fun _ _ h => nomatch h

theorem overflowMove : Statement .overflowMove := fun _ _ h => nomatch h

theorem postWindowWrite (q : Nat) (host : Bool) (dev : Nat) (data : List Dword) : Statement (.postWindowWrite q host dev data) := fun _ _ h => nomatch h

theorem launchPacketAccept (q : Nat) : Statement (.launchPacketAccept q) := fun _ _ h => nomatch h

theorem cancelPacket (q : Nat) : Statement (.cancelPacket q) := fun _ _ h => nomatch h

theorem cancelTermPacket (q : Nat) : Statement (.cancelTermPacket q) := fun _ _ h => nomatch h

theorem nbhdOffer (clu : Nat) (gid : Nat) : Statement (.nbhdOffer clu gid) := fun _ _ h => nomatch h

theorem nbhdPlace (clu : Nat) : Statement (.nbhdPlace clu) := fun _ _ h => nomatch h

theorem offerTimeout (clu : Nat) : Statement (.offerTimeout clu) := fun _ _ h => nomatch h

theorem cstoreApply (core : Nat) : Statement (.cstoreApply core) := fun _ _ h => nomatch h

theorem ttLaunch (n : Nat) : Statement (.ttLaunch n) := fun _ _ h => nomatch h

theorem ttPreempt (n : Nat) : Statement (.ttPreempt n) := fun _ _ h => nomatch h

theorem ttResume (n : Nat) : Statement (.ttResume n) := fun _ _ h => nomatch h

theorem ttDelayExpiry (n : Nat) : Statement (.ttDelayExpiry n) := fun _ _ h => nomatch h

theorem gangBoundaryMarker (gid : Nat) (ttime : Nat) (dev : Nat) (stn : Nat) : Statement (.gangBoundaryMarker gid ttime dev stn) := fun _ _ h => nomatch h

theorem markerTimeout (gid : Nat) (ttime : Nat) (dev : Nat) : Statement (.markerTimeout gid ttime dev) := fun _ _ h => nomatch h

theorem agreementCheck (gid : Nat) (ttime : Nat) : Statement (.agreementCheck gid ttime) := fun _ _ h => nomatch h

theorem agreementRequest (gid : Nat) (ttime : Nat) (dev : Nat) : Statement (.agreementRequest gid ttime dev) := fun _ _ h => nomatch h

theorem switchPacket (gid : Nat) (ttime : Nat) : Statement (.switchPacket gid ttime) := fun _ _ h => nomatch h

theorem agreementTimeout (gid : Nat) (ttime : Nat) : Statement (.agreementTimeout gid ttime) := fun _ _ h => nomatch h

theorem stragglerReport (gid : Nat) (ttime : Nat) (dev : Nat) (lateness : Nat) : Statement (.stragglerReport gid ttime dev lateness) := fun _ _ h => nomatch h

theorem podLaunchRecord (src : Nat) (ctx : Nat) (r : List Dword) : Statement (.podLaunchRecord src ctx r) := fun _ _ h => nomatch h

theorem accept (src : Nat) (ctx : Nat) (grid : Dword) : Statement (.accept src ctx grid) := fun _ _ h => nomatch h

theorem reject (src : Nat) (ctx : Nat) (grid : Dword) : Statement (.reject src ctx grid) := fun _ _ h => nomatch h

theorem go (src : Nat) (ctx : Nat) (grid : Dword) : Statement (.go src ctx grid) := fun _ _ h => nomatch h

theorem drop (src : Nat) (ctx : Nat) (grid : Dword) : Statement (.drop src ctx grid) := fun _ _ h => nomatch h

theorem zenithReplyTimeout (ctx : Nat) (grid : Dword) : Statement (.zenithReplyTimeout ctx grid) := fun _ _ h => nomatch h

theorem completionReport (src : Nat) (ctx : Nat) (grid : Dword) (r : Report) : Statement (.completionReport src ctx grid r) := fun _ _ h => nomatch h

theorem haloCancel (src : Nat) (ctx : Nat) (grid : Dword) (term : Bool) : Statement (.haloCancel src ctx grid term) := fun _ _ h => nomatch h

theorem cancelMemberTimeout (ctx : Nat) (grid : Dword) (dev : Nat) : Statement (.cancelMemberTimeout ctx grid dev) := fun _ _ h => nomatch h

theorem haloMessageReceive (src : Nat) (v : Nat) (good : Bool) (msg : HaloMsg) : Statement (.haloMessageReceive src v good msg) := fun _ _ h => nomatch h

theorem haloRetransmit (dst : Nat) (v : Nat) : Statement (.haloRetransmit dst v) := fun _ _ h => nomatch h

theorem stationDown (stn : Nat) : Statement (.stationDown stn) := fun _ _ h => nomatch h

theorem ptpEventMessage (m : PtpMsg) : Statement (.ptpEventMessage m) := fun _ _ h => nomatch h

theorem timeInputLoss (pps : Bool) : Statement (.timeInputLoss pps) := fun _ _ h => nomatch h

theorem hostSnoop (line : Nat) : Statement (.hostSnoop line) := fun _ _ h => nomatch h

theorem hostMemoryAccess (pa : Nat) (op : HostOp) : Statement (.hostMemoryAccess pa op) := fun _ _ h => nomatch h

theorem hostBarAccess (bar : Nat) (off : Nat) (op : HostOp) : Statement (.hostBarAccess bar off op) := fun _ _ h => nomatch h

theorem firmwareReload : Statement .firmwareReload := fun _ _ h => nomatch h

theorem firmwareFault : Statement .firmwareFault := fun _ _ h => nomatch h

theorem evictionNotice (cache : Nat) (line : Nat) (dirty : Bool) : Statement (.evictionNotice cache line dirty) := fun _ _ h => nomatch h

theorem coherenceRequest (cache : Nat) (line : Nat) (req : CohReq) : Statement (.coherenceRequest cache line req) := fun _ _ h => nomatch h

theorem homeProbe (cache : Nat) (line : Nat) (inval : Bool) : Statement (.homeProbe cache line inval) := fun _ _ h => nomatch h

theorem directoryRecall (region : Nat) : Statement (.directoryRecall region) := fun _ _ h => nomatch h

theorem regionMerge (base : Nat) (size : Nat) : Statement (.regionMerge base size) := fun _ _ h => nomatch h

theorem dieReset (die : Nat) : Statement (.dieReset die) := fun _ _ h => nomatch h

theorem debugRightRevocation (ctx : Nat) : Statement (.debugRightRevocation ctx) := fun _ _ h => nomatch h

theorem shadowSample (who : Agent) (v : Dword) : Statement (.shadowSample who v) := fun _ _ h => nomatch h

theorem shadowSampleDone : Statement .shadowSampleDone := fun _ _ h => nomatch h

theorem fqBufferPost : Statement .fqBufferPost := fun _ _ h => nomatch h

theorem fqheadWrite (who : Agent) (v : Dword) : Statement (.fqheadWrite who v) := fun _ _ h => nomatch h

theorem crtabWrite (who : Agent) (v : Dword) : Statement (.crtabWrite who v) := fun _ _ h => nomatch h

theorem factbWrite (who : Agent) (v : Dword) : Statement (.factbWrite who v) := fun _ _ h => nomatch h

theorem cstoreWrite (who : Agent) (core : Nat) (v : Dword) : Statement (.cstoreWrite who core v) := fun _ _ h => nomatch h

theorem cresvWrite (who : Agent) (core : Nat) (v : Dword) : Statement (.cresvWrite who core v) := fun _ _ h => nomatch h

theorem devicePartitionWrite (who : Agent) (i : Nat) (v : Dword) : Statement (.devicePartitionWrite who i v) := fun _ _ h => nomatch h

theorem lqcfgWrite (who : Agent) (q : Nat) (v : Dword) : Statement (.lqcfgWrite who q v) := fun _ _ h => nomatch h

theorem journalControlWrite (who : Agent) (i : Nat) (v : Dword) : Statement (.journalControlWrite who i v) := fun _ _ h => nomatch h

theorem errorLogControlWrite (who : Agent) (i : Nat) (v : Dword) : Statement (.errorLogControlWrite who i v) := fun _ _ h => nomatch h

theorem overflowConfigWrite (who : Agent) (i : Nat) (v : Dword) : Statement (.overflowConfigWrite who i v) := fun _ _ h => nomatch h

theorem tsrcWrite (who : Agent) (v : Dword) : Statement (.tsrcWrite who v) := fun _ _ h => nomatch h

theorem profileConfigWrite (who : Agent) (core : Nat) (i : Nat) (v : Dword) : Statement (.profileConfigWrite who core i v) := fun _ _ h => nomatch h

theorem registerWrite (who : Agent) (r : RegId) (v : Dword) : Statement (.registerWrite who r v) := fun _ _ h => nomatch h

theorem rcRegisterRead (who : Agent) (r : RegId) : Statement (.rcRegisterRead who r) := fun _ _ h => nomatch h

theorem powerOnReset : Statement .powerOnReset := fun _ _ h => nomatch h

theorem firmwareStageDone : Statement .firmwareStageDone := fun _ _ h => nomatch h

theorem warmingDone (cold : BitVec 8) : Statement (.warmingDone cold) := fun _ _ h => nomatch h

theorem memoryTrainingDone : Statement .memoryTrainingDone := fun _ _ h => nomatch h

theorem linksDone : Statement .linksDone := fun _ _ h => nomatch h

theorem channelRetrain (stack : Nat) (ch : Nat) : Statement (.channelRetrain stack ch) := fun _ _ h => nomatch h

theorem channelRetire (stack : Nat) (ch : Nat) : Statement (.channelRetire stack ch) := fun _ _ h => nomatch h

theorem marginStretch (core : Nat) : Statement (.marginStretch core) := fun _ _ h => nomatch h

theorem governorAdjust (mhz : Nat) (mv : Nat) : Statement (.governorAdjust mhz mv) := fun _ _ h => nomatch h

theorem emergencyStop : Statement .emergencyStop := fun _ _ h => nomatch h

theorem errorDomainClose (part : Nat) : Statement (.errorDomainClose part) := fun _ _ h => nomatch h

theorem haloAcknowledgement (src : Nat) (v : Nat) : Statement (.haloAcknowledgement src v) := fun _ _ h => nomatch h

theorem channelRetrainingDone (stack : Nat) (passed : Bool) : Statement (.channelRetrainingDone stack passed) := fun _ _ h => nomatch h

theorem ppsInputPulse (second : Nat) : Statement (.ppsInputPulse second) := fun _ _ h => nomatch h

theorem stationRestored (stn : Nat) : Statement (.stationRestored stn) := fun _ _ h => nomatch h

end Sys2Proof.Laws.RoundTrip
end

