-- ==== Sys2Proof/Laws/Rows.lean ====
section
/-! SUPPORT. What the shared operations do where a form's row is ready: transfers, results for a scalar, watchers, privileged
forms, packets and routines. Each says the whole outcome once, so that no operation need be unfolded for a form that uses it. -/
namespace Sys2Proof.Claims
open Sys2Proof.Machine
set_option Elab.async false

/-! ### Forms -/

/-- A form that issues an effect completes where the effect is the row's. -/
theorem Ready.exec_eq {r : Row} {i : Instr} {s : State} {cx : Cx} {eff : State → Cx → State × List Hold × Go}
    (hd : r.Ready i s cx) (hx : exec i s = s.issue (legal i) r.h (r.uses s) eff)
    (he : ∀ t, r.ok t cx = true → eff t cx = r.res t cx ∧ (r.res t cx).2.2 ≠ .stall) (hp : ∀ t, r.post cx t = t) :
    exec i s = .next (r.result s cx) := by
  obtain ⟨hc, hs, ho⟩ := hd
  obtain ⟨sid, idx, f, act, src⟩ := cx
  cases hs
  obtain ⟨h1, h2⟩ := he _ ho
  rw [hx, issue_clear hc h1 h2]
  unfold Row.result State.after
  rw [hp]

/-- A form that holds no lane. -/
theorem plain_eq {h : Hdr} {us : List Use} {f : State → Cx → State} {i : Instr} {s : State} {cx : Cx}
    (hd : (plain h us f).Ready i s cx) (hx : exec i s = s.issue (legal i) h us (onward f)) :
    exec i s = .next ((plain h us f).result s cx) :=
  Ready.exec_eq hd hx (fun _ _ => ⟨rfl, by simp [plain, onward]⟩) (fun _ => rfl)

theorem plainIf_eq {h : Hdr} {us : List Use} {ok : State → Cx → Bool} {f : State → Cx → State} {i : Instr} {s : State} {cx : Cx}
    {eff : State → Cx → State × List Hold × Go} (hd : (plainIf h us ok f).Ready i s cx)
    (hx : exec i s = s.issue (legal i) h us eff) (he : ∀ t, ok t cx = true → eff t cx = (f t cx, [], .next)) :
    exec i s = .next ((plainIf h us ok f).result s cx) :=
  Ready.exec_eq hd hx (fun t ht => ⟨he t ht, by simp [plainIf, onward]⟩) (fun _ => rfl)

/-! ### Transfers (R231) -/

/-- A transfer whose sets pass their checks holds no lane. -/
theorem transfer_eq {s : State} {cx : Cx} {c : TargetCheck} {ts : List (Lanes × Dword)} {rcv : Option Dword}
    (h : reaches s cx c ts = true) : State.transfer s cx c ts rcv [] = goes s cx c ts rcv := by
  unfold reaches at h
  simp only [List.isEmpty_iff] at h
  simp [State.transfer, goes, h]

/-- A call likewise, with its link pairs written. -/
theorem callTo_eq {s : State} {cx : Cx} {d : BitVec 8} {c : TargetCheck} {ts : List (Lanes × Dword)} (h : reaches s cx c ts = true) :
    State.callTo s cx d c ts [] = calls s cx d c ts := by
  unfold reaches at h
  simp only [List.isEmpty_iff] at h
  simp [State.callTo, calls, h]

/-- A transfer of the whole fragment. -/
theorem uniform_eq {s : State} {cx : Cx} {b : CtlBody} {c : Bool} (h : wholeOk s cx b c = true) :
    State.uniform s cx c (dispPc cx.pc b) = whole s cx b c := by
  unfold wholeOk at h
  unfold State.uniform whole
  cases c
  · rfl
  · simp only [Bool.not_true, Bool.false_or] at h
    simp only [if_true]
    exact transfer_eq h

/-! ### A result for a scalar (R203, R256) -/

/-- A value that may land holds no lane. -/
theorem putScalarDest_eq {d : BitVec 8} {s : State} {cx : Cx} {v : ReplyVal} (h : landable d v = true) :
    s.putScalarDest cx d v = ((s.putScalarDest cx d v).1, []) := by
  unfold State.putScalarDest
  unfold landable at h
  split
  · next he => cases v <;> simp [he, isWords] at h ⊢
  · rfl

/-- 64 bits may always land. -/
@[simp] theorem landable_res64 {d : BitVec 8} {v : Dword} : landable d (res64 v) = true := by simp [landable, isWords, res64]

/-- Results of groups 0x1 to 0x6 in registers, and in a predicate. -/
theorem AluForm.exec_eq {a : AluForm} {i : Instr} {s : State} {cx : Cx} (hd : a.row.Ready i s cx)
    (hx : exec i s = s.alu (legal i) a.h a.b a.r a.wide a.f) : exec i s = .next (a.row.result s cx) := by
  refine Ready.exec_eq hd hx (fun t ht => ⟨?_, by simp [AluForm.row, leaves, onward]⟩) (fun _ => rfl)
  simp only [AluForm.row, leaves, onward] at ht ⊢
  unfold aluEff
  by_cases hs : isScalar a.h = true
  · simp only [hs, if_true, Bool.not_true, Bool.false_or] at ht ⊢
    rw [putScalarDest_eq ht]
  · simp only [hs]
    rfl

theorem PredForm.exec_eq {a : PredForm} {i : Instr} {s : State} {cx : Cx} (hd : a.row.Ready i s cx)
    (hx : exec i s = s.aluPred (legal i) a.h a.b a.r a.f) : exec i s = .next (a.row.result s cx) :=
  Ready.exec_eq hd hx (fun _ _ => ⟨rfl, by simp [PredForm.row, leaves, onward]⟩) (fun _ => rfl)

/-! ### Forms that enter the matrix queue (R317) -/

theorem queuedIf_eq {h : Hdr} {us : List Use} {ok : State → Cx → Bool} {f : State → Cx → State} {i : Instr} {s : State} {cx : Cx}
    {eff : State → Cx → State × List Hold × Go} (hd : (queuedIf h us ok f).Ready i s cx)
    (hx : exec i s = s.issueMat (legal i) h us eff) (he : ∀ t, ok t cx = true → eff t cx = (f t cx, [], .next)) :
    exec i s = .next ((queuedIf h us ok f).result s cx) :=
  plainIf_eq hd hx fun t ht => by
    simp only [Bool.and_eq_true, Bool.not_eq_true'] at ht
    simp only [ht.1, Bool.false_eq_true, if_false, he t ht.2]

/-! ### Memory forms -/

/-- An instruction that accesses memory, where nothing before it is still to be performed. -/
theorem accessIf_eq {h : Hdr} {b : MemBody} {us : List Use} {lanes : Cx → List Nat} {len : Nat} {rel once : Bool}
    {ok : State → Cx → Bool} {f : State → Cx → State} {i : Instr} {s : State} {cx : Cx} {eff : State → Cx → State × List Hold × Go}
    (hd : (accessIf h b us lanes len rel ok f).Ready i s cx) (hx : exec i s = s.issueMem (legal i) h b us once len rel eff)
    (hl : lanes cx = if once then [cx.once] else lanesOf cx.act) (he : ∀ t, ok t cx = true → eff t cx = (f t cx, [], .next)) :
    exec i s = .next ((accessIf h b us lanes len rel ok f).result s cx) :=
  plainIf_eq hd hx fun t ht => by
    simp only [Bool.and_eq_true, Bool.not_eq_true', hl] at ht
    rw [if_neg (by rw [ht.1]; simp), he t ht.2]

/-- A store of which no lane is trapped. -/
theorem StoreForm.exec_eq (a : StoreForm) {i : Instr} {s : State} {cx : Cx} {once : Bool} (hd : a.row.Ready i s cx)
    (hx : exec i s = s.issueMem (legal i) a.h a.b a.uses once a.len (isRel a.b) fun s cx =>
      let (s, hs) := s.storeLanes cx a.b (if once then [cx.once] else lanesOf cx.act) a.size a.addr (a.data cx)
      (s, hs, .next))
    (hl : a.lanes cx = if once then [cx.once] else lanesOf cx.act) : exec i s = .next (a.row.result s cx) :=
  accessIf_eq hd hx hl fun t ht => by
    have h : (t.storeLanes cx a.b (a.lanes cx) a.size a.addr (a.data cx)).2 = [] := List.isEmpty_iff.mp ht
    rw [hl] at h
    simp only [h, StoreForm.run, hl]

/-- Every lane of an instruction of group 0xA has its outcome, in the order of the lanes. -/
theorem atomOps_lanes (s : State) (cx : Cx) (h : Hdr) (b : MemBody) (f : AtomForm) :
    (s.atomOps cx h b f).2.map (·.1) = cx.atomLanes f := by
  unfold State.atomOps
  dsimp only
  suffices H : ∀ (ls : List Nat) (acc : State × List (Nat × LaneOp)),
      (ls.foldl (fun (acc : State × List (Nat × LaneOp)) l =>
        let (t, o) := acc.1.atomLane cx (s.strand cx.sid) h b f (cx.atomDups b f) l
        (t, acc.2 ++ [(l, o)])) acc).2.map (·.1) = acc.2.map (·.1) ++ ls by
    simpa using H (cx.atomLanes f) (s, [])
  intro ls
  induction ls with
  | nil => simp
  | cons l ls ih =>
    intro acc
    rw [List.foldl_cons, ih]
    simp

/-- Where no lane is stopped or trapped, every lane sends. -/
theorem sent_all : ∀ l : List (Nat × LaneOp), stoppedLanes l = [] → trappedLanes l = [] →
    sentLanes l = l.map (·.1)
  | [], _, _ => rfl
  | (n, .send p) :: l, hs, ht => by
    simpa [sentLanes] using sent_all l (by simpa [stoppedLanes] using hs) (by simpa [trappedLanes] using ht)
  | (n, .stop ..) :: l, hs, _ => by simp [stoppedLanes] at hs
  | (n, .trap ..) :: l, _, ht => by simp [trappedLanes] at ht

/-- Where no lane is stopped and the homes have room, the packets leave. -/
theorem atomRow_eq {h : Hdr} {b : MemBody} {f : AtomForm} {i : Instr} {s : State} {cx : Cx} (hd : (atomRow (h, b, f)).Ready i s cx)
    (hx : exec i s = s.issue (legal i) h (atomUses h b f) (atomEff h b f)) : exec i s = .next ((atomRow (h, b, f)).result s cx) := by
  refine plainIf_eq hd hx fun t ht => ?_
  simp only [Bool.and_eq_true, Bool.not_eq_true', List.isEmpty_iff] at ht
  obtain ⟨⟨⟨h1, h2⟩, h3⟩, h4⟩ := ht
  unfold atomEff
  dsimp only
  rw [if_neg (by rw [h1, h2]; simp), h3]
  have none_stopped : ∀ (t : State) d l, t.stopLanes cx d l [] = (t, []) := by
    intro t d l
    unfold State.stopLanes
    cases l <;> rfl
  rw [none_stopped]
  simp only [h4, sent_all _ h3 h4, atomOps_lanes, List.append_nil]

/-! ### Watchers (R191, R346, R347) -/

/-- A word that lands ends the form. -/
theorem syncStop_eq {d : BitVec 8} {s : State} {cx : Cx} {ws : List Word} (h : landable d (.words ws) = true) :
    s.syncStop cx d false (.words ws) = ((s.putScalarDest cx d (.words ws)).1, [], .next) := by
  unfold State.syncStop
  rw [show s.settle1 cx.sid cx.pc (some cx.once) (.words ws) = (s, .words ws) from rfl]
  dsimp only
  rw [putScalarDest_eq (s := s) (cx := cx) h]

/-- A watcher that can stand. -/
theorem watch_eq {s : State} {cx : Cx} {d : BitVec 8} {m : Monitor} (h : watchOk s d m = true) :
    s.watch cx d m = watches s cx d m := by
  unfold watchOk at h
  unfold State.watch watches
  dsimp only at h ⊢
  generalize State.watchRead s m = t at h ⊢
  generalize State.watched t m = q at h ⊢
  cases q with
  | error v => simp at h
  | ok w =>
    dsimp only at h ⊢
    by_cases hw : watchHolds m.watch w = true
    · simp only [hw, if_true] at h ⊢
      obtain ⟨ws, hws⟩ : ∃ ws, watchResult m.watch w = .words ws := by
        unfold watchResult
        split <;> exact ⟨_, rfl⟩
      rw [hws] at h ⊢
      exact syncStop_eq h
    · simp only [if_neg hw] at h ⊢
      have hm : ¬((m.held && !t.monitorFree m.place.loc) = true) := by
        revert h
        cases m.held <;> cases t.monitorFree m.place.loc <;> simp
      simp only [if_neg hm]

theorem watches_go {s : State} {cx : Cx} {d : BitVec 8} {m : Monitor} : (watches s cx d m).2.2 ≠ .stall := by
  unfold watches
  repeat' first | split | simp

/-- A wait on a word in memory. -/
theorem waitWord_eq {s : State} {cx : Cx} {d : BitVec 8} {a : Dword} {n : Nat} {w : Watch}
    (h : (match wordWatch s cx d a n w with | some r => watchOk r.1 d r.2 | none => false) = true) :
    s.waitWord cx d a n w = match wordWatch s cx d a n w with | some r => watches r.1 cx d r.2 | none => (s, [], .next) := by
  unfold wordWatch at h ⊢
  unfold State.waitWord
  by_cases hz : (a.toNat % n != 0) = true
  · simp [hz] at h
  · simp only [if_neg hz] at h ⊢
    generalize State.translate s (s.whoOf cx.sid) .read a = q at h ⊢
    obtain ⟨t, r⟩ := q
    cases r with
    | error c => simp at h
    | ok p => exact watch_eq h

theorem watchRow_eq {i : Instr} {h : Hdr} {us : List Use} {w : State → Cx → Option (State × Monitor)} {s : State} {cx : Cx}
    {eff : State → Cx → State × List Hold × Go} (hd : (watchRow h us w).Ready i s cx) (hx : exec i s = s.issue (legal i) h us eff)
    (he : ∀ t, (match w t cx with | some r => watchOk r.1 h.dest r.2 | none => false) = true →
      eff t cx = match w t cx with | some r => watches r.1 cx h.dest r.2 | none => (t, [], .next)) :
    exec i s = .next ((watchRow h us w).result s cx) := by
  refine Ready.exec_eq hd hx (fun t ht => ⟨he t ht, ?_⟩) (fun _ => rfl)
  dsimp only [watchRow] at ht ⊢
  split at ht
  · exact watches_go
  · simp at ht

/-! ### Privileged forms (R374) -/

/-- At system level a privileged form completes where its own condition holds; `lg` is its static check with what it asks of
its register number. -/
theorem sysRow_eq {h : Hdr} {us : List Use} {ok : State → Cx → Bool} {f : State → Cx → State} {i : Instr} {s : State} {cx : Cx}
    {eff : State → Cx → State × List Hold × Go} {lg : Bool} (hd : (sysRow h us ok f).Ready i s cx)
    (hx : exec i s = s.priv lg h us eff)
    (hl : legal i = true → ok (shown (s.used cx h us) cx) cx = true → lg = true)
    (he : ∀ t, ok t cx = true → eff t cx = (f t cx, [], .next)) : exec i s = .next ((sysRow h us ok f).result s cx) := by
  have hc : Clear s (legal i) h us cx.sid cx.idx cx.frag cx.act := hd.clear
  have hs := hd.source
  have ho : (cx.src.sysLevel cx.sid && (s.used cx h us).allDone cx.sid cx.frag.mask && ok (shown (s.used cx h us) cx) cx) = true := hd.ok
  simp only [hs, Bool.and_eq_true] at ho
  have hc' : Clear s lg h us cx.sid cx.idx cx.frag cx.act := { hc with allowed := hl hc.allowed ho.2 }
  rw [hx]
  unfold State.priv
  rw [hc.issuing]
  simp only [ho.1.1, Bool.not_true, Bool.false_and, Bool.false_eq_true, if_false]
  obtain ⟨sid, idx, fr, act, src⟩ := cx
  cases hs
  refine issue_after hc' (r := (f (shown (src.used ⟨sid, idx, fr, act, src⟩ h us) ⟨sid, idx, fr, act, src⟩) ⟨sid, idx, fr, act, src⟩, [], .next))
    ?_ (by simp)
  have hall := ho.1.2
  have hok := he _ ho.2
  simp only [State.used] at hall hok
  simp only [hall, Bool.not_true, Bool.false_eq_true, if_false, State.used]
  exact hok

theorem sysDest_eq {d : BitVec 8} {s : State} {cx : Cx} {v : ReplyVal} (h : landable d v = true) :
    s.sysDest cx d v = ((s.putScalarDest cx d v).1, [], .next) := by
  unfold State.sysDest
  rw [putScalarDest_eq h]

theorem sysNum_eq {d : BitVec 8} {s : State} {cx : Cx} {n : Nat} : s.sysNum cx d n = (numTo d cx (s, n), [], .next) := by
  unfold State.sysNum
  rw [sysDest_eq landable_res64]
  rfl

/-- An operation on a context that the issuer may act on. -/
theorem onCtx_eq {t : State} {cx : Cx} {b : SysBody} {may : Nat → Bool} {d : BitVec 8} {f : State → Nat → State × List Hold × Go}
    (h : onCtxOk cx b may = true) : t.onCtx cx b d may f = f t (ctxOf (cx.sysSrc b.a).v) := by
  unfold onCtxOk at h
  simp only [Bool.and_eq_true, Option.isNone_iff_eq_none] at h
  unfold State.onCtx
  simp [h]

/-! ### Routines (R185 to R188) -/

/-- A routine that its home admits, on words that carry no token, with a result that is valid. -/
theorem rmw_eq {p : Packet} {low ext : Bool} {n al : Nat} {f : List Word → Option (List Word)}
    {g : List Word → Except (BitVec 8) (List Word)} {s : State} (hd : (rmwRow p low ext n al f).ok s = true)
    (hg : ∀ ws r, f ws = some r → g ws = .ok r) : s.rmw p low ext n al g = .next ((rmwRow p low ext n al f).res s) := by
  unfold rmwRow at hd ⊢
  unfold State.rmw
  dsimp only [atHome] at hd ⊢
  simp only [Bool.and_eq_true, Option.isNone_iff_eq_none] at hd
  obtain ⟨h1, h2⟩ := hd
  simp only [h1]
  rcases hq : ((s.takePacket p).homeLine p).packetWords p p.place.loc n with v | ws
  · rw [hq] at h2
    simp at h2
  · rw [hq] at h2
    dsimp only at h2 ⊢
    obtain ⟨r, hr⟩ := Option.isSome_iff_exists.mp h2
    rw [hg ws r hr, hr]
    rfl

theorem rmwInt_eq {p : Packet} {f : Dword → Dword} {s : State} (hd : (intRow p f).ok s = true) :
    s.rmwInt p f = .next ((intRow p f).res s) := by
  unfold intRow at hd ⊢
  unfold State.rmwInt
  split
  · next h =>
    rw [if_pos h] at hd
    exact rmw_eq hd fun ws r h => by cases h; rfl
  · next h =>
    rw [if_neg h] at hd
    exact rmw_eq hd fun ws r h => by cases h; rfl

end Sys2Proof.Claims
end

