-- ==== Sys2Proof/Tests/Base.lean ====
section
/-! SUPPORT. A small state for the tests, in which one fragment of one lane is issuing, and what it takes for a form to be ready
in a state as a computation. -/
namespace Sys2Proof.Tests
open Sys2Proof.Machine Sys2Proof.Claims

/-- A strand with a doubleword in a vector pair of lane 0. -/
def withPair (n : Nat) (d : Dword) (st : Strand) : Strand :=
  (st.setWord (st.vecIx n 0) ⟨loW d, false, true, false⟩).setWord (st.vecIx (n + 1) 0) ⟨hiW d, false, true, false⟩

/-- A strand with a doubleword in a scalar. -/
def withScalar (n : Nat) (d : Dword) (st : Strand) : Strand := st.setDw (st.scIx n) d

/-- v4:v5 and s4 hold 0x110000, v6:v7 and s6 0x100000 (the code), s8 a branch table, s10 one, s12 a barrier object, and p1 is true. -/
def withRegs (st : Strand) : Strand :=
  ([(4, 0x110000), (6, 0x100000), (8, 0x120000), (10, 1), (12, 0x118000)].foldl (fun x e => withScalar e.1 e.2 x)
    (withPair 6 0x100000 (withPair 4 0x110000 st))).setWord (st.predIx 1 0) ⟨1, false, true, false⟩

/-- A system context that manages the device, and one that may do neither. -/
def sysCtx : CtxIn := ⟨1, mk64 [(63, 1), (62, 1), (61, 1), (0, 1)] :: 0x200000 :: List.replicate 14 0⟩
def userCtx : CtxIn := ⟨1, mk64 [(63, 1), (0, 1)] :: 0x200000 :: List.replicate 14 0⟩

/-- A fragment of lane 0 at 0x100000 in a strand of that context. -/
def base : State :=
  let s := State.reset.withFetchWord 96 0x3C010000000010020000F00B
  let s := ((s.putDwords 0x120000 [0x3C0100000001, 0x100000]).putDwords 0x100040 [1, 0x100000]).putDwords 0x118000 [0x1000000000000, 0]
  let s := s.modStrand 0 fun st => withRegs { st with splits := [(0, .frag (Frag.fresh 0 1 0x100000 none))] }
  let s := s.modBlock 0 fun b => { b with spadBytes := 0x10000, tiles := [(3, ⟨.ready, mk64 [(32, 16)], false⟩)] }
  { s with cur := some (0, 0), ctxs := [sysCtx] }

/-- The same with a region open. -/
def opened : State := base.modStrand 0 fun st => st.setRstate 0 1 1

/-- The same at user level. -/
def user : State := { base with ctxs := [userCtx] }

/-- What an issue of the form is about. -/
def issueOf (r : Row) (s : State) : Cx :=
  match s.issuer with
  | some (sid, idx, f) => ⟨sid, idx, f, ((s.strand sid).guard s.tick r.h f.mask).1, s⟩
  | none => ⟨0, 0, default, 0, s⟩

/-- A form is ready, as a computation. -/
def readyB (i : Instr) (r : Row) (s : State) : Bool :=
  let cx := issueOf r s
  let st := s.strand cx.sid
  let us := r.uses s
  decide (s.issuer = some (cx.sid, cx.idx, cx.frag)) && !st.budgetCorrupt
    && st.available r.h us cx.frag.mask && st.flips.isEmpty && legal i
    && decide (st.guard s.tick r.h cx.frag.mask = (cx.act, [])) && decide (cx.act ≠ 0)
    && !(us.any fun u => u.over st) && !(us.any fun u => u.protected st)
    && (predSources us).all (fun u => decide ((st.readPred s.tick u.n u.quarters cx.act).2 = []))
    && r.ok (s.spent cx.sid r.h us cx.frag.mask cx.act cx.act) cx

theorem issueOf_src (r : Row) (s : State) : (issueOf r s).src = s := by
  unfold issueOf
  split <;> rfl

/-- The computation is sound. -/
theorem ready_of_readyB {i : Instr} {r : Row} {s : State} (h : readyB i r s = true) : r.Ready i s (issueOf r s) := by
  simp only [readyB, Bool.and_eq_true, decide_eq_true_eq, Bool.not_eq_true', List.all_eq_true] at h
  obtain ⟨⟨⟨⟨⟨⟨⟨⟨⟨⟨h1, h2⟩, hb⟩, hc⟩, h3⟩, h4⟩, h5⟩, h6⟩, h7⟩, h8⟩, h9⟩ := h
  exact ⟨⟨h1, h2, hb, List.isEmpty_iff.mp hc, h3, h4, h5, h6, h7, h8⟩, issueOf_src r s, h9⟩

/-- The three words of an instruction. -/
abbrev Words := Word × Word × Word
def Words.instr (w : Words) : Instr := decodeWords w.1 w.2.1 w.2.2

/-- A form of a table is ready in a state. -/
def ReadyAt (rows : Instr → Option Row) (s : State) (w : Words) : Prop :=
  ∃ r cx, rows w.instr = some r ∧ r.Ready w.instr s cx

def readyAtB (rows : Instr → Option Row) (s : State) (w : Words) : Bool :=
  match rows w.instr with
  | some r => readyB w.instr r s
  | none => false

/-- A list of words checked is a list of forms that are ready. -/
theorem ready_all {rows : Instr → Option Row} {s : State} {ws : List Words} (h : ws.all (readyAtB rows s) = true) :
    ∀ w ∈ ws, ReadyAt rows s w := by
  intro w hw
  have hb := List.all_eq_true.mp h w hw
  unfold readyAtB at hb
  split at hb
  · next r hr => exact ⟨r, _, hr, ready_of_readyB hb⟩
  · cases hb

/-- An event of a table is due in a state. -/
def dueB (rows : Instr → Option EvRow) (x : Instr × State) : Bool :=
  match rows x.1 with
  | some r => r.ok x.2
  | none => false

theorem due_all {rows : Instr → Option EvRow} {xs : List (Instr × State)} (h : xs.all (dueB rows) = true) :
    ∀ x ∈ xs, ∃ r, rows x.1 = some r ∧ r.ok x.2 = true := by
  intro x hx
  have hb := List.all_eq_true.mp h x hx
  unfold dueB at hb
  split at hb
  · next r hr => exact ⟨r, hr, hb⟩
  · cases hb

end Sys2Proof.Tests
end

