-- ==== Sys2Proof/Tests/Events.lean ====
section
/-! SUPPORT. For every event of the opcode table a state in which it is due or served: no hypothesis of the statements on events
is empty for any of them. -/
namespace Sys2Proof.Tests
open Sys2Proof.Machine Sys2Proof.Claims
set_option Elab.async false

/-! ### Hints, illegal instructions and routines -/

/-- A packet of the device's own to the zeros at 0x118100. -/
def packet (rtn : Nat) (wide ext : Bool) (op0 : Dword) : Packet :=
  ⟨.device 1, BitVec.ofNat 8 rtn, 0x118100, ⟨.mem 0x118100, 0, false⟩, op0, 0, 0, wide, false, false, false, ext, 0, [0, 0], 1, none⟩

/-- The routine 0x80 is installed, at the code of context 1. -/
def withRoutine : State :=
  { base with crCache := [(0x80, 0x100000, mk64 [(63, 1), (61, 1), (48, 1)])] }.setRegF rCRTAB 0 1 1

def arrival : Arrival := ⟨0, 0, 0, 0x100000, 0, 5, 0x118000, ⟨.mem 0x118000, 0, false⟩, 0, 0, 1⟩
def reply : Reply := ⟨0, 0, 0, 0x100000, [0], 0, .words [7], 0x118100, 1, .mem 0x118100⟩

def rawEvents : List (Instr × State) := [(.hint ⟨0x3C0, 0, 0⟩, base), (.illegalInstruction ⟨0x3FF, 0, 0⟩, base)]
theorem due_raw : ∀ x ∈ rawEvents, ∃ r, rawRows x.1 = some r ∧ r.ok x.2 = true := due_all (by decide +kernel)

noncomputable def routineEvents : List (Instr × State) :=
  ([(Instr.addRoutine, 0x01), (.signedMinRoutine, 0x03), (.signedMaxRoutine, 0x05), (.unsignedMinRoutine, 0x07),
    (.unsignedMaxRoutine, 0x09), (.andRoutine, 0x0B), (.orRoutine, 0x0D), (.xorRoutine, 0x0F), (.swapRoutine, 0x11),
    (.casRoutine, 0x13), (.f32AddRoutine, 0x14), (.f16PairAddRoutine, 0x15), (.b16PairAddRoutine, 0x16),
    (.twoWordCasRoutine, 0x18)].map fun x => (x.1 (packet x.2 (rtnWide x.2) false 0), base)) ++
  [(.fourWordCasRoutine (packet 0x19 (rtnWide 0x19) true 0), base), (.listEnqueueRoutine (packet 0x1A (rtnWide 0x1A) false 0), base),
   (.pointerChaseRoutine (packet 0x1B (rtnWide 0x1B) false 16), base),
   (.contributorReductionRoutine (packet 0x1C (rtnWide 0x1C) false 0), base), (.installedRoutine (packet 0x80 true false 0), withRoutine), (.barrierObjectArrive arrival, base),
   (.collectiveCombine 0 ⟨.mem 0x118100, 0, false⟩ 4 ⟨1, false⟩, base), (.replyLand reply, base)]
theorem due_routine : ∀ x ∈ routineEvents, ∃ r, routineRows x.1 = some r ∧ r.ok x.2 = true := due_all (by decide +kernel)

/-! ### The fabric -/

/-- A request of this device, sent at time 0. -/
def request : OutReq := ⟨7, false, true, 1, 0, .packet (packet 0x80 true false 0), 0, 0, 0⟩
def fabReq (k : FabKind) : FabReq := ⟨1, 0, 0, 1, 0x118100, k⟩
def tileOp : TileOp := ⟨0, 0, 0, 3, true, 0x100000, 0x118100, 0, mk64 [(32, 16)], [], []⟩

/-- So long after the request was sent. -/
def sentBefore (wait : Nat) : State := { base with outReqs := [request], ptime := wait }

noncomputable def fabricEvents : List (Instr × State) :=
  [(.fabricStoreRequest (fabReq (.store 15 [⟨1, false⟩])), base), (.tileTransaction (fabReq (.tileLoad 1 128 128)), base),
   (.ualinkStandardRequest (fabReq (.read 1)), base), (.fabricAcknowledge 1 0 ⟨0, 0⟩, base),
   (.fabricRetransmit 7, sentBefore resendWait), (.fabricRequestTimeout 7, sentBefore requestWait), (.tileLockTimeout tileOp, base),
   (.stationDown 0, base), (.stationDown 15, base), (.stationRestored 15, base)]
theorem due_fabric : ∀ x ∈ fabricEvents, ∃ r, fabricRows x.1 = some r ∧ r.ok x.2 = true := due_all (by decide +kernel)

/-! ### Strands, engines and units -/

/-- The fragment of `base` in another state. -/
def fragIs (f : Frag → Frag) (s : State) : State :=
  s.modStrand 0 fun st => { st with splits := [(0, .frag (f (Frag.fresh 0 1 0x100000 none)))] }
def waits (w : Wait) : State := fragIs (fun f => { f with wait := w }) base
def noFrags : State := base.modStrand 0 fun st => { st with splits := [] }
def command : Cmd := ⟨.fill, 0, 0, 0x100000, 0, 0x118100, 0, false, none, 0, 0, none⟩
def pass : MatPass := ⟨0, 0x100000, 0, 1, 0, [], none, true, [], []⟩
def watcher (w : Watch) : Monitor := ⟨0, 0, true, 0x118100, ⟨.mem 0x118100, 0, false⟩, w, 10⟩
/-- A park whose record the handler has served, and a trap that is held. -/
def parked : State := (waits .commitPark).modStrand 0 fun st => (st.setRstate 2 1 1).setRecState (st.rstate 8 8) 3
def heldTrap (h : Dword) : State :=
  (noFrags.modStrand 0 fun st => { st.setCtl ctlHANDLER h with ring := 1 }).modStrand 0 fun st =>
    st.setCtl ctlTSTAT (mk64 [(0, 1), (24, 0x4E)])
def slotless (s : State) : State := s.modStrand 0 fun st => { st with life := .slotless, slot := none }
/-- Strands that wait on monitors hold every slot of the core, while another one's wait is over. -/
def wanted : State :=
  let st := (waits .monitor).strand 0
  { waits .monitor with strands :=
      ((List.range 64).map fun i => (i, { st with slot := some (i / 16, i % 16) }))
        ++ [(64, { base.strand 0 with life := .slotless, slot := none })] }

noncomputable def unitEvents : List (Instr × State) :=
  [(.engineComplete command, base), (.matrixPassComplete pass, { base with matQ := [pass] }), (.tileFillComplete tileOp, base),
   (.tileDrainComplete tileOp, base),
   (.monitorMatch (watcher (.cmp 0 false true 0)), { waits .monitor with monitors := [watcher (.cmp 0 false true 0)] }),
   (.deadlineFire 0, base), (.commitParkEnd 0, parked), (.heldTrapTaken 0, heldTrap 0x100000),
   (.fetchTrap 0 0 0x48, fragIs (fun f => { f with pc := 0x40000000 }) base), (.instructionCacheFill 0 1 0x100000, base),
   (.starvationPromote 0 0, fragIs (fun f => { f with count := 64 }) base), (.strandRetire 0, noFrags), (.slotTakeback 0, wanted),
   (.strandReadmit 0, slotless base)]
theorem due_unit : ∀ x ∈ unitEvents, ∃ r, unitRows x.1 = some r ∧ r.ok x.2 = true := due_all (by decide +kernel)

/-! ### Dispatchers -/

/-- The grid of `base` with nothing placed yet, and with its one neighbourhood out and offered to cluster 0. -/
def grid0 : Grid := base.grid 0
def launchRec : LqRec := ⟨0, 1, 0x119000, grid0.rcd, false, 0, false⟩
def waiting : State := { base with
  grids := [(0, { grid0 with next := 0, blocksPlaced := 0 })], pool := [0], nbhds := [], blocks := [], strands := [], cur := none }
def offered : State := { waiting with
  offers := [(0, 0, 0, 0)], nbhds := [(0, ⟨0, 0, 0, 0, 0, [0], true, true, false, 0⟩)]
  blocks := [(0, { base.block 0 with out := true, strands := [], spadBytes := 0 })] }
/-- A packet at the head of queue 5. -/
def posted (kind : Nat) : State :=
  ({ base with queues := [(5, [⟨grid0.rcd.take 12 ++ [mk64 [(60, kind), (48, 1)], 0, 0, 0], true, 0, 0⟩])] }.setRegF (rLQCFG 5) 48 12 1).setRegF
    rJSTAT 0 1 1

noncomputable def dispatchEvents : List (Instr × State) :=
  [(.gridComplete 0, { base with nbhds := [] }), (.launchQueueHandoff 0, { base with lq := [launchRec], clock := handoffCycles }),
   (.overflowMove, { base with ovf := [launchRec] }), (.postWindowWrite 5 true 0 [0], base), (.launchPacketAccept 5, posted 1),
   (.cancelPacket 5, posted 2), (.cancelTermPacket 5, posted 3), (.nbhdOffer 0 0, waiting), (.nbhdPlace 0, offered),
   (.offerTimeout 0, { offered with clock := offerCycles }),
   (.cstoreApply 0, { noFrags with pendStore := [(0, 1)], blocks := [] })]
theorem due_dispatch : ∀ x ∈ dispatchEvents, ∃ r, dispatchRows x.1 = some r ∧ r.ok x.2 = true := due_all (by decide +kernel)

/-! ### Timed actions, gangs and pods -/

/-- Device 1 may send this device messages of gangs, pods and time. -/
def peered : State := { base with facCache := [(1, (0, 2))] }

/-- A table with one record of a kind, due at time 0; it may not overrun. -/
def ttRecord (kind : Nat) : TtRec := ⟨1, [0, mk64 [(0, kind), (36, 1)], 0x119000, 100], 0, false, false, 0⟩
def timed (kind : Nat) : State := { base with ttab := [ttRecord kind] }.setRegF rJSTAT 0 1 1
def gangAct : GangAct := ⟨9, 0, ttRecord 2, [0, 1], []⟩

noncomputable def timedEvents : List (Instr × State) :=
  [(.ttLaunch 0, timed 1), (.ttPreempt 0, timed 2), (.ttResume 0, timed 3),
   (.ttDelayExpiry 0, { base with ttDelay := [(ttRecord 2, 100)] }),
   (.gangBoundaryMarker 9 0 1 15, peered), (.markerTimeout 9 0 1, { base with gangs := [gangAct], ptime := markerWait }),
   (.agreementCheck 9 askBefore, base), (.agreementRequest 9 0 1, base), (.switchPacket 9 0, base),
   (.agreementTimeout 9 0, { base with ptime := switchWait }), (.stragglerReport 9 0 1 5, base)]
theorem due_timed : ∀ x ∈ timedEvents, ∃ r, timedRows x.1 = some r ∧ r.ok x.2 = true := due_all (by decide +kernel)

/-- A launch record for a pod, with its share table; a grid of this zenith in a phase; and a record held for another. -/
def podRecord : List Dword :=
  [0x100000, 0, 6, mk64 [(0, 1), (8, 1), (16, 1), (24, 127), (44, 2)], 2, mk64 [(0, 32), (8, 64), (16, 16)], 0, 0, 0, 0x119000, 0, 0,
    0, 0, 0, 0]
def podReady : State :=
  { base.putDwords 0x119000 [2, mk64 [(0, 0x10000), (32, 0x10001)]] with
    ctxs := [⟨1, sysCtx.desc.take 5 ++ [mk64 [(0, 127), (16, 1)]] ++ sysCtx.desc.drop 6⟩] }
def zenith (phase : Nat) : Zenith := ⟨1, podRecord, [(0, 1), (1, 1)], [], [], phase, 0, false, 0, 0, 0⟩
def zenithAt (phase : Nat) : State := { base with zeniths := [zenith phase] }
def sentHalo : HaloSent := ⟨1, 4, .go 1 6, 0, 0, false⟩

noncomputable def podEvents : List (Instr × State) :=
  [(.podLaunchRecord 1 1 podRecord, podReady), (.accept 1 1 6, zenithAt 0), (.reject 1 1 6, zenithAt 0),
   (.go 1 1 6, { base with podHeld := [⟨1, 1, podRecord, 0, false⟩] }), (.drop 1 1 6, base),
   (.zenithReplyTimeout 1 6, { zenithAt 0 with ptime := replyWait }), (.completionReport 1 1 6 noReport, zenithAt 1),
   (.haloCancel 1 1 6 true, base),
   (.cancelMemberTimeout 1 6 1, { base with zeniths := [{ zenith 1 with cancelled := true }], ptime := cancelWait }),
   (.haloMessageReceive 1 0 true (.go 1 6), base), (.haloRetransmit 1 4, { base with haloOut := [sentHalo], ptime := resendWait }),
   (.haloAcknowledgement 1 4, { base with haloOut := [sentHalo] })]
theorem due_pod : ∀ x ∈ podEvents, ∃ r, podRows x.1 = some r ∧ r.ok x.2 = true := due_all (by decide +kernel)

/-! ### The outside world, coherence, registers and the device -/

def hostUp : State := { base with hostUp := true, memOffered := true }
def timeInputs : State := base.setRegF rTSRC 61 2 3

noncomputable def outsideEvents : List (Instr × State) :=
  [(.ptpEventMessage ⟨1, 5, 10, true⟩, peered), (.ppsInputPulse 1, timeInputs), (.timeInputLoss true, timeInputs),
   (.timeInputLoss false, timeInputs), (.hostSnoop hostLine, hostUp), (.hostMemoryAccess 0 (.read 1), hostUp),
   (.hostMemoryAccess (deviceBytes - 4) (.write [⟨1, false⟩]), hostUp), (.hostBarAccess 0 0 (.read 2), hostUp),
   (.hostBarAccess 2 0x7FFFFFFC (.write [⟨1, false⟩]), hostUp), (.hostBarAccess 4 0 (.read 1), hostUp)]
theorem due_outside : ∀ x ∈ outsideEvents, ∃ r, outsideRows x.1 = some r ∧ r.ok x.2 = true := due_all (by decide +kernel)

noncomputable def coherenceEvents : List (Instr × State) :=
  [(.coherenceRequest 0 8 .modified, base), (.evictionNotice 0 8 true, { base with dir := [⟨8, 0, .m⟩] }), (.homeProbe 0 8 true, base),
   (.directoryRecall 0, base), (.regionMerge 0 512, { base with dirUnits := [(0, 512, 0), (512, 512, 0)], clock := mergeCycles }),
   (.dieReset 0, base), (.dieReset 3, base)]
theorem due_coherence : ∀ x ∈ coherenceEvents, ∃ r, coherenceRows x.1 = some r ∧ r.ok x.2 = true := due_all (by decide +kernel)

noncomputable def registerEvents : List (Instr × State) :=
  [(.shadowSample .host 8, base), (.shadowSampleDone, { base with shPend := some (0, .host, 0) }),
   (.fqBufferPost, { base with fqBuf := [List.replicate 8 0] }), (.fqheadWrite .host 1, base), (.crtabWrite .host 1, base),
   (.factbWrite .host 1, base), (.cstoreWrite .host 511 0, base), (.cresvWrite .host 0 0, base), (.devicePartitionWrite .host 31 0, base),
   (.lqcfgWrite .host 63 0, base), (.journalControlWrite .host 0 0, base), (.journalControlWrite .host 3 0, base),
   (.errorLogControlWrite .host 0 0, base), (.errorLogControlWrite .host 2 0, base), (.overflowConfigWrite .host 1 4, base),
   (.tsrcWrite .host 127, base), (.profileConfigWrite .host 511 3 0, base), (.registerWrite .host rTSRC 0, base),
   (.rcRegisterRead .host rTSRC, base)]
theorem due_register : ∀ x ∈ registerEvents, ∃ r, registerRows x.1 = some r ∧ r.ok x.2 = true := due_all (by decide +kernel)

/-- Bring-up at a stage. -/
def atStage (n : Nat) : State := { base.setRegF rBRSTAT 60 4 n with hostUp := true, fwUp := true }

noncomputable def deviceEvents : List (Instr × State) :=
  [(.powerOnReset, base), (.firmwareStageDone, atStage 1), (.warmingDone 0xEC, atStage 2), (.memoryTrainingDone, atStage 3),
   (.linksDone, atStage 4), (.channelRetrain 7 127, base), (.channelRetrainingDone 0 false, base.setRegF (rCHSPR 0) 0 8 3),
   (.channelRetire 0 3, base.setRegF (rCHSPR 0) 16 1 1), (.marginStretch 511, base), (.governorAdjust 704 675, base),
   (.governorAdjust 896 675, base), (.emergencyStop, base), (.errorDomainClose 7, { base with strikes := [.control 7 0x10 0] }), (.firmwareReload, atStage 5),
   (.firmwareFault, base), (.debugRightRevocation 1, { base with revoked := [1] })]
theorem due_device : ∀ x ∈ deviceEvents, ∃ r, deviceRows x.1 = some r ∧ r.ok x.2 = true := due_all (by decide +kernel)

/-- The events due in these theorems, by the number of their constructor, are all the events of the opcode table. -/
noncomputable def dueEvents : List Nat :=
  (rawEvents ++ routineEvents ++ fabricEvents ++ unitEvents ++ dispatchEvents ++ timedEvents ++ podEvents ++ outsideEvents
    ++ coherenceEvents ++ registerEvents ++ deviceEvents).map fun x => x.1.ctorIdx
theorem test_every_event_due : ∀ n, 212 ≤ n → n < 337 → n ∈ dueEvents := by decide +kernel

end Sys2Proof.Tests
end

