-- ==== Sys2Proof/Tests/Forms.lean ====
section
/-! SUPPORT. For every form of the opcode table, words that are ready in a state of `Base`: no hypothesis of the completion
statements is empty for any of them. -/
namespace Sys2Proof.Tests
open Sys2Proof.Machine Sys2Proof.Claims
set_option Elab.async false

/-- Group 0x0: nop, bra, brc, brany, brall, loopOp, jtab, call, callInd, callt, ret, pad, brx, exit, yield, prefI, icinv,
icinvAll, fbar, trap, bkpt, getpc. -/
def controlWords : List Words :=
  [(0x0000F001, 0x00000000, 0x00000000), (0x0000F002, 0x00000000, 0x00000000), (0x0000F003, 0x00000010, 0x000C0701)] ++
  [(0x0000F004, 0x00000000, 0x00000301), (0x0000F005, 0x00000008, 0x00000301), (0x0000F006, 0x00000000, 0x00000000)] ++
  [(0x0000F007, 0x00000108, 0x36A00003), (0x0040F008, 0x080BFC04, 0x00000000), (0x0040F408, 0x00000006, 0x00000000)] ++
  [(0x0060F009, 0x00000108, 0x00000008), (0x0000F00A, 0x00000000, 0x0000010C), (0x0000F00B, 0x00000104, 0x00000000)] ++
  [(0x0000F00C, 0x00000005, 0x00000006), (0x0000F00D, 0x00000000, 0x00000000), (0x0000F00E, 0x00000000, 0x00000000)] ++
  [(0x0000F00F, 0x00000000, 0x00000000), (0x0000F010, 0x00000000, 0x00000108), (0x0000F410, 0x00000000, 0x00000000)] ++
  [(0x0000F011, 0x00000000, 0x00000000), (0x0000F012, 0x00000000, 0x00000000), (0x0000F013, 0x00000000, 0x04000000)] ++
  [(0x0020F014, 0x04000006, 0x00000000)]
theorem ready_control : ∀ w ∈ controlWords, ReadyAt controlRows base w := ready_all (by decide +kernel)

/-- Groups 0x1 to 0x6: forms that write whole registers: iadd, isub, imul, imulh, imad, imin, imax, iabs, idiv, irem, isel, lea,
mov, iadd3, iclamp, andOp, orOp, xorOp, andn, notOp, logt, shl, shr, sar, rot, dsh, popc, clz, ctz, brev, bswap, fxt, fins,
bysel, shfl, shflq, vote, matchOp, prefixOp, redux, bcast, pcnt, fadd, fsub, fmul, ffma, fmin, fmax, fabs, fneg, fcpys, fclass,
frnd, fdiv, fsqrt, fscale, hadd2, hmul2, hfma2, hmin2, hmax2, frcp, frsq, fexp2, flog2, fsin, fcos, ftanh, fdot4, idot4, hdot2,
cvts, t5pk, bmax. -/
def aluWords : List Words :=
  [(0x0000F040, 0x00000020, 0x00000000), (0x0000F041, 0x00000006, 0x00000000), (0x0000F042, 0x00000006, 0x00000000)] ++
  [(0x0100F043, 0x00000000, 0x00000000), (0x0050F444, 0x000042FF, 0x00000106), (0x0050F045, 0x00000000, 0x00000000)] ++
  [(0x0030F046, 0x00000004, 0x00000000), (0x0020F047, 0x00000000, 0x00000000), (0x0080F048, 0x00001003, 0x00000000)] ++
  [(0x0000F049, 0x00000000, 0x00000000), (0x0030F44B, 0x000C0504, 0x00000104), (0x0000F04C, 0x00000000, 0x00000000)] ++
  [(0x0010F04D, 0x00000108, 0x00000000), (0x0060F04E, 0x00000004, 0x00000000), (0x0040F04F, 0x00000301, 0x00000000)] ++
  [(0x0010F480, 0x00000003, 0x00000000), (0x0000F481, 0x00000006, 0x00042010), (0x0100F482, 0x00000106, 0x00000008)] ++
  [(0x0080F083, 0x00000010, 0x00000000), (0x0100F084, 0x00000000, 0x00000000), (0x0040F085, 0x00000004, 0x00000000)] ++
  [(0x0000F086, 0x00000000, 0x00000000), (0x0040F087, 0x00041008, 0x00000000), (0x0000F088, 0x00000010, 0x00000000)] ++
  [(0x0020FC89, 0x0000010C, 0x00000000), (0x0000F08A, 0x000002FF, 0x00000000), (0x0000F08B, 0x0000010A, 0x00000000)] ++
  [(0x0040F08C, 0x00000003, 0x00000000), (0x0100F08D, 0x00000301, 0x00000000), (0x0000F08E, 0x00000000, 0x00000000)] ++
  [(0x0060F08F, 0x00000000, 0x00000000), (0x0080F090, 0x00000000, 0x00000000), (0x0010F091, 0x00000008, 0x00000000)] ++
  [(0x0040F492, 0x00000301, 0x01060003), (0x0000F4C0, 0x00000008, 0x10000301), (0x0040F0C1, 0x00000000, 0x00000000)] ++
  [(0x0050F0C2, 0x000BFF01, 0x00000C00), (0x0000F0C3, 0x00000301, 0x00000000), (0x0060F0C4, 0x00000020, 0x00000000)] ++
  [(0x0080F0C5, 0x00000000, 0x00000000), (0x0040F4C6, 0x00000301, 0x00000000), (0x0000F0CB, 0x00000301, 0x00000000)] ++
  [(0x0040FD00, 0x0000010A, 0x00000000), (0x0060F501, 0x00000000, 0x00200010), (0x0040F102, 0x00000020, 0x00000000)] ++
  [(0x1040F103, 0x20042106, 0x00000000), (0x0010F104, 0x000BFD0A, 0x00000000), (0x0040F105, 0x00041000, 0x00000000)] ++
  [(0x0060F106, 0x00000106, 0x00000000), (0x0010F107, 0x00000000, 0x00000000), (0x0020F108, 0x00000108, 0x00000000)] ++
  [(0x0000F10A, 0x00000000, 0x00000000), (0x0100F10B, 0x00000000, 0x00000000), (0x0000F50C, 0x0000010C, 0x00000000)] ++
  [(0x0050F90D, 0x000002FF, 0x00000000), (0x0080F10E, 0x00001000, 0x00000000), (0x2030F10F, 0x00000000, 0x00000000)] ++
  [(0x2020F110, 0x00000000, 0x00000000), (0x2100F111, 0x00000000, 0x00000000), (0x2000F112, 0x00000106, 0x00000000)] ++
  [(0x1010F113, 0x00001806, 0x00000000), (0x0040F140, 0x00000006, 0x00000000), (0x0080F141, 0x00000104, 0x00000000)] ++
  [(0x0040F142, 0x00000104, 0x00000000), (0x0030F143, 0x00000010, 0x00000000), (0x0040F144, 0x000002FF, 0x00000000)] ++
  [(0x0000F145, 0x00000008, 0x00000000), (0x0100F146, 0x00000008, 0x00000000), (0x0010F147, 0x00400000, 0x00010034)] ++
  [(0x0080F948, 0x108BFD04, 0x00000089), (0x0040F149, 0x2FF02301, 0x00000022), (0x0050F982, 0x00000106, 0x00000000)] ++
  [(0xD050F189, 0x000002FF, 0x0000000C), (0x0020F18B, 0x00000020, 0x00000000)]
theorem ready_alu : ∀ w ∈ aluWords, ReadyAt aluRows base w := ready_all (by decide +kernel)

/-- MGET and P2S: mget, p2s. -/
def maskWords : List Words :=
  [(0x0020F8C8, 0x00000000, 0x00000000), (0x0100F8C9, 0x00000000, 0x00000000)]
theorem ready_mask : ∀ w ∈ maskWords, ReadyAt maskRows base w := ready_all (by decide +kernel)

/-- forms that write a predicate: icmp, plogt, vote, solo, s2p, fcmp. -/
def predWords : List Words :=
  [(0x0030F44A, 0x0000010C, 0x80000000), (0x0010F093, 0x301C0701, 0x00000000), (0x0050F0C2, 0x00000301, 0x00000400)] ++
  [(0x0050F0C7, 0x00000000, 0x00000000), (0x0050F0CA, 0x00000000, 0x00000000), (0x0030F109, 0x0000190A, 0x00000000)]
theorem ready_pred : ∀ w ∈ predWords, ReadyAt predRows base w := ready_all (by decide +kernel)

/-- strings of elements: cvt, cvtp, qnt, qnts, dqnt, latq, pack, unpack, t5up. -/
def stringWords : List Words :=
  [(0x0060F180, 0x00000108, 0x00000004), (0x1080F181, 0x00000301, 0x00000000), (0xD080F183, 0x00000108, 0x00000000)] ++
  [(0xA020F184, 0x00000106, 0x00000000), (0x0020F185, 0x000BFC04, 0x00000104), (0xE030F186, 0x00000000, 0x00000301)] ++
  [(0x0080F187, 0x00000106, 0x00000000), (0x1010F188, 0x00000000, 0x0000010A), (0xC080F18A, 0x000002FF, 0x0000000D)]
theorem ready_string : ∀ w ∈ stringWords, ReadyAt stringRows base w := ready_all (by decide +kernel)

/-- group 0x7: mlatch, mlatchScratchpad, mmq, mmqScratchpad, maccZ, maccZAll, maccLd, maccSt, maccCp, maccCpAdd, maccScl, mtbl,
mscl, mscla, mrel, mwait, mstat. -/
def matrixWords : List Words :=
  [(0x0000F1C0, 0x00000000, 0x00000000), (0x0000F1C0, 0x02041904, 0x00000000), (0x0000F1C1, 0x00000000, 0x00000000)] ++
  [(0x0000F1C1, 0x02041904, 0x00000000), (0x0040F1C2, 0x00000000, 0x00000000), (0x0000F5C2, 0x00000000, 0x00000000)] ++
  [(0x3060F1C3, 0x00000000, 0x00000000), (0x0050F1C4, 0x00000000, 0x00000000), (0x0000F1C5, 0x00000000, 0x00100000)] ++
  [(0x0060F5C5, 0x00000000, 0x00000000), (0x0050F1C6, 0x00000000, 0x00000000), (0x0000F1C7, 0x00000000, 0x00000000)] ++
  [(0x0000F1C8, 0x00000000, 0x00000000), (0x0000F1C9, 0x00000108, 0x00000000), (0x0000F1CA, 0x00000000, 0x00000000)] ++
  [(0x0000F1CB, 0x00000000, 0x00000000), (0x0050F1CC, 0x00000000, 0x00000000)]
theorem ready_matrix : ∀ w ∈ matrixWords, ReadyAt matrixRows base w := ready_all (by decide +kernel)

/-- loads: ld, ldu, lds, ldv, prefD, probe. -/
def loadWords : List Words :=
  [(0x0030F200, 0x80000006, 0x00030006), (0x0000F600, 0x0004110A, 0x10316000), (0x0080FA00, 0x000BFD06, 0x24B00000)] ++
  [(0x0000F201, 0x00000004, 0x65B00000), (0x0000F202, 0x000BFD08, 0x00000006), (0x0000F203, 0x000BFD08, 0x000002FF)]
theorem ready_load : ∀ w ∈ loadWords, ReadyAt loadRows base w := ready_all (by decide +kernel)

/-- stores and cache maintenance: st, sts, stv, stz, stzLine, cwb, cflush, cinv. -/
def storeWords : List Words :=
  [(0x0000F240, 0x00008000, 0x00000020), (0x0000FA40, 0x104BFEFF, 0x00318000), (0x0000F241, 0x020BFC00, 0x0BB41906)] ++
  [(0x0000F242, 0x000BFC10, 0x00040106), (0x0000F242, 0x0000190A, 0x50300000), (0x0000F248, 0x0000010C, 0x00000301)] ++
  [(0x0000F249, 0x00002004, 0x00000020), (0x0000F24A, 0x00000000, 0x00000000)]
theorem ready_store : ∀ w ∈ storeWords, ReadyAt storeRows base w := ready_all (by decide +kernel)

/-- tiles: tdef, tld, tstr, trel, tqry. -/
def tileWords : List Words :=
  [(0x0000F243, 0x10000000, 0x00000000), (0x0000F244, 0x00041904, 0x01000003), (0x0000F245, 0x800BFD06, 0x01000003)] ++
  [(0x0000F246, 0x00000000, 0x00000000), (0x0030F247, 0x00000000, 0x00000000)]
theorem ready_tile : ∀ w ∈ tileWords, ReadyAt tileRowsOf base w := ready_all (by decide +kernel)

/-- group 0xA: atom, atoms, red, reds, cas, cass, cas2, cas4, enq, chase, cred, opk, opkScalar, opkx, opkxScalar. -/
def atomWords : List Words :=
  [(0x0050F280, 0x00001106, 0x0020010A), (0x0000FA80, 0x108BFEFF, 0x00200000), (0x0000F281, 0x00000000, 0x00200004)] ++
  [(0x0000FA81, 0x108BFEFF, 0x00200000), (0x0100F282, 0x008BFD0A, 0x0FA12000), (0x0100FA82, 0x104422FF, 0x0CB13000)] ++
  [(0x0080F283, 0x400BFC08, 0x00318000), (0x0000FA84, 0xD08422FF, 0x08B19000), (0x0000F285, 0x10804004, 0x08B1A000)] ++
  [(0x0000F286, 0x006BFD04, 0x0931B000), (0x0080F287, 0x104BFEFF, 0x05B1C000), (0x0060F288, 0x00000010, 0x00200301)] ++
  [(0x0000FA88, 0x104BFEFF, 0x00318000), (0x0000F289, 0x000BFEFF, 0x00200000), (0x0000FA89, 0x104BFEFF, 0x00318000)]
theorem ready_atom : ∀ w ∈ atomWords, ReadyAt atomRows base w := ready_all (by decide +kernel)

/-- group 0xB: barArr, barWait, barSync, objArr, objWait, objWaitEv, waitc, signal, fence. -/
def syncWords : List Words :=
  [(0x0000F2C0, 0x00000000, 0x00000000), (0x0000F2C1, 0x00000000, 0x00000000), (0x0000F2C2, 0x00000000, 0x00000000)] ++
  [(0x0000F2C3, 0x906BFD08, 0x0BB00029), (0x0020F2C4, 0x10ABFD0C, 0x06B00000), (0x0020F2C4, 0x10ABFD0C, 0x46B00000)] ++
  [(0x0020F2C5, 0x100BFD06, 0x06E00000), (0x0000F2C6, 0x506BFD08, 0x0B300000), (0x0000F2C7, 0x00000000, 0x00000000)]
theorem ready_sync : ∀ w ∈ syncWords, ReadyAt syncRows base w := ready_all (by decide +kernel)

/-- regions: rgnOpen. -/
def regionWords : List Words :=
  [(0x0000F2C8, 0x00000104, 0x00008108)]
theorem ready_region : ∀ w ∈ regionWords, ReadyAt regionRows base w := ready_all (by decide +kernel)

/-- With a region open: commit, commitPark, commitR, commitRPark, rgnDrop. -/
def regionOpenWords : List Words :=
  [(0x0040F2C9, 0x00000020, 0x0000010C), (0x0040F6C9, 0x00000000, 0x0000010C), (0x0000F2CA, 0x00001003, 0x0000010A)] ++
  [(0x0000F6CA, 0x00000000, 0x0000010A), (0x0000F2CB, 0x00000000, 0x00000000)]
theorem ready_region_open : ∀ w ∈ regionOpenWords, ReadyAt regionRows opened w := ready_all (by decide +kernel)

/-- engine commands: acopy, agath, ascat, acoll, afill, acopyt, apref, aqry. -/
def engineWords : List Words :=
  [(0x0000F300, 0x10442AFF, 0x00000300), (0x0000F301, 0x10441108, 0x00003A00), (0x0000F302, 0x10441108, 0x00003A00)] ++
  [(0x0000F303, 0x10442AFF, 0x00000300), (0x0000F304, 0x10442AFF, 0x00000300), (0x0000F305, 0x10442AFF, 0x00000300)] ++
  [(0x0000F306, 0x00000104, 0x00000700), (0x0080F307, 0x00000000, 0x00000000)]
theorem ready_engine : ∀ w ∈ engineWords, ReadyAt engineRows base w := ready_all (by decide +kernel)

/-- launches: lnch, lnchPod, join, cancel, cancelTerm, lrec, lstat. -/
def launchWords : List Words :=
  [(0x0000F310, 0x0000010C, 0x00000000), (0x0000F311, 0x00000106, 0x00000000), (0x0030F312, 0x00041AFF, 0x00000200)] ++
  [(0x0000F313, 0x00000104, 0x00000600), (0x0000F313, 0x00000104, 0x00000601), (0x0000F314, 0x000002FF, 0x00000000)] ++
  [(0x0020F315, 0x00000000, 0x00000000)]
theorem ready_launch : ∀ w ∈ launchWords, ReadyAt launchRows base w := ready_all (by decide +kernel)

/-- group 0xD: srd, swr, tbinv, tbsync, ctxswOut, ctxswIn, shalt, sresm, sresmFetch, sresmKill, ievict, pld, pst, convhcHc,
convhcSm, fqpop, ttload, cwball, cwballInv. -/
def systemWords : List Words :=
  [(0x0000F340, 0x00000000, 0x00000000), (0x0000F341, 0x10000104, 0x00000000), (0x0000F342, 0x000BFD06, 0x00000042)] ++
  [(0x0000F343, 0x00000000, 0x00000040), (0x0000F344, 0x0000010A, 0x00000000), (0x0000F744, 0x0000010A, 0x00000000)] ++
  [(0x0060F345, 0x000BFD0A, 0x00000000), (0x0000F346, 0x000BFD0A, 0x00000000), (0x0000F346, 0x000BFD0A, 0x00000001)] ++
  [(0x0000F346, 0x000BFD0A, 0x00000002), (0x0000F347, 0x0004310A, 0x00000000), (0x0060F348, 0x000002FF, 0x00000000)] ++
  [(0x0000F349, 0x000BFD04, 0x00000000), (0x0020F34A, 0x00042AFF, 0x00000000), (0x0020F74A, 0x00042AFF, 0x00000000)] ++
  [(0x0100F34B, 0x0000010C, 0x00000000), (0x0060F34C, 0x000BFD08, 0x00000000), (0x0000F34D, 0x00000000, 0x00000040)] ++
  [(0x0000F74D, 0x00000000, 0x00000040)]
theorem ready_system : ∀ w ∈ systemWords, ReadyAt systemRows base w := ready_all (by decide +kernel)

/-- The forms ready in these theorems, by the number of their constructor, are all the forms of the opcode table. -/
def readyForms : List Nat :=
  (controlWords ++ aluWords ++ maskWords ++ predWords ++ stringWords ++ matrixWords ++ loadWords ++ storeWords ++ tileWords ++
    atomWords ++ syncWords ++ regionWords ++ regionOpenWords ++ engineWords ++ launchWords ++ systemWords).map fun w =>
    w.instr.ctorIdx
theorem test_every_form_ready : ∀ n, n < 212 → n ∈ readyForms := by decide +kernel

end Sys2Proof.Tests
end

