-- ==== Sys2Proof/Tests/Slice0.lean ====
section
/-! SUPPORT. Tests: words written out from the spec decode to the instructions that they stand for; terms that each check of
well-formedness refuses; results of one instruction, worked out by hand or given by the spec's examples; one step. -/
namespace Sys2Proof.Tests
open Sys2Proof.Machine Sys2Proof.Claims
set_option Elab.async false

/-! ### Decoding: the spec's worked encodings -/

def at3 (w0 w1 w2 : Word) : Instr := decodeWords w0 w1 w2

/-- IADD.64.SAT s3, s3^, -1 (R256). -/
theorem test_decode_iadd_sat :
    (match at3 0x0032FC40 0x10100103 0xFFFFFFFF with
      | .iadd h b => h.guard == 15 && h.dest == 3 && h.lua && b.a == .sc 3 && b.b == .imm 0xFFFFFFFF && b.sat && b.var == 1
      | _ => false) = true := by decide

/-- @p3 IADD v4, v4, v9 (the worked line of R198). -/
theorem test_decode_iadd_guarded :
    (match at3 0x00403040 0x00002404 0 with
      | .iadd h b => h.guard == 3 && !h.gneg && h.dest == 4 && b.a == .vec 4 && b.b == .reg (.vec 9)
      | _ => false) = true := by decide

/-- IMUL v12, v12, 3. -/
theorem test_decode_imul :
    (match at3 0x00C0F442 0x0000000C 3 with
      | .imul h b => h.dest == 12 && b.a == .vec 12 && b.b == .imm 3
      | _ => false) = true := by decide

/-- NOP. -/
theorem test_decode_nop :
    (match at3 0x0000F001 0 0 with
      | .nop h b => h.guard == 15 && b.w1 == 0
      | _ => false) = true := by decide

/-- PAD, label 0x3C01. -/
theorem test_decode_pad :
    (match at3 0x0000F00B 0x00001002 0x3C010000 with
      | .pad h b => h.dest == 0 && b.w1 == 0x1002 && b.aux == 0x3C01
      | _ => false) = true := by decide

/-- BRC p1, loop, .+1. -/
theorem test_decode_brc :
    (match at3 0x0000F003 0xFFFFFFF7 0x00010301 with
      | .brc h b => h.dest == 0 && b.w1.toInt == -9 && b.aux == 1 && b.a == .pred 1
      | _ => false) = true := by decide

/-- JTAB v2, s4, .+9. -/
theorem test_decode_jtab :
    (match at3 0x0000F007 0x00000104 0x00090002 with
      | .jtab h b => h.dest == 0 && b.a == .vec 2 && Check.w1Op b == .sc 4 && b.aux == 9
      | _ => false) = true := by decide

/-- PREF.I mid, 2. -/
theorem test_decode_prefI :
    (match at3 0x0000F00F 0x0000000A 0x00000400 with
      | .prefI h b => h.dest == 0 && b.w1.toInt == 10 && b.var == 1
      | _ => false) = true := by decide

/-- LOOP s6, top. -/
theorem test_decode_loop :
    (match at3 0x0060F006 0xFFFFFFD9 0 with
      | .loopOp h b => h.dest == 6 && b.w1.toInt == -39
      | _ => false) = true := by decide

/-- LD.W v5, [s2 + v1<<2 + 16] (R217). -/
theorem test_decode_ld :
    (match at3 0x0050F200 0x80000502 0x00200010 with
      | .ld h b => h.dest == 5 && b.base == .sc 2 && b.index == .vec 1 && b.shift == 2 && b.off == 16 && b.size == 2
      | _ => false) = true := by decide

/-- LD.W v10, [v4 + 8]. -/
theorem test_decode_ld_off :
    (match at3 0x00A0F200 0x000BFC04 0x00200008 with
      | .ld h b => h.dest == 10 && b.base == .vec 4 && b.index == .zero && b.off == 8 && b.size == 2
      | _ => false) = true := by decide

/-- LDS.D s5, [$args]. -/
theorem test_decode_lds :
    (match at3 0x0050FA00 0x000BFE0C 0x00300000 with
      | .lds h b => h.dest == 5 && b.base == .spec 0x0C && b.index == .zero && b.size == 3
      | _ => false) = true := by decide

/-- ATOM.ADD.D.DEVICE.REL (R341). -/
theorem test_decode_atom :
    (match at3 0x0080F280 0xC0A00906 0x0AB01000 with
      | .atom h b => h.dest == 8 && b.base == .sc 6 && b.index == .vec 2 && b.shift == 3 && b.data == .vec 10 && b.ord == 2 && b.scope == 5 && b.size == 3 && Check.routine b == 1
      | _ => false) = true := by decide

/-- FENCE.FULL.DEVICE (R349). -/
theorem test_decode_fence :
    (match at3 0x0000F2C7 0x05000000 0 with
      | .fence h b => h.dest == 0 && b.var == 0x50
      | _ => false) = true := by decide

/-- RGN.OPEN s20, 7 (R351). -/
theorem test_decode_rgnOpen :
    (match at3 0x0000F2C8 0x00000114 7 with
      | .rgnOpen h b => h.dest == 0 && b.a == .sc 20 && b.b == .imm 7
      | _ => false) = true := by decide

/-- ACOPY.DEVICE s10, s8, s12 (R355). -/
theorem test_decode_acopy :
    (match at3 0x0000F300 0x10A43108 0x00000500 with
      | .acopy h b => h.dest == 0 && b.a == .sc 8 && b.b == .sc 12 && b.c == .sc 10 && b.scope == 5
      | _ => false) = true := by decide

/-- SRD s4, 0x101. -/
theorem test_decode_srd :
    (match at3 0x0040F340 0x10100000 0 with
      | .srd h b => h.dest == 4 && b.sreg == 0x101
      | _ => false) = true := by decide

/-- TBINV.PAGE.DEVICE s6, s7. -/
theorem test_decode_tbinv :
    (match at3 0x0000F342 0x00041D06 0x00000050 with
      | .tbinv h b => h.dest == 0 && b.a == .sc 6 && b.b == .sc 7 && b.var == 0x50
      | _ => false) = true := by decide

/-- FADD.F16 v6, v2, v3: group 0x4 (R273), class VV (R204). -/
theorem test_decode_fadd :
    (match at3 0x1060F100 0x00000C02 0 with
      | .fadd h b => h.typ == 1 && h.dest == 6 && b.a == .vec 2 && b.b == .reg (.vec 3)
      | _ => false) = true := by decide

/-- SHFL.ROT v3, v2, 1: group 0x3 (R264), class VI (R205). -/
theorem test_decode_shfl :
    (match at3 0x0030F4C0 0x00C00002 1 with
      | .shfl h b => h.dest == 3 && b.a == .vec 2 && b.b == .imm 1 && fld b.var 2 3 == 3
      | _ => false) = true := by decide

/-- FRCP v7, v1: group 0x5. -/
theorem test_decode_frcp :
    (match at3 0x0070F140 0x00000001 0 with
      | .frcp h b => h.dest == 7 && b.a == .vec 1
      | _ => false) = true := by decide

/-- CVT.D2.S0.F8A.F32 v5, v2: group 0x6 (R285). -/
theorem test_decode_cvt :
    (match at3 0x3050F180 0x00000002 0x00002000 with
      | .cvt h b => h.typ == 3 && b.ty2 == 0 && fld b.var 4 4 == 2 && fld b.var 0 4 == 0 && b.a == .vec 2
      | _ => false) = true := by decide

/-- MACC.Z of tile 5: group 0x7 (R319). -/
theorem test_decode_maccZ :
    (match at3 0x0050F1C2 0 0 with
      | .maccZ h b => h.dest == 5 && b.rows == 0
      | _ => false) = true := by decide

/-- STS.D s10, [s4]: group 0x9 (R335), class variant 2. -/
theorem test_decode_sts :
    (match at3 0x0000FA40 0x10ABFD04 0x00300000 with
      | .sts h b => h.dest == 0 && b.data == .sc 10 && b.base == .sc 4 && b.index == .zero && b.size == 3
      | _ => false) = true := by decide

/-- An opcode that R212 does not allocate is an illegal instruction, and group 0xE is hints (R213). -/
theorem test_decode_raw :
    (match at3 0x0000F3FF 0 0, at3 0x0000F380 1 2 with | .illegalInstruction _, .hint w => w.w2 == 2 | _, _ => false) = true := by decide

/-! ### Terms that are not well formed (R211): each is a ready form of `Forms` with one field spoiled -/

def illFormed : List Words :=
  -- nop: VAR; bra: DEST; brc: no AUX
  [(0x0000F001, 0x00000000, 0x00000400), (0x0010F002, 0x00000000, 0x00000000), (0x0000F003, 0x00000010, 0x00000701)] ++
  -- brany: AUX; loopOp: DEST $deadline; jtab: no AUX
  [(0x0000F004, 0x00000000, 0x00010301), (0x0920F006, 0x00000000, 0x00000000), (0x0000F007, 0x00000108, 0x00000003)] ++
  -- call: odd DEST; callInd: W1 above its operand; callt: zero index
  [(0x0050F008, 0x080BFC04, 0x00000000), (0x0040F408, 0x00000406, 0x00000000), (0x0060F009, 0x00000108, 0x000002FF)] ++
  -- ret: W1; pad: budget of no vectors; brx: VAR
  [(0x0000F00A, 0x00000001, 0x0000010C), (0x0000F00B, 0x00000100, 0x00000000), (0x0000F00C, 0x00000005, 0x00000406)] ++
  -- prefI: hint 4; icinv: scope 6; icinvAll: scope 6
  [(0x0000F00F, 0x00000000, 0x00001000), (0x0000F010, 0x00000000, 0x00001908), (0x0000F410, 0x00000000, 0x00001800)] ++
  -- trap: W1; getpc: AUX; commit: AUX
  [(0x0000F012, 0x00000001, 0x00000000), (0x0020F014, 0x04000006, 0x00010000), (0x0040F2C9, 0x00000020, 0x0001010C)] ++
  -- commitPark: W1; iadd: TYPE; imulh: SAT
  [(0x0040F6C9, 0x00000001, 0x0000010C), (0x1000F040, 0x00000020, 0x00000000), (0x0100F043, 0x00000000, 0x00010000)] ++
  -- icmp: cc 6; isel: VAR bit 1; lea: VAR bit 7
  [(0x0030F44A, 0x0180010C, 0x80000000), (0x0030F44B, 0x002C0504, 0x00000104), (0x0000F04C, 0x00000000, 0x00008000)] ++
  -- mov: C; notOp: C; logt: TYPE
  [(0x0010F04D, 0x00100108, 0x00000000), (0x0100F084, 0x00100000, 0x00000000), (0x1040F085, 0x00000004, 0x00000000)] ++
  -- plogt: RM; shfl: mode 7; bcast: VAR bit 2
  [(0x0010F093, 0x701C0701, 0x00000000), (0x0000F4C0, 0x01C00008, 0x10000301), (0x0040F4C6, 0x00400301, 0x00000000)] ++
  -- vote: reserved bit; matchOp: VAR bit 1; redux: VAR bit 5
  [(0x0050F0C2, 0x00000301, 0x00020400), (0x0000F0C3, 0x00000301, 0x00000200), (0x0080F0C5, 0x00000000, 0x00002000)] ++
  -- solo: A; pcnt: TYPE2; mget: VAR bit 0
  [(0x0050F0C7, 0x00000001, 0x00000000), (0x0000F0CB, 0x00000301, 0x00000001), (0x0020F8C8, 0x00000000, 0x00000100)] ++
  -- p2s: VAR bit 5; s2p: VAR bit 0; fadd: TYPE 3
  [(0x0100F8C9, 0x00000000, 0x00002000), (0x0050F0CA, 0x00000000, 0x00000100), (0x3040FD00, 0x0000010A, 0x00000000)] ++
  -- fabs: SAT; fcmp: cc 7; fscale: VAR
  [(0x0060F106, 0x00000106, 0x00010000), (0x0030F109, 0x0000190A, 0x00001C00), (0x0080F10E, 0x00001000, 0x00000100)] ++
  -- hadd2: TYPE F32; fdot4: TYPE2 F32; idot4: TYPE2 F32
  [(0x0030F10F, 0x00000000, 0x00000000), (0x0010F147, 0x00400000, 0x00010030), (0x0080F948, 0x108BFD04, 0x00000080)] ++
  -- hdot2: TYPE2 not TYPE3; cvt: TYPE 5; cvtp: TYPE F32
  [(0x0040F149, 0x2FF02301, 0x00000020), (0x5060F180, 0x00000108, 0x00000004), (0x0080F181, 0x00000301, 0x00000000)] ++
  -- cvts: VAR bit 3; qnt: TYPE F32; qnts: VAR bit 7
  [(0x0050F982, 0x00000106, 0x00000800), (0x0080F183, 0x00000108, 0x00000000), (0xA020F184, 0x00000106, 0x00008000)] ++
  -- dqnt: VAR bit 4; latq: TYPE F32; pack: VAR bit 4
  [(0x0020F185, 0x000BFC04, 0x00001104), (0x0030F186, 0x00000000, 0x00000301), (0x0080F187, 0x00000106, 0x00001000)] ++
  -- unpack: VAR bit 5; t5pk: VAR; t5up: VAR
  [(0x1010F188, 0x00000000, 0x0000210A), (0xD050F189, 0x000002FF, 0x0000010C), (0xC080F18A, 0x000002FF, 0x0000010D)] ++
  -- bmax: VAR; barArr: barrier 16; fence: literal
  [(0x0020F18B, 0x00000020, 0x00000100), (0x0000F2C0, 0x00000000, 0x00000010), (0x0000F2C7, 0x00000000, 0x00000001)] ++
  -- rgnOpen: literal above 16 bits; ld: TYPE; ldu: DATA
  [(0x0000F2C8, 0x00000104, 0x00018108), (0x1030F200, 0x80000006, 0x00030006), (0x0000F600, 0x0014110A, 0x10316000)] ++
  -- lds: base v; ldv: SX; prefD: DEST
  [(0x0080FA00, 0x000BFC06, 0x24B00000), (0x0000F201, 0x00000004, 0x65F00000), (0x0010F202, 0x000BFD08, 0x00000006)] ++
  -- probe: DATA; st: DEST; sts: DEST
  [(0x0000F203, 0x001BFD08, 0x000002FF), (0x0010F240, 0x00008000, 0x00000020), (0x0010FA40, 0x104BFEFF, 0x00318000)] ++
  -- stv: DEST; stz: DATA; stzLine: DEST
  [(0x0010F241, 0x020BFC00, 0x0BB41906), (0x0000F242, 0x001BFC10, 0x00040106), (0x0010F242, 0x0000190A, 0x50300000)] ++
  -- cwb: DATA; tdef: BASE; tld: DEST
  [(0x0000F248, 0x0010010C, 0x00000301), (0x0000F243, 0x10000001, 0x00000000), (0x0010F244, 0x00041904, 0x01000003)] ++
  -- tstr: DEST; trel: DATA; tqry: entry 64
  [(0x0010F245, 0x800BFD06, 0x01000003), (0x0000F246, 0x00100000, 0x00000000), (0x0030F247, 0x00000000, 0x00000040)] ++
  -- atom: TYPE; red: DEST; cas: TYPE
  [(0x1050F280, 0x00001106, 0x0020010A), (0x0010F281, 0x00000000, 0x00200004), (0x1100F282, 0x008BFD0A, 0x0FA12000)] ++
  -- cas2: odd DEST; cas4: TYPE; opk: TYPE
  [(0x0090F283, 0x400BFC08, 0x00318000), (0x1000FA84, 0xD08422FF, 0x08B19000), (0x1060F288, 0x00000010, 0x00200301)] ++
  -- opkx: TYPE; objArr: TYPE; objWait: TYPE
  [(0x1000F289, 0x000BFEFF, 0x00200000), (0x1000F2C3, 0x906BFD08, 0x0BB00029), (0x1020F2C4, 0x10ABFD0C, 0x06B00000)] ++
  -- waitc: TYPE; signal: DEST; mlatch: DEST
  [(0x1020F2C5, 0x100BFD06, 0x06E00000), (0x0010F2C6, 0x506BFD08, 0x0B300000), (0x0010F1C0, 0x00000000, 0x00000000)] ++
  -- mlatchScratchpad: DEST; mmq: tile 16; mmqScratchpad: tile 16
  [(0x0010F1C0, 0x02041904, 0x00000000), (0x0100F1C1, 0x00000000, 0x00000000), (0x0100F1C1, 0x02041904, 0x00000000)] ++
  -- maccZ: SCL; maccZAll: SCL; maccLd: tile 16
  [(0x0040F1C2, 0x04000000, 0x00000000), (0x0000F5C2, 0x04000000, 0x00000000), (0x3160F1C3, 0x00000000, 0x00000000)] ++
  -- maccSt: SCL; maccCp: tile 16; maccScl: tile 16
  [(0x0050F1C4, 0x04000000, 0x00000000), (0x0100F1C5, 0x00000000, 0x00100000), (0x0150F1C6, 0x00000000, 0x00000000)] ++
  -- mtbl: DEST; mrel: DEST; mwait: DEST
  [(0x0010F1C7, 0x00000000, 0x00000000), (0x0010F1CA, 0x00000000, 0x00000000), (0x0010F1CB, 0x00000000, 0x00000000)] ++
  -- mstat: A; acopy: DEST; agath: DEST
  [(0x0050F1CC, 0x00000001, 0x00000000), (0x0010F300, 0x10442AFF, 0x00000300), (0x0010F301, 0x10441108, 0x00003A00)] ++
  -- acoll: DEST; afill: DEST; acopyt: DEST
  [(0x0010F303, 0x10442AFF, 0x00000300), (0x0010F304, 0x10442AFF, 0x00000300), (0x0010F305, 0x10442AFF, 0x00000300)] ++
  -- apref: DEST; aqry: reserved bit; lnch: DEST
  [(0x0010F306, 0x00000104, 0x00000700), (0x0080F307, 0x40000000, 0x00000000), (0x0010F310, 0x0000010C, 0x00000000)] ++
  -- join: reserved bit; cancel: DEST; lstat: reserved bit
  [(0x0030F312, 0x40041AFF, 0x00000200), (0x0010F313, 0x00000104, 0x00000600), (0x0020F315, 0x40000000, 0x00000000)] ++
  -- srd: TYPE; tbinv: DEST; cwball: scope 6
  [(0x1000F340, 0x00000000, 0x00000000), (0x0010F342, 0x000BFD06, 0x00000042), (0x0000F34D, 0x00000000, 0x00000060)]

theorem test_ill_formed : ∀ w ∈ illFormed, ¬ WellFormed w.instr := by
  have h : illFormed.all (fun w => !legal w.instr) = true := by decide +kernel
  intro w hw hl
  simpa [show legal w.instr = true from hl] using List.all_eq_true.mp h w hw

/-! ### Results of one instruction -/

/-- Words of the classes VV (R204) and VI (R205), with the guard p15. -/
def vv (op d a b c : Nat) (mods : Nat := 0) : Instr := at3 (.ofNat 32 (0xF000 + op + d <<< 20)) (.ofNat 32 (a + b <<< 10 + c <<< 20)) (.ofNat 32 mods)
def vi (op d a : Nat) (imm : Word) (mods : Nat := 0) : Instr := at3 (.ofNat 32 (0xF400 + op + d <<< 20)) (.ofNat 32 (a + mods)) imm

/-- `base` with doublewords in v4:v5 and v6:v7 of lane 0. -/
def regs (x y : Dword) : State := base.modStrand 0 fun st => withPair 6 y (withPair 4 x st)

/-- The word of a vector register in lane 0, after an instruction; none where it does not complete or the word is marked. -/
def gives (i : Instr) (s : State) (n : Nat) : Option Word :=
  match exec i s with
  | .next t => let w := regWord t 0 ((t.strand 0).vecIx n 0); if w.mark then none else some w.data
  | _ => none

/-- The same of the doubleword of a scalar. -/
def givesS (i : Instr) (s : State) (n : Nat) : Option Dword :=
  match exec i s with
  | .next t => let w := regWord t 0 ((t.strand 0).scIx n); if w.mark then none else some ((t.strand 0).dw ((t.strand 0).scIx n))
  | _ => none

/-- R253: the sum wraps. -/
theorem test_iadd_wraps : gives (vi 0x040 20 4 1) (regs 0xFFFFFFFF 0) 20 = some 0 := by decide +kernel

/-- The example of R256: the sum saturates. -/
theorem test_iadd_sat :
    givesS (at3 0x0032FC40 0x10100103 0xFFFFFFFF) (base.modStrand 0 (withScalar 3 0x8000000000000000)) 3 = some 0x8000000000000000 := by decide +kernel

/-- R254: the high half of −2^31 × 2. -/
theorem test_imulh : gives (vi 0x043 20 4 2) (regs 0x80000000 0) 20 = some 0xFFFFFFFF := by decide +kernel

/-- R254: division rounds toward zero. -/
theorem test_idiv : gives (vi 0x048 20 4 2) (regs 0xFFFFFFF9 0) 20 = some 0xFFFFFFFD := by decide +kernel

/-- R254: the remainder has the dividend's sign. -/
theorem test_irem : gives (vi 0x049 20 4 2) (regs 0xFFFFFFF9 0) 20 = some 0xFFFFFFFF := by decide +kernel

/-- R254: a divisor of 0 poisons. -/
theorem test_idiv_zero : gives (vi 0x048 20 4 0) (regs 7 0) 20 = none := by decide +kernel

/-- R256: MOV takes the literal. -/
theorem test_mov : gives (vi 0x04D 20 0 0x12345678) base 20 = some 0x12345678 := by decide +kernel

/-- R260: an arithmetic shift by more than the width leaves the sign. -/
theorem test_sar : gives (vi 0x088 20 4 40) (regs 0x80000000 0) 20 = some 0xFFFFFFFF := by decide +kernel

/-- R260: a shift by the width leaves 0. -/
theorem test_shl : gives (vi 0x086 20 4 32) (regs 1 0) 20 = some 0 := by decide +kernel

/-- The example of R259: LOGT with table 0xCA selects. -/
theorem test_logt :
    gives (vi 0x085 20 4 0x00FF (0xCA <<< 20 + 6 <<< 10)) (regs 0x12345678 0x0000000F) 20 = some 0x1234567F := by decide +kernel

/-- The example of R261: bits 15..8 of 0x12345678. -/
theorem test_fxt : gives (vi 0x090 20 4 0x0F08) (regs 0x12345678 0) 20 = some 0x56 := by decide +kernel

/-- The example of R261: 0xAB into bits 15..8. -/
theorem test_fins : gives (vi 0x091 20 4 0x0F08 (6 <<< 10)) (regs 0xAB 0x12345678) 20 = some 0x1234AB78 := by decide +kernel

/-- The example of R261. -/
theorem test_bysel :
    gives (vv 0x092 20 4 6 8) ((regs 0x44332211 0x88776655).modStrand 0 (withPair 8 0x0F190703)) 20 = some 0xFF448844 := by decide +kernel

/-- R258: leading zeros of 1. -/
theorem test_clz : gives (vv 0x08C 20 4 0 0) (regs 1 0) 20 = some 31 := by decide +kernel

/-- R258: bytes reversed. -/
theorem test_bswap : gives (vv 0x08F 20 4 0 0) (regs 0x12345678 0) 20 = some 0x78563412 := by decide +kernel

/-- 1.5 + 2.25 = 3.75 in F32. -/
theorem test_fadd : gives (vv 0x100 20 4 6 0) (regs 0x3FC00000 0x40100000) 20 = some 0x40700000 := by decide +kernel

/-- 1.5 × −2 = −3 in F16. -/
theorem test_fmul_half : gives (at3 0x1140F102 0x00001804 0) (regs 0x3E00 0xC000) 20 = some 0xC200 := by decide +kernel

/-- 1 × 1 + −1 = +0 in F32 (R275). -/
theorem test_ffma :
    gives (vv 0x103 20 4 6 8) ((regs 0x3F800000 0x3F800000).modStrand 0 (withPair 8 0xBF800000)) 20 = some 0 := by decide +kernel

/-- The example of R284. -/
theorem test_fdot4 :
    gives (vv 0x147 20 4 6 8 0x44) ((regs 0x3C3CBC3C 0x45454545).modStrand 0 (withPair 8 0x3F000000)) 20 = some 0x41280000 := by decide +kernel

/-- The example of R103: (+1, −1, 0, 0, +1) packs to 0xC8. -/
theorem test_t5pk : gives (at3 0xD140F189 0x00000004 0x0C) (regs 0x10D 0) 20 = some 0xC8 := by decide +kernel

/-- R270: MGET gives the fragment's lanes. -/
theorem test_mget : givesS (at3 0x0140F8C8 0 0) base 20 = some 1 := by decide +kernel

/-- R246: GETPC of the unit after. -/
theorem test_getpc : givesS (at3 0x0140F014 1 0) base 20 = some 0x100001 := by decide +kernel

/-- R331: LDS of the branch table's first word. -/
theorem test_lds : givesS (at3 0x0140FA00 0x000BFD08 0x00200000) base 20 = some 1 := by decide +kernel

/-- R335: STS stores its bytes little-endian; LDS reads them back. -/
theorem test_sts :
    (match exec (at3 0x0000FA40 0x108BFD04 0x00300000) base with
      | .next t => (List.range 8).map fun k => t.mem.byte (0x110000 + k)
      | _ => []) = [0, 0, 0x12, 0, 0, 0, 0, 0] := by decide +kernel

/-- R187: an add at the home of a packet writes the sum. -/
theorem test_add_routine :
    (match exec (.addRoutine ⟨.device 1, 0x01, 0x118100, ⟨.mem 0x118100, 0, false⟩, 5, 0, 0, true, false, false, false, false, 0, [],
        1, none⟩) base with
      | .next t => some (t.mem.byte 0x118100)
      | _ => none) = some 5 := by decide +kernel

/-- R89, R214: an instruction of the privileged group at user level is a control trap with cause 0x40. -/
theorem test_user_srd :
    (match exec (at3 0x0040F340 0x10100000 0) user with
      | .next t => ((t.strand 0).tstate, fld ((t.strand 0).ctl ctlTSTAT) 24 8)
      | _ => (0, 0)) = (1, 0x40) := by decide +kernel

/-! ### One step -/

/-- What a step fetches and runs first after reset: NOP goes on to the next unit, IADD writes its sum in every lane. -/
def stepOf (w : Nat) : Host.Outcome State Fault Refusal := step (State.reset.withFetchWord 96 w)
theorem test_step_nop :
    (match stepOf 0xF001 with | .next t => (t.strand 0).frags.map fun f => f.2.pc | _ => []) = [0x100001] := by decide +kernel
theorem test_step_iadd :
    (match stepOf 0x00000007000000020010F440 with
      | .next t => (regWord t 0 ((t.strand 0).vecIx 1 127)).data | _ => 0) = 7 := by decide +kernel

end Sys2Proof.Tests
end

