-- ==== Sys2Proof/Tests/Premises.lean ====
section
/-! SUPPORT. States and operands that meet the hypotheses of the statements on results, frames, traps and steps. -/
namespace Sys2Proof.Tests
open Sys2Proof.Machine Sys2Proof.Claims
set_option Elab.async false

/-- The fragment of `base`. -/
def frag0 : Frag := Frag.fresh 0 1 0x100000 none

theorem base_issuer : base.issuer = some (0, 0, frag0) := by decide +kernel
theorem opened_issuer : opened.issuer = some (0, 0, frag0) := by decide +kernel
theorem user_issuer : user.issuer = some (0, 0, frag0) := by decide +kernel
theorem base_ordinary : ordinary base 0 := by unfold ordinary; decide +kernel
theorem opened_ordinary : ordinary opened 0 := by unfold ordinary; decide +kernel

/-- No strand has a word of wrong parity, as a computation. -/
theorem flips_none {s : State} (h : (s.strands.all fun e => e.2.flips.isEmpty) = true) (o : Nat) : (s.strand o).flips = [] := by
  unfold State.strand
  cases ho : aget s.strands o with
  | none => rfl
  | some st => exact List.isEmpty_iff.mp (List.all_eq_true.mp h _ (aget_mem _ _ _ ho))

theorem base_unprofiled : unprofiled base 0 :=
  ⟨by decide +kernel, by decide +kernel, flips_none (by decide +kernel), by decide +kernel⟩
theorem opened_unprofiled : unprofiled opened 0 :=
  ⟨by decide +kernel, by decide +kernel, flips_none (by decide +kernel), by decide +kernel⟩

theorem sid_of_ready {r : Row} {i : Instr} {s : State} {cx : Cx} {sid idx : Nat} {f : Frag} (h : r.Ready i s cx)
    (hs : s.issuer = some (sid, idx, f)) : cx.sid = sid := by
  have := h.clear.issuing
  rw [hs] at this
  cases this
  rfl

/-- A form that is ready goes on to a unit that a PC names. -/
theorem goesOn_of_ready {r : Row} {i : Instr} {cx : Cx} (h : r.Ready i base cx) : goesOn cx := by
  have hi := h.clear.issuing
  rw [base_issuer] at hi
  simp only [Option.some.injEq, Prod.mk.injEq] at hi
  unfold goesOn
  rw [← hi.2.2]
  decide +kernel

/-- What a form that is ready in a state meets besides: no routine's body, a next unit, and no profiler. -/
theorem ready_base {rows : Instr → Option Row} {w : Words} (h : ReadyAt rows base w) :
    ∃ r cx, rows w.instr = some r ∧ r.Ready w.instr base cx ∧ ordinary base cx.sid ∧ goesOn cx ∧ unprofiled base cx.sid := by
  obtain ⟨r, cx, hr, hc⟩ := h
  have h0 := sid_of_ready hc base_issuer
  exact ⟨r, cx, hr, hc, h0 ▸ base_ordinary, goesOn_of_ready hc, h0 ▸ base_unprofiled⟩

theorem base_datapaths : (base.strand 0).vecErr = [] := by decide +kernel

/-! ### Results and frames -/

/-- Scalar forms: MOV of 5 to s20, and to $deadline. -/
def scalarWords : List Words := [(0x0140FC4D, 0, 5), (0x0920FC4D, 0, 5)]
theorem ready_scalar : ∀ w ∈ scalarWords, ReadyAt aluRows base w := ready_all (by decide +kernel)

theorem premises_register_results : ∀ w ∈ aluWords ++ scalarWords,
    ∃ a cx, aluForms w.instr = some a ∧ a.row.Ready w.instr base cx ∧ ordinary base cx.sid ∧ goesOn cx := by
  intro w hw
  have hr : ReadyAt aluRows base w := (List.mem_append.mp hw).elim (ready_alu w) (ready_scalar w)
  obtain ⟨r, cx, hr, hc, ho, hg, -⟩ := ready_base hr
  simp only [aluRows, Option.map_eq_some_iff] at hr
  obtain ⟨a, ha, rfl⟩ := hr
  exact ⟨a, cx, ha, hc, ho, hg⟩

theorem premises_register_results_clauses :
    scalarWords.map (fun w => (aluForms w.instr).map fun a => (isScalar a.h, a.h.dest == specDEADLINE))
      = [some (true, false), some (true, true)] := by decide +kernel

theorem premises_predicate_results : ∀ w ∈ predWords,
    ∃ a cx, predForms w.instr = some a ∧ a.row.Ready w.instr base cx ∧ ordinary base cx.sid ∧ goesOn cx := by
  intro w hw
  obtain ⟨r, cx, hr, hc, ho, hg, -⟩ := ready_base (ready_pred w hw)
  simp only [predRows, Option.map_eq_some_iff] at hr
  obtain ⟨a, ha, rfl⟩ := hr
  exact ⟨a, cx, ha, hc, ho, hg⟩

/-- One of them writes lane 0's bit, of a predicate other than p15. -/
theorem premises_predicate_results_clauses :
    (predWords.any fun w => match predForms w.instr with
      | some a => a.h.dest.toNat != 15 && ((a.results (issueOf a.row base)).any fun r => r.1 == 0 && isWords r.2)
      | none => false) = true := by decide +kernel

/-- The vector datapaths of the strand err in lane 0 of its next result; lane 0 of v4 is poisoned; the word of p3 is. -/
def erring : State := base.modStrand 0 fun st => { st with vecErr := [(1, false)] }
def badSource : State := base.modStrand 0 fun st => st.setWord (st.vecIx 4 0) ⟨0x20010000, true, true, false⟩
def badDest : State := base.modStrand 0 fun st => st.setWord (st.predIx 3 0) ⟨0x20010000, true, true, false⟩
theorem premises_datapath_error :
    (match aluForms (at3 0x0000F040 0x00000020 0) with
      | some a => readyB (at3 0x0000F040 0x00000020 0) a.row erring && !isScalar a.h
        && ((struck erring (issueOf a.row erring) ((issueOf a.row erring).results a.h a.b a.r a.f)).any fun r => !isWords r.2)
      | none => false) = true := by decide +kernel

/-- ICMP.VI p3, v4: a poisoned result, and one that ends in a word that was poisoned. -/
def icmpAt (s : State) (ok : ReplyVal → Bool) : Bool :=
  match predForms (at3 0x0030F44A 0x00000004 0) with
  | some a => readyB (at3 0x0030F44A 0x00000004 0) a.row s && a.h.dest.toNat == 3
    && ((a.results (issueOf a.row s)).all fun r => r.1 == 0 && ok r.2) && !(a.results (issueOf a.row s)).isEmpty
  | none => false
theorem premises_predicate_poisoned : icmpAt badSource (fun v => !isWords v) = true := by decide +kernel
theorem premises_predicate_unmarked : icmpAt badDest isWords = true
    ∧ (regWord badDest 0 ((badDest.strand 0).predIx 3 0)).mark = true := by decide +kernel

theorem premises_register_frame : ∀ w ∈ stringWords,
    ∃ r x cx, stringRows w.instr = some r ∧ stringBody w.instr = some x ∧ r.Ready w.instr base cx ∧ ordinary base cx.sid
      ∧ goesOn cx ∧ (base.strand cx.sid).vecErr = [] := by
  intro w hw
  obtain ⟨r, cx, hr, hc, ho, hg, -⟩ := ready_base (ready_string w hw)
  have hb := List.all_eq_true.mp (show stringWords.all (fun w => (stringBody w.instr).isSome) = true by decide +kernel) w hw
  obtain ⟨x, hx⟩ := Option.isSome_iff_exists.mp hb
  exact ⟨r, x, cx, hr, hx, hc, ho, hg, (sid_of_ready hc base_issuer) ▸ base_datapaths⟩

/-- A form of each family. -/
def quietWords : List Words :=
  controlWords.take 1 ++ maskWords.take 1 ++ aluWords.take 1 ++ predWords.take 1 ++ stringWords.take 1 ++ matrixWords.take 1
    ++ loadWords.take 1 ++ tileWords.take 1 ++ atomWords.take 1 ++ syncWords.take 1 ++ regionWords.take 1 ++ engineWords.take 1
    ++ launchWords.take 1
theorem ready_quiet : ∀ w ∈ quietWords, ReadyAt quietRows base w := ready_all (by decide +kernel)
theorem premises_quiet_frame : ∀ w ∈ quietWords,
    ∃ r cx, quietRows w.instr = some r ∧ r.Ready w.instr base cx ∧ ordinary base cx.sid ∧ goesOn cx ∧ unprofiled base cx.sid :=
  fun w hw => ready_base (ready_quiet w hw)

/-- LDS.W s20, [s8] and STS.D s10, [s4]: the address, and where it is. -/
def ldsWords : Words := (0x0140FA00, 0x000BFD08, 0x00200000)
def stsWords : Words := (0x0000FA40, 0x10ABFD04, 0x00300000)
def movesAt (w : Words) (rows : Instr → Option Row) (k : AccessKind) (b : MemBody) (a : Dword) (pa : Nat) : Bool :=
  match rows w.instr with
  | none => false
  | some r =>
    let cx := issueOf r base
    let s := atEffect r base cx
    let v := s.translate (s.whoOf cx.sid) k a
    readyB w.instr r base && decide (cx.src.ea cx.sid cx.once b false = .ok a) && a.toNat % memSize b == 0
      && decide (v.2 = .ok ⟨.mem pa, 1, false⟩) && (v.1.imageAt (pa / 4 * 4)).isNone && (v.1.imageAt (pa / 4 * 4 + 4)).isNone
      && !v.1.retiredLine pa && !v.1.mem.marked (pa / 4 * 4) && !v.1.mem.marked (pa / 4 * 4 + 4) && (v.1.strand cx.sid).locket.isEmpty && v.1.lags.isEmpty
      && !(s.strand cx.sid).regionOpen
theorem premises_scalar_load :
    (match ldsWords.instr with
      | .lds h b => h.dest != specDEADLINE && movesAt ldsWords loadRows .read b 0x120000 0x120000
      | _ => false) = true := by decide +kernel
theorem premises_scalar_store :
    (match stsWords.instr with
      | .sts h b => b.size == 3 && movesAt stsWords storeRows .write b 0x110000 0x110000
        && (match storeRows (.sts h b) with
          | some r => (match (issueOf r base).datum b (issueOf r base).once with | .ok x => x == [1] | .error _ => false)
          | none => false)
      | _ => false) = true := by decide +kernel

/-- The same store where its address has another value: the place that it translates to. -/
def atAddr (a : Dword) : State := base.modStrand 0 (withScalar 4 a)
def stsPlace (s : State) : Option Place :=
  match stsWords.instr with
  | .sts h b =>
    match storeRows (.sts h b) with
    | some r =>
      let cx := issueOf r s
      let u := atEffect r s cx
      match cx.src.ea cx.sid cx.once b false with
      | .ok a =>
        if readyB stsWords.instr r s && a.toNat % memSize b == 0 && decide (cx.datum b cx.once = .ok [1]) then
          (u.translate (u.whoOf cx.sid) .write a).2.toOption
        else none
      | .error _ => none
    | none => none
  | _ => none

/-- A unit of device memory that is software-managed, a device register, and one that is read-only. -/
def smState : State := { atAddr 0xFF00000000110000 with smUnits := [(0x11, ())] }
def regState : State := atAddr 0xFF00010080040218
def roState : State := atAddr 0xFF00010080040028
theorem premises_store_copy : stsPlace smState = some ⟨.mem 0x110000, 1, true⟩ ∧ smState.imageAt 0x110000 = none
    ∧ (((smState.strand 0).flips.isEmpty && !(smState.strand 0).regionOpen) = true) := by decide +kernel
theorem premises_store_register :
    (stsPlace regState).map (fun p => regAt p.loc) = some (some rTSRC) ∧ (regExists rTSRC && !regReadOnly rTSRC) = true
      ∧ (stsPlace roState).map (fun p => regAt p.loc) = some (some rFQTAIL) ∧ regReadOnly rFQTAIL = true := by decide +kernel

/-- The stores, with no region open, and with one. -/
def storesAt (s : State) (open_ : Bool) (w : Words) : Bool :=
  match storeForms w.instr with
  | none => true
  | some f =>
    let cx := issueOf f.row s
    readyB w.instr f.row s && ((atEffect f.row s cx).strand cx.sid).regionOpen == open_
      && (open_ || (f.places cx (f.lanes cx) (f.start s cx)).all fun p => (regAt p).isNone)
theorem premises_store_frame : storeWords.all (storesAt base false) = true := by decide +kernel
theorem premises_store_held : storeWords.all (storesAt opened true) = true := by decide +kernel
theorem premises_store_held_byte : (stsPlace opened).map Place.loc = some (.mem 0x110000)
    ∧ ((opened.strand 0).regionOpen) = true := by decide +kernel
theorem premises_stores : (storeWords.filter fun w => (storeForms w.instr).isSome).length = 5 := by decide +kernel

/-- MACC.Z and MACC.Z.ALL, NOP, GETPC: their constructors are among the forms that are ready. -/
theorem premises_macc_nop_getpc :
    ((controlWords ++ matrixWords).filterMap fun w => match w.instr with
      | .nop _ _ => some 0 | .getpc _ _ => some 1 | .maccZ _ _ => some 2 | .maccZAll _ _ => some 3 | _ => none) = [0, 1, 2, 3] := by
  decide +kernel

/-- A form that reads $event: MOV s20, $event. -/
def eventWords : Words := (0x0140F84D, 0x00000213, 0)
theorem premises_event :
    (match aluForms eventWords.instr with
      | some a => readyB eventWords.instr a.row base && (readOps a.b a.r).contains (.spec specEVENT)
      | none => false) = true := by decide +kernel

/-! ### Traps -/

/-- A form issues in a state. -/
theorem issues_of {i : Instr} {s : State} {sid idx : Nat} {f : Frag} (h : s.issuer = some (sid, idx, f))
    (hb : (s.strand sid).budgetCorrupt = false) (hl : s.sysLevel sid = true) : Issues i s sid idx f :=
  ⟨h, hb, fun _ => hl⟩

theorem base_issues (i : Instr) : Issues i base 0 0 frag0 := issues_of base_issuer (by decide +kernel) (by decide +kernel)

/-- A form that issues reads its sources: nothing is reserved, none is still due, and no word has wrong parity. -/
def readsB (i : Instr) (s : State) : Bool :=
  match formRows i with
  | some r => admitted s i && (s.strand 0).available r.h (r.uses s) frag0.mask && decide ((s.strand 0).flips = [])
  | none => false
theorem reads_of {i : Instr} {s : State} {r : Row} (hi : Issues i s 0 0 frag0) (hr : formRows i = some r)
    (h : readsB i s = true) : Reads i r s 0 0 frag0 := by
  simp only [readsB, hr, Bool.and_eq_true, decide_eq_true_eq] at h
  exact ⟨hi, h.1.1, h.1.2, h.2⟩
theorem reads_some {i : Instr} {s : State} (hi : Issues i s 0 0 frag0) (h : readsB i s = true) :
    ∃ r, formRows i = some r ∧ Reads i r s 0 0 frag0 := by
  cases hr : formRows i with
  | none => simp [readsB, hr] at h
  | some r => exact ⟨r, rfl, reads_of hi hr h⟩

/-- What stands before an effect, as the statements on traps ask it. -/
def standing (i : Instr) (s : State) : Option (Bool × Bool × Bool × Bool) :=
  (formRows i).map fun r => (admitted s i, (r.uses s).any fun u => u.over (s.strand 0), (r.uses s).any fun u => u.protected (s.strand 0),
    leftLanes r s 0 frag0 == 0)

/-- IADD with TYPE set; an SRD of a register that does not exist; a BRX whose table is not at a line. -/
theorem premises_reserved_trap :
    ([at3 0x1000F040 0 0, at3 0x0140F340 0x0FF00000 0, at3 0x0000F00C 1 0x00000104].map fun i => (standing i base).map (·.1))
      = [some false, some false, some false] := by decide +kernel

/-- A budget of 8 vectors: v8 is beyond it. -/
def tight : State := base.modStrand 0 fun st => st.setCtl ctlBUDGET (mk64 [(0, 1), (8, 64), (16, 16)])
theorem premises_budget_trap :
    (standing (at3 0x0000F440 0x00000008 1) tight).map (fun x => (x.1, x.2.1)) = some (true, true)
      ∧ (standing (at3 0x0000F440 0x00000007 1) tight).map (fun x => (x.1, x.2.1)) = some (true, false)
      ∧ ∃ r, formRows (at3 0x0000F440 0x00000008 1) = some r ∧ Reads (at3 0x0000F440 0x00000008 1) r tight 0 0 frag0 :=
  ⟨by decide +kernel, by decide +kernel,
    reads_some (issues_of (by decide +kernel) (by decide +kernel) (by decide +kernel)) (by decide +kernel)⟩

/-- A region whose live-in set has v4. -/
def live : State := opened.modStrand 0 fun st => st.openRegion 0x100001 0 ⟨[0x10, 0, 0, 0], 0, 0⟩
theorem premises_live_in_trap :
    standing (at3 0x0040F440 0x00000006 1) live = some (true, false, true, false)
      ∧ ∃ r, formRows (at3 0x0040F440 0x00000006 1) = some r ∧ Reads (at3 0x0040F440 0x00000006 1) r live 0 0 frag0 :=
  ⟨by decide +kernel, reads_some (issues_of (by decide +kernel) (by decide +kernel) (by decide +kernel)) (by decide +kernel)⟩

/-- A guard that passes no lane, and one whose word is poisoned. -/
def badGuard : State := base.modStrand 0 fun st => st.setWord (st.predIx 1 0) ⟨0x20010000, true, true, false⟩
theorem premises_no_active_lane :
    standing (at3 0x00403040 0x00002404 0) base = some (true, false, false, true)
      ∧ (∃ r, formRows (at3 0x00403040 0x00002404 0) = some r ∧ Reads (at3 0x00403040 0x00002404 0) r base 0 0 frag0)
      ∧ standing (at3 0x00401040 0x00002404 0) badGuard = some (true, false, false, true)
      ∧ ((badGuard.strand 0).guard badGuard.tick (.read 0x00401040) 1).2 = [(0, 0x20010000)] :=
  ⟨by decide +kernel, reads_some (base_issues _) (by decide +kernel), by decide +kernel, by decide +kernel⟩

theorem premises_privilege_trap :
    (systemRows (at3 0x0040F340 0x10100000 0)).isSome = true ∧ user.issuer = some (0, 0, frag0) ∧ user.sysLevel 0 = false
      ∧ (user.strand 0).budgetCorrupt = false :=
  ⟨by decide +kernel, user_issuer, by decide +kernel, by decide +kernel⟩

/-- The strand of `base` with TSTATE at each of its four values. -/
def trapState (n : Nat) : State := base.modStrand 0 fun st => st.setCtl ctlTSTAT (BitVec.ofNat 64 n)
theorem premises_deferred_trap : ∀ n < 4, ∃ st, aget (trapState n).strands 0 = some st ∧ st.clasp = none ∧ st.contained = false
    ∧ st.frag? 0 = some frag0 ∧ (1 : Lanes) &&& ~~~frag0.mask = 0 ∧ st.tstate = n ∧ st.freeSlot = some 0 := by
  have h : ∀ n < 4, (match aget (trapState n).strands 0 with
    | some st => st.clasp.isNone && !st.contained && decide (st.frag? 0 = some frag0) && (1 : Lanes) &&& ~~~frag0.mask == 0
        && st.tstate == n && decide (st.freeSlot = some 0)
    | none => false) = true := by decide +kernel
  intro n hn
  have := h n hn
  split at this
  · next st hs => simp at this; exact ⟨st, hs, by simpa [and_assoc] using this⟩
  · cases this

/-- A trap that is held, with a handler and without. -/
def dueAt (h : Dword) : Bool :=
  match aget (heldTrap h).strands 0 with
  | some st => st.trapDue && st.ctl ctlHANDLER == h && (aget st.splits st.freeEntry).isNone
  | none => false
theorem premises_held_trap : dueAt 0x100000 = true ∧ dueAt 0 = true ∧ pcInvalid 0x100000 = false
    ∧ dueAt 7 = true ∧ pcInvalid 7 = true := by decide +kernel

/-- A handler whose instruction is no target. -/
theorem premises_unmarked_handler :
    dueAt 0x100001 = true ∧ pcInvalid 0x100001 = false
      ∧ (match ((heldTrap 0x100001).fetchLine 0 0x100001).2 with
        | .ok l => !tgtBit l 1
        | .error _ => false) = true := by decide +kernel

theorem premises_containment :
    (match aget base.strands 0, aget base.grids 0 with
      | some st, some g => st.clasp.isNone && !st.contained && st.life != .retired && st.gid == 0 && g.rcd.getD 7 0 == 0
      | _, _ => false) = true := by decide +kernel

/-- The launch of `base` with a status area of four slots at 0x119000. -/
def statused : State := base.modGrid 0 fun g => { g with rcd := (g.rcd.set 7 0x119000).set 8 4 }
theorem premises_status_word :
    (match (statused.modGrid 0 fun g => { g with
          events := g.events + 1
          firstWord := if g.firstWord = 0 then 5 else g.firstWord
          firstTime := if g.firstWord = 0 then statused.ptime else g.firstTime
          causes := aput g.causes 0x46 ((aget g.causes 0x46).getD 0 + 1) }).ctxAdd (statused.grid 0).ctx
            ((statused.grid 0).rcd.getD 7 0) 1 with
      | (v, some i) => i == 0 && ((statused.grid 0).rcd.getD 7 0 != 0)
        && (match v.translate (v.whoCtx (statused.grid 0).ctx) .write ((statused.grid 0).rcd.getD 7 0 + 8 + 8 * i) with
          | (x, .ok p) => p.loc == .mem 0x119008 && (x.imageAt 0x119008).isNone && (x.imageAt 0x11900C).isNone && !x.retiredLine 0x119008
          | _ => false)
      | _ => false) = true := by decide +kernel

/-- A fragment whose line is not mapped, with the queue free, and with entries in the buffer. -/
def unmapped : State := fragIs (fun f => { f with pc := 0x40000000 }) base
theorem premises_fetch_trap :
    ((unmapped.strand 0).frag? 0).map (fun f => (f.pc, f.mayIssue)) = some (0x40000000, true)
      ∧ (match (unmapped.fetchLine 0 0x40000000).2 with | .error c => c == 0x48 | .ok _ => false) = true
      ∧ (unmapped.fqBuf.isEmpty && !unmapped.fqFull) = true
      ∧ (match ({ unmapped with fqBuf := [[]] }.fetchLine 0 0x40000000).2 with | .error c => c == 0x48 | .ok _ => false) = true := by
  decide +kernel

/-! ### Steps -/

/-- A NOP placed where the next step fetches. -/
def placed : State := State.reset.withFetchWord 96 0xF001

theorem premises_canonical : placed.Canonical ∧ ∃ t, step placed = .next t := by
  refine ⟨by unfold State.Canonical; decide +kernel, ?_⟩
  have h : (match step placed with | .next _ => true | _ => false) = true := by decide +kernel
  split at h
  · next t ht => exact ⟨t, ht⟩
  · cases h

/-- It issues: with its line fetched, from a PC that is valid, and no copy of the line held. -/
theorem premises_step_runs :
    (match placed.advance.nextAction with
      | .issue sid idx =>
        let u := placed.advance
        (match (u.strand sid).frag? idx with
          | some f =>
            let v := ((u.countWaits sid idx).modFrag sid idx Frag.chosen).issuing sid idx
            !pcInvalid f.pc && f.due.isNone && (match (v.fetchLine sid f.pc).2 with | .ok _ => true | .error _ => false)
              && (match v.translate (v.whoFetch sid) .fetch (f.pc &&& 0xFFFFFFFFFFFFFFC0) with
                | (w, .ok p) => v.icache.isEmpty && (v.strand sid).lines.isEmpty && v.oldLines.isEmpty && parityOk (w.memLine p) && lineRsvOk (w.memLine p)
                | _ => false)
          | none => false)
      | _ => false) = true := by decide +kernel

/-- MOV s20, s4, placed where the next step fetches, while s4 is still due. -/
def lateWords : Nat := 0x104 * 2 ^ 32 + 0x0140F84D
def late : State :=
  (State.reset.withFetchWord 96 lateWords).modStrand 0 fun st => { st with pend := [(st.scIx 4, 0)] }
theorem premises_not_ready_waits :
    (match (late.strand 0).frag? 0 with
      | some f =>
        f.wait == .ready &&
        (match (((late.countWaits 0 0).modFrag 0 0 Frag.chosen).issuing 0 0).fetchInsn 0 0 f with
          | .run i t => (match exec i t with | .next u => u.notReady | _ => false)
          | _ => false)
      | none => false) = true := by decide +kernel

/-- A NOP in the last unit that a PC names. -/
def lastUnit : State := fragIs (fun f => { f with pc := 0x00FFFFFFFFFFFFC4 }) base
theorem premises_past_the_end : (∀ w ∈ ([(0x0000F001, 0, 0), (0x0000F00B, 0x00000104, 0)] : List Words), ReadyAt controlRows lastUnit w)
    ∧ (match Words.instr (0x0000F001, 0, 0), Words.instr (0x0000F00B, 0x00000104, 0), lastUnit.issuer with
        | .nop _ _, .pad _ _, some _ => true
        | _, _, _ => false) = true
    ∧ pcInvalid (pcPlus 0x00FFFFFFFFFFFFC4 1) = true
    ∧ (match (lastUnit.strand 0).frag? 0, (lastUnit.strand 0).clasp with
        | some f, none => f.pc == 0x00FFFFFFFFFFFFC4 && f.mask != 0
        | _, _ => false) = true
    ∧ (lastUnit.strand 0).life = .resident ∧ (lastUnit.strand 0).contained = false ∧ (lastUnit.strand 0).tstate = 0 :=
  ⟨ready_all (by decide +kernel), by decide +kernel, by decide +kernel, by decide +kernel, by decide +kernel, by decide +kernel,
    by decide +kernel⟩

/-- NOP with a poisoned guard, and with a reserved field. -/
theorem premises_nop :
    (∃ r, formRows (at3 0x00001001 0 0) = some r ∧ Reads (at3 0x00001001 0 0) r badGuard 0 0 frag0)
      ∧ legal (at3 0x1000F001 0 0) = false ∧ Issues (at3 0x1000F001 0 0) base 0 0 frag0
      ∧ (match at3 0x00001001 0 0, at3 0x1000F001 0 0 with | .nop _ _, .nop _ _ => true | _, _ => false) = true :=
  ⟨reads_some (issues_of (by decide +kernel) (by decide +kernel) (by decide +kernel)) (by decide +kernel), by decide +kernel,
    base_issues _, by decide +kernel⟩

theorem premises_issue_only_ready : (match placed.nextAction with | .issue sid idx => sid == 0 && idx == 0 | _ => false) = true := by
  decide +kernel

theorem premises_decode_encode : WellFormed (at3 0x0040F340 0x10100000 0) ∧ (encode (at3 0x0040F340 0x10100000 0)).isSome = true := by
  unfold WellFormed; decide +kernel

theorem premises_forms_answer : (formRows (at3 0x0000F001 0 0)).isSome = true ∧ base.issuer ≠ none :=
  ⟨by decide +kernel, by rw [base_issuer]; exact nofun⟩

/-- Where the clauses on units meet: a last unit of a line, and the first and last units outside the range. -/
theorem premises_unit_numbering :
    pcInvalid 0x100004 = false ∧ fld (0x100004 : Dword) 0 3 = 4 ∧ unitOf 0x100004 + 1 < 5 * 2 ^ 50
      ∧ unitOf 0 + -1 < 0 ∧ 5 * 2 ^ 50 ≤ unitOf 0x00FFFFFFFFFFFFC4 + 1 ∧ unitOf 0x00FFFFFFFFFFFFC4 + 0 < 5 * 2 ^ 50 := by decide +kernel

/-- The largest number of F8A, and the first and last formats. -/
theorem premises_narrow_float :
    ([3, 4, 5, 6, 7].map fun k => isFin ((floatFmt k).decode 1) && magOf ((floatFmt k).decode 1) != (0, (floatFmt k).emin))
      = [true, true, true, true, true] := by decide +kernel

end Sys2Proof.Tests
end

section
/-! PROOF. The state after reset: every memory empty, every register at its reset value (R385). -/
namespace Sys2Proof.Machine

/-- After reset no register has been stored to, so each reads as its reset value. -/
theorem State.reg_reset (r : RegId) : State.reset.reg r = resetReg r := rfl

/-- Settles O51: nothing is listed in any memory. -/
theorem resetCanonical : Obligations.ResetCanonical := by
  unfold Obligations.ResetCanonical State.Canonical
  exact ⟨rfl, rfl, rfl, nofun, nofun⟩

/-- The dispatch registers of the pools above the first reset to 0. -/
theorem State.reset_dispatch (p : ℕ) (h1 : 1 ≤ p) (h8 : p < 8) : State.reset.reg (rDPCORE p) = 0 ∧ State.reset.reg (rDPMEM p) = 0
    ∧ State.reset.reg (rDPQUE p) = 0 ∧ State.reset.reg (rDPSTAT p) = 0 := by
  rw [State.reg_reset, State.reg_reset, State.reg_reset, State.reg_reset]
  interval_cases p <;> exact ⟨rfl, rfl, rfl, rfl⟩

/-- The eight channel and spare maps of the stacks reset to one value (R474). -/
theorem State.reset_channels (k : ℕ) (h : k < 8) : State.reset.reg (rCHSPR k) = 0xFF00FF000000FFFF := by
  rw [State.reg_reset]
  interval_cases k <;> rfl

/-- The link queues' registers lie above every device register with a reset value of its own. -/
theorem State.reset_linkQueue (q : ℕ) : State.reset.reg (rLQCFG q) = 0 := by
  rw [State.reg_reset]
  have above : ¬0x1400 + q ≤ 0x6F := by omega
  have apart : ∀ i ≤ 0x6F, 0x1400 + q ≠ i := fun i hi he => above (he ▸ hi)
  simp [rLQCFG, resetReg, apart, above]

/-- Settles O50: each register by its reset value, each part of the state by its field. -/
theorem resetValues : Obligations.ResetValues :=
  ⟨rfl, rfl, rfl, rfl, rfl, State.reset_dispatch, rfl, State.reset_channels, fun _ => ⟨rfl, rfl, rfl⟩, State.reset_linkQueue,
    rfl, rfl, rfl, rfl, rfl, rfl, rfl⟩

end Sys2Proof.Machine
end

section
/-! PROOF. Every step keeps every memory canonical (O52): each function of the model that answers a state keeps
`State.Canonical`, in the order of the model's files, then each instruction, each event and each action. -/
namespace Sys2Proof.Machine

/-- A state with the memories of a canonical one is canonical. -/
theorem State.Canonical.same {s t : State} (h : s.Canonical)
    (e : (t.mem, t.host, t.bar4, t.remote, t.spads) = (s.mem, s.host, s.bar4, s.remote, s.spads)) : t.Canonical := by
  simp only [Prod.mk.injEq] at e
  obtain ⟨h1, h2, h3, h4, h5⟩ := e
  exact h.congr h1 h2 h3 h4 h5

/-- The state of an answer that has been taken apart. -/
theorem State.Canonical.of_eq {t : State} {α : Type} {p : State × α} {a : α} (h : p.1.Canonical) (e : p = (t, a)) :
    t.Canonical := by
  subst e
  exact h

/-- What each step of a fold keeps, the fold keeps, whatever else it gathers. -/
theorem State.Canonical.foldFst {α β : Type} {f : State × β → α → State × β}
    (hf : ∀ p x, p.1.Canonical → (f p x).1.Canonical) (xs : List α) {p : State × β} (h : p.1.Canonical) :
    (xs.foldl f p).1.Canonical := by
  induction xs generalizing p with
  | nil => exact h
  | cons x xs ih => exact ih (hf p x h)

/-- An outcome that is a state is a canonical one. -/
def Out.Canonical (o : Out) : Prop := ∀ t, o = .next t → t.Canonical

theorem Out.Canonical.next {s : State} (h : s.Canonical) : Out.Canonical (.next s) := by
  rintro _ ⟨⟩
  exact h

theorem Out.Canonical.fault {r : Fault} : Out.Canonical (.fault r) := nofun

theorem Out.Canonical.refused {r : Refusal} : Out.Canonical (.refused r) := nofun

theorem State.Canonical.ite {s t : State} {p : Prop} [Decidable p] (h : s.Canonical) (h' : t.Canonical) :
    (if p then s else t).Canonical := by
  split
  · exact h
  · exact h'

theorem State.Canonical.iteFst {α : Type} {x y : State × α} {p : Prop} [Decidable p] (h : x.1.Canonical) (h' : y.1.Canonical) :
    (if p then x else y).1.Canonical := by
  split
  · exact h
  · exact h'

theorem Out.Canonical.ite {o o' : Out} {p : Prop} [Decidable p] (h : o.Canonical) (h' : o'.Canonical) :
    Out.Canonical (if p then o else o') := by
  split
  · exact h
  · exact h'

section
variable {s t : State} {i j k l m n : ℕ} {a b c : Dword} {w w' : Word} {cx : Cx} {hd : Hdr} {st : Strand} {p : Loc} {pl : Place}
  {who : Who} {ws : List Word} {ds : List Dword} {e e' e'' : Bool} {x y z : Lanes} {v : ReplyVal} {cmd : Cmd} {pk : Packet}
  {op : TileOp} {f : Frag} {hs : List Hold} {q q' : BitVec 8} {mb : MemBody} {cb : CtlBody} {ab : AluBody} {tb : MatBody}
  {yb : AsyBody} {sb : SysBody} {lr : LaneReq} {mw : MWord} {us : List Use} {u : Use} {mo : Monitor} {r : RegId} {ns : List ℕ}
  {o o' : Operand} {on : Option ℕ} {g : Grid} {oq : OutReq} {ins : Instr} {ak : AccessKind} {ag : Agent} {ri : RecInfo}
  {rvs rvs' : List (Option ℕ × ReplyVal)} {ow : Option Word} {mp : MatPass} {cr : CohReq} {rms : RemStore} {b3 : BitVec 3}
  {rs : List (ℕ × ReplyVal)} {rd : Reads} {fn : List LaneIn → List (ℕ × ReplyVal)} {tc : TargetCheck} {mws : List MWord}
  {af : AtomForm} {rp : Reply} {el : Elem} {vw vw' : Option View} {opl : Option Place} {msg : HaloMsg} {nd : Need}
  {sw : Switching} {tr : TtRec} {lq : LqRec} {zn : Zenith} {fq : FabReq} {latch : LatchRec} {d0 d1 : Src}

/-! ### Physical storage -/

/-- Some of the entries of a map in rising order are in rising order. -/
theorem asorted_filter {α : Type} {p : ℕ × α → Bool} {m : List (ℕ × α)} (h : asorted m = true) : asorted (m.filter p) = true := by
  induction m with
  | nil => rfl
  | cons e m ih =>
    obtain ⟨h1, h2⟩ := (asorted_cons e.1 e.2 m).mp h
    rw [List.filter_cons]
    split
    · exact (asorted_cons _ _ _).mpr ⟨fun x hx => h1 x (List.mem_of_mem_filter hx), ih h2⟩
    · exact ih h2

theorem State.Canonical.setSpad {mem : Mem} (h : s.Canonical) (hm : mem.wf = true) : (s.setSpad k mem).Canonical := by
  obtain ⟨h1, h2, h3, h4, h5⟩ := h
  exact ⟨h1, h2, h3, h4, forall_aputD _ _ _ _ _ h5 hm⟩

theorem State.Canonical.dyingSpad (h : s.Canonical) : (s.dyingSpad i j).Canonical := .ite (h.countUp _ _) h

theorem State.Canonical.drySpad (h : s.Canonical) : (s.drySpad i j k).Canonical := .fold (fun _ _ hs => hs.dyingSpad) _ h

/-- A memory of which parts are no longer listed. -/
theorem Mem.wf_filter {mm : Mem} {c d : Nat → Bool} (h : mm.wf = true) :
    (Mem.mk (mm.cells.filter fun e => c e.1) (mm.marks.filter fun e => d e.1)).wf = true := by
  rw [Mem.wf_iff] at *
  obtain ⟨h1, h2, h3⟩ := h
  exact ⟨asorted_filter h1, List.all_eq_true.mpr fun e he => List.all_eq_true.mp h2 e (List.mem_of_mem_filter he),
    asorted_filter h3⟩

theorem State.Canonical.zeroSpad (h : s.Canonical) : (s.zeroSpad i j k).Canonical := by
  have hd : (s.drySpad i j k).Canonical := h.drySpad
  let out (e : Nat) : Bool := !(j ≤ e && e < j + k)
  unfold State.zeroSpad
  refine .same (hd.setSpad ?_) rfl
  exact Mem.wf_filter (c := out) (d := out) (hd.spad i)

theorem State.Canonical.liftMarks (h : s.Canonical) : (s.liftMarks i j k).Canonical := by
  have hf := Mem.wf_filter (c := fun _ => true) (d := fun e => !(j ≤ e && e < j + k)) (h.spad i)
  rw [List.filter_true] at hf
  exact h.setSpad hf

theorem State.Canonical.freeSpad (h : s.Canonical) : (s.freeSpad i j k).Canonical := h.drySpad.liftMarks

/-! ### Registers and the rings in memory -/

theorem State.Canonical.setRegF (h : s.Canonical) : (s.setRegF r i j k).Canonical := h.setReg _ _

theorem State.Canonical.bump (h : s.Canonical) : (s.bump r i j).Canonical := h.setRegF

theorem State.Canonical.touchRetired (h : s.Canonical) : (s.touchRetired p).Canonical := by
  unfold State.touchRetired
  split
  · exact .ite (.bump (.same h rfl)) h
  · exact h

theorem State.Canonical.logErr (h : s.Canonical) : (s.logErr i j k l m a b c).Canonical :=
  .ite h (.ite h.bump ((h.putDwords _ _).setRegF))

theorem State.Canonical.report (h : s.Canonical) : (s.report i j k a).Canonical := h.logErr

theorem State.Canonical.fqWrite (h : s.Canonical) : (s.fqWrite ds).Canonical := by
  unfold State.fqWrite
  with_reducible refine .setRegF (.ite (.same ?_ rfl) (h.putDwords _ _))
  exact h.putDwords _ _

theorem State.Canonical.fqLose (h : s.Canonical) : (s.fqLose).Canonical := h.setReg _ _

theorem State.Canonical.fqPost (h : s.Canonical) : (s.fqPost i ds).Canonical := .ite h.fqWrite (.ite h.fqLose (h.same rfl))

theorem State.Canonical.jWrite {e₀ : JEntry} (h : s.Canonical) : (s.jWrite e₀).Canonical := (h.putDwords _ _).setReg _ _

theorem State.Canonical.journal {e₀ : JEntry} (h : s.Canonical) : (s.journal e₀).Canonical :=
  .ite h (.ite h.jWrite.setRegF.report.jWrite h.jWrite)

theorem State.Canonical.note (h : s.Canonical) : (s.note i j a).Canonical := h.journal

theorem State.Canonical.dbgWrite (h : s.Canonical) : (s.dbgWrite ds).Canonical := (h.putDwords _ _).setRegF

theorem State.Canonical.dbgPost (h : s.Canonical) : (s.dbgPost i j k a b).Canonical := .ite h.dbgWrite (h.same rfl)

theorem State.Canonical.dbgDrain (h : s.Canonical) : (s.dbgDrain).Canonical := by
  unfold State.dbgDrain
  refine .fold (fun _ _ hs => ?_) _ h
  with_reducible refine .ite hs (.same ?_ rfl)
  exact hs.dbgWrite

theorem State.Canonical.profile (h : s.Canonical) : (s.profile i j k l a x ds).Canonical := .ite h.bump ((h.putDwords _ _).setRegF)

theorem State.Canonical.sample (h : s.Canonical) : (s.sample i lr p e).Canonical :=
  .ite h (.ite (h.same rfl) (.profile (.same h rfl)))

theorem State.Canonical.barrierCheck (h : s.Canonical) : (s.barrierCheck i j k a x e).Canonical := .ite h.profile h

/-! ### Translation -/

theorem State.Canonical.tlbFill (h : s.Canonical) : (s.tlbFill i j k l a).Canonical := h.same rfl

theorem State.Canonical.countWalk {wk : Walk} (h : s.Canonical) : (s.countWalk i j k wk).Canonical := by
  have hf {ns : List Nat} : (ns.foldl (fun (t : State) a => t.touchRetired (.mem a)) s).Canonical :=
    .fold (fun _ _ hs => hs.touchRetired) _ h
  unfold State.countWalk State.setReg
  with_reducible exact .ite h (hf.same rfl)

theorem State.Canonical.leafFor (h : s.Canonical) : (s.leafFor who ak i).1.Canonical := by
  unfold State.leafFor
  dsimp only
  split
  · exact h.countWalk
  · split
    · exact h
    · split
      · split
        · exact h.countWalk
        · exact h.countWalk.tlbFill
      · exact h.countWalk

theorem State.Canonical.transVa (h : s.Canonical) : (s.transVa who ak i).1.Canonical := by
  unfold State.transVa
  split
  · exact h.leafFor.of_eq ‹_›
  · exact h.leafFor.of_eq ‹_›

theorem State.Canonical.translate (h : s.Canonical) : (s.translate who ak a).1.Canonical := by
  unfold State.translate
  refine .iteFst h.transVa ?_
  refine .iteFst ?_ ?_
  · split
    · exact h
    · exact h
  · refine .iteFst ?_ ?_
    · split
      · exact h
      · exact h
    · refine .iteFst (.iteFst h ?_) h
      split
      · exact h
      · exact h

theorem State.Canonical.tlbDrop {p₀ : TlbEnt → Bool} (h : s.Canonical) : (s.tlbDrop on p₀).Canonical := h.same rfl

/-! ### System registers -/

theorem State.Canonical.regRead (h : s.Canonical) : (s.regRead ag r).1.Canonical := .ite h (h.setReg _ _)

theorem State.Canonical.regPut (h : s.Canonical) : (s.regPut r a).Canonical := h.setReg _ _

theorem State.Canonical.writeCStore (h : s.Canonical) : (s.writeCStore ag i a).Canonical := by
  unfold State.writeCStore State.setRegF State.setReg
  dsimp only
  with_reducible exact .ite h (h.same rfl)

theorem State.Canonical.writeCResv (h : s.Canonical) : (s.writeCResv ag i a).Canonical := .ite h h.regPut

theorem State.Canonical.writePart (h : s.Canonical) : (s.writePart ag i a).Canonical :=
  .ite h (.ite (.ite h h.regPut) (.ite (.ite h h.regPut) (.ite h h.regPut)))

theorem State.Canonical.writeLqcfg (h : s.Canonical) : (s.writeLqcfg ag i a).Canonical := .ite h h.regPut

theorem State.Canonical.writeJournal (h : s.Canonical) : (s.writeJournal i a).Canonical := .ite h (.ite h h.regPut)

theorem State.Canonical.writeErrLog (h : s.Canonical) : (s.writeErrLog i a).Canonical :=
  .ite h (.ite h.regPut.setRegF.setRegF h.regPut)

theorem State.Canonical.writeOverflow (h : s.Canonical) : (s.writeOverflow i a).Canonical := .ite h (h.same rfl)

theorem State.Canonical.writeTsrc (h : s.Canonical) : (s.writeTsrc a).Canonical := .ite h h.regPut

theorem State.Canonical.writeProfile (h : s.Canonical) : (s.writeProfile i j a).Canonical :=
  .ite h (.ite h (.ite h.regPut.setRegF h.regPut))

theorem State.Canonical.writeFqHead (h : s.Canonical) : (s.writeFqHead a).Canonical := h.regPut

theorem State.Canonical.writeFqSize (h : s.Canonical) : (s.writeFqSize a).Canonical :=
  .ite h (h.regPut.writeFqHead.setRegF.setReg _ _)

theorem State.Canonical.writeFactb (h : s.Canonical) : (s.writeFactb a).Canonical := h.same rfl

theorem State.Canonical.dropPost (h : s.Canonical) : (s.dropPost i).Canonical := h.bump

theorem State.Canonical.post {x₀ : Post} (h : s.Canonical) : (s.post x₀).Canonical := .ite h.dropPost (h.same rfl)

theorem State.Canonical.writeCrtab (h : s.Canonical) : (s.writeCrtab ag a).Canonical := .ite (h.same rfl) h

theorem State.Canonical.writeShaddr (h : s.Canonical) : (s.writeShaddr ag a).Canonical := h.same rfl

theorem State.Canonical.writeDevhead (h : s.Canonical) : (s.writeDevhead a).Canonical := h.regPut.dbgDrain

theorem State.Canonical.regWrite (h : s.Canonical) : (s.regWrite ag r a).Canonical := by
  unfold State.regWrite
  split
  · exact .ite h.writeCStore (.ite h.writeCResv (.ite h.writeProfile h.regPut))
  · exact h.regPut
  · exact .ite h.writeFqSize (.ite h.writeFqHead (.ite h.writePart (.ite h.writeFactb (.ite h.writeOverflow
      (.ite h.writeCrtab (.ite h.writeTsrc (.ite h.writeJournal (.ite h.writeErrLog (.ite h.writeShaddr
      (.ite h.writeDevhead (.ite h.writeLqcfg (.ite h.dropPost h.regPut))))))))))))

/-! ### Register words, fault records and passes of the matrix units -/

theorem State.Canonical.wrImg (h : s.Canonical) : (s.wrImg i j mw).Canonical := (h.countDying _ _).modStrand _ _

theorem State.Canonical.record (h : s.Canonical) : (s.record i ri).1.Canonical := h.setStrand _ _

theorem State.Canonical.sharedToken (h : s.Canonical) : (s.sharedToken i j ri).1.Canonical := by
  unfold State.sharedToken
  split
  · exact .ite h (h.modStrand _ _)
  · exact h.record.modStrand _ _

theorem State.Canonical.shareTokens (h : s.Canonical) : (s.shareTokens i j rvs rvs').Canonical := by
  unfold State.shareTokens
  refine .fold (fun _ _ hs => ?_) _ h
  split
  · exact .ite hs (hs.modStrand _ _)
  · exact hs

theorem State.Canonical.endTag (h : s.Canonical) : (s.endTag i j).Canonical := .ite h (h.modStrand _ _)

theorem State.Canonical.parityAt (h : s.Canonical) : (s.parityAt i a j).Canonical := by
  unfold State.parityAt
  dsimp only
  split
  · exact h
  · exact .ite ((h.modStrand _ _).bump) ((((h.modStrand _ _).record).modStrand _ _).bump)

theorem State.Canonical.checkParity (h : s.Canonical) : (s.checkParity i a ns).Canonical :=
  .ite h (.fold (fun _ _ hs => hs.parityAt) _ h)

theorem State.Canonical.putAccRow {es : List (ℕ × Except Word ℕ)} (h : s.Canonical) : (s.putAccRow i j k es).Canonical := by
  unfold State.putAccRow
  refine .fold (fun _ _ hs => ?_) _ ?_
  · dsimp only
    split
    · exact hs.wrImg
    · exact .ite hs hs.wrImg
    · exact .ite hs hs.wrImg
    · exact hs
  · refine .fold (fun _ _ hs => ?_) _ h
    split
    · exact hs.wrImg.wrImg
    · exact hs.wrImg.wrImg

theorem State.Canonical.putSteps {rs : List (ℕ × Except Word StepRes)} (h : s.Canonical) :
    (s.putSteps i j k a on ow rs).1.Canonical := by
  unfold State.putSteps
  refine .ite ?_ ?_
  · refine .modStrand (.putAccRow ?_) _ _
    split
    · exact h.record
    · exact h
  · refine .putAccRow ?_
    split
    · exact h.record
    · exact h

theorem State.Canonical.zeroRows (h : s.Canonical) : (s.zeroRows i j ns).Canonical := .fold (fun _ _ hs => .ite hs hs.putAccRow) _ h

theorem State.Canonical.checkRows (h : s.Canonical) : (s.checkRows i a j ns).Canonical := h.checkParity

theorem State.Canonical.markRows (h : s.Canonical) : (s.markRows i j ns w).Canonical := .fold (fun _ _ hs => hs.putAccRow) _ h

theorem State.Canonical.settleLines {ls : List ((Nat × Nat × Nat) × Option Nat × ColAt)} (h : s.Canonical) :
    (s.settleLines i a j ls).1.Canonical := by
  refine .foldFst (fun _ _ hs => ?_) _ (p := (s, [])) h
  split
  · exact hs
  · exact hs
  · exact hs.sharedToken

theorem State.Canonical.applyPass (h : s.Canonical) : (s.applyPass mp).Canonical := by
  have hm : ({ s with matQ := s.matQ.erase mp } : State).Canonical := h.same rfl
  unfold State.applyPass
  dsimp only
  split
  · exact hm.markRows
  · split
    · exact hm.record.markRows
    · refine .endTag (.foldFst (fun _ _ hs => hs.putSteps) _ (.settleLines ?_))
      split
      · exact hm.checkRows.zeroRows.modStrand _ _
      · exact hm.checkRows

theorem State.Canonical.drainTile (h : s.Canonical) : (s.drainTile i j x).Canonical :=
  .fold (fun _ _ hs => hs.applyPass) _ h

theorem State.Canonical.drainStrand (h : s.Canonical) : (s.drainStrand i).Canonical :=
  .fold (fun _ _ hs => hs.applyPass) _ h

theorem State.Canonical.drainAt (h : s.Canonical) : (s.drainAt i p).Canonical := by
  unfold State.drainAt
  refine .ite h ?_
  split
  · split
    · exact .ite h (.ite h.drainTile (.ite h.drainStrand h))
    · exact h
  · exact h

/-! ### The directory -/

theorem State.Canonical.splitFor (h : s.Canonical) : (s.splitFor i n).Canonical := by
  induction n generalizing s with
  | zero => exact h
  | succ n ih =>
    rw [State.splitFor]
    dsimp only
    split
    · exact h
    · exact ih (h.same rfl)

theorem State.Canonical.touchUnit (h : s.Canonical) : (s.touchUnit i).Canonical := h.same rfl

theorem State.Canonical.grantShared (h : s.Canonical) : (s.grantShared i j).Canonical := .ite h (h.same rfl)

theorem State.Canonical.grantModified (h : s.Canonical) : (s.grantModified i j).Canonical := h.same rfl

theorem State.Canonical.cohRequest (h : s.Canonical) : (s.cohRequest i j cr).Canonical := by
  unfold State.cohRequest
  refine .ite h ?_
  refine .ite ?_ ?_
  · refine .splitFor (.touchUnit ?_)
    split
    · exact h.grantShared
    · exact h.grantModified
  · split
    · exact h.grantShared
    · exact h.grantModified

theorem State.Canonical.homeAccess (h : s.Canonical) : (s.homeAccess i cr).Canonical := by
  unfold State.homeAccess
  refine .ite h ?_
  split
  · exact h.same rfl
  · exact h.same rfl

theorem State.Canonical.cacheAccess (h : s.Canonical) : (s.cacheAccess on p cr).Canonical := by
  unfold State.cacheAccess
  split
  · exact h
  · split
    · exact h.cohRequest
    · exact h.homeAccess

/-! ### Accesses through translated places -/

theorem State.Canonical.sendRemote {what : OutFor} (h : s.Canonical) : (s.sendRemote p i what).Canonical := h.same rfl

theorem State.Canonical.sendTo {of : OutFor} (h : s.Canonical) (e : s.sendTo p of = some t) : t.Canonical := by
  unfold State.sendTo at e
  obtain ⟨k, -, rfl⟩ := Option.map_eq_some_iff.mp e
  exact h.sendRemote

theorem State.Canonical.sendStore (h : s.Canonical) : (s.sendStore rms).1.Canonical := by
  unfold State.sendStore
  split
  · exact h.sendTo ‹_›
  · exact h

theorem State.Canonical.staleReqs (h : s.Canonical) : (s.staleReqs p).Canonical := .ite h (h.same rfl)

theorem State.Canonical.putCopy {c₀ : SmCopy} (h : s.Canonical) : (s.putCopy c₀).Canonical := h.same rfl

theorem State.Canonical.writeBack {c₀ : SmCopy} (h : s.Canonical) : (s.writeBack c₀).Canonical := by
  unfold State.writeBack
  refine .ite h (.ite ?_ (.putCopy (.fold (fun _ _ hs => hs.putW _ _ _) _ h)))
  split
  · have h2 := h.sendStore.of_eq ‹_›
    exact h2.putCopy
  · exact h.sendStore.of_eq ‹_›

theorem State.Canonical.dropCopy (h : s.Canonical) : (s.dropCopy i p).Canonical := h.same rfl

theorem State.Canonical.readRegWord (h : s.Canonical) : (s.readRegWord ag p).1.Canonical := by
  unfold State.readRegWord
  split
  · exact .iteFst (h.setReg _ _) h
  · exact h

theorem State.Canonical.writeRegWord (h : s.Canonical) : (s.writeRegWord ag p w).Canonical := by
  unfold State.writeRegWord
  split
  · exact .ite h h.regWrite
  · exact h

theorem State.Canonical.hostFails (h : s.Canonical) : (s.hostFails p).1.Canonical := by
  unfold State.hostFails
  split
  · exact .iteFst (h.same rfl) h
  · exact h

theorem State.Canonical.checkSpad (h : s.Canonical) : (s.checkSpad p).Canonical := by
  unfold State.checkSpad
  refine .ite h ?_
  split
  · exact h
  · dsimp only
    refine .ite h ?_
    refine .ite ?_ ?_
    · refine .bump (.putSpad (.putSpad ?_ _ _ _ _) _ _ _ _)
      exact h.same rfl
    · refine .bump (.setSpad (h.same rfl) ?_)
      exact Mem.wf_setWord _ _ _ _ (Mem.wf_setWord _ _ _ _ (h.spad _))

theorem State.Canonical.checkImage (h : s.Canonical) : (s.checkImage p).Canonical := by
  unfold State.checkImage
  dsimp only
  split
  · exact h.checkParity
  · exact h

theorem State.Canonical.showLoc (h : s.Canonical) : (s.showLoc p).Canonical := by
  unfold State.showLoc
  refine .ite h ?_
  dsimp only
  split
  · exact h
  · exact h.same rfl

theorem State.Canonical.lagRead (h : s.Canonical) : (s.lagRead who pl mw).1.Canonical := by
  unfold State.lagRead
  split
  · exact h
  · split
    · exact h.showLoc
    · exact .iteFst h (.iteFst h h.showLoc)

theorem State.Canonical.lagWrite (h : s.Canonical) : (s.lagWrite who pl).Canonical := by
  unfold State.lagWrite
  split
  · exact h.showLoc
  · refine .ite ?_ h.showLoc
    split
    · with_reducible refine .ite h (.same ?_ rfl)
      exact h.showLoc
    · exact h.same rfl

theorem State.Canonical.pairLags (h : s.Canonical) : (s.pairLags p).Canonical := .ite h (h.same rfl)

theorem State.Canonical.showLanes (h : s.Canonical) : (s.showLanes i x).Canonical := .ite h (h.same rfl)

theorem State.Canonical.noteOld (h : s.Canonical) : (s.noteOld on p).Canonical := by
  unfold State.noteOld
  dsimp only
  split
  · refine .ite h ?_
    split
    · exact h.same rfl
    · exact h.same rfl
  · exact h

theorem State.Canonical.lineClean (h : s.Canonical) : (s.lineClean p).Canonical := h.same rfl

theorem State.Canonical.touch (h : s.Canonical) : (s.touch who p cr).Canonical :=
  h.touchRetired.checkSpad.checkImage.cacheAccess.staleReqs

theorem State.Canonical.readHC (h : s.Canonical) : (s.readHC who pl).1.Canonical := by
  unfold State.readHC
  with_reducible
    dsimp only
    split
    · exact h.touch.hostFails
    · exact h.touch.hostFails.lagRead

theorem State.Canonical.writeHC (h : s.Canonical) : (s.writeHC who pl i mw).Canonical := by
  unfold State.writeHC
  split
  · exact .ite h (h.putW _ _ _)
  · exact .putW (.lagWrite (.ite h.touch.lineClean h.touch.noteOld)) _ _ _

theorem State.Canonical.readW (h : s.Canonical) : (s.readW who pl).1.Canonical := by
  unfold State.readW
  refine .iteFst h.readRegWord ?_
  split
  · split
    · exact h
    · exact .iteFst h.touchRetired.hostFails h.touchRetired.hostFails.putCopy
  · exact h.readHC

theorem State.Canonical.writeW (h : s.Canonical) : (s.writeW who pl i mw).Canonical := by
  unfold State.writeW
  refine .ite h.writeRegWord ?_
  split
  · exact h.putCopy
  · exact h.writeHC

theorem State.Canonical.readPart (h : s.Canonical) : (s.readPart who st a i pl).1.Canonical := by
  unfold State.readPart
  refine .iteFst ?_ (.iteFst h.readW h.readW)
  dsimp only
  split
  · exact h.readW.readW
  · exact h.readW.readW

theorem State.Canonical.load {q₀ : Option LaneReq} (h : s.Canonical) : (s.load i j a k q₀).1.Canonical := by
  unfold State.load
  refine .iteFst h ?_
  dsimp only
  split
  · exact h.translate.of_eq ‹_›
  · have h1 := h.translate.of_eq ‹_›
    split
    · exact h1.drainAt
    · split
      · exact h1.drainAt.readPart.sample
      · exact h1.drainAt.readPart

theorem State.Canonical.loadDwords (h : s.Canonical) : (s.loadDwords i j a n).1.Canonical := by
  induction n generalizing s a with
  | zero => exact h
  | succ n ih =>
    rw [State.loadDwords]
    split
    · split
      · exact (ih (h.load.of_eq ‹_›)).of_eq ‹_›
      · exact ih (h.load.of_eq ‹_›)
    · exact h.load.of_eq ‹_›

theorem State.Canonical.writeBytes (h : s.Canonical) : (s.writeBytes who a i pl b).Canonical := by
  unfold State.writeBytes
  refine .ite ?_ h.writeW
  split
  · exact .ite h.regWrite h
  · exact h.writeW.writeW.pairLags

theorem State.Canonical.writeOut (h : s.Canonical) : (s.writeOut who on lr a i pl b e).1.Canonical := by
  unfold State.writeOut
  refine .iteFst h.sendStore ?_
  split
  · exact .ite h.writeBytes.sample h.writeBytes
  · exact h.writeBytes

theorem State.Canonical.showLine (h : s.Canonical) : (s.showLine p).Canonical := .ite h (h.same rfl)

theorem State.Canonical.giveUp (h : s.Canonical) : (s.giveUp on pl).Canonical := by
  unfold State.giveUp
  split
  · split
    · exact h.writeBack.dropCopy
    · exact h
  · exact h

theorem State.Canonical.homeTouch (h : s.Canonical) : (s.homeTouch on pl cr).Canonical :=
  .ite h.showLine.giveUp.touch.lineClean h.showLine.giveUp.touch

theorem State.Canonical.store (h : s.Canonical) : (s.store i lr a j b e b3 e').1.Canonical := by
  unfold State.store
  refine .iteFst h ?_
  dsimp only
  split
  · exact h.translate.of_eq ‹_›
  · have h1 := h.translate.of_eq ‹_›
    refine .iteFst ?_ ?_
    · split
      · exact h1.drainAt.writeOut.of_eq ‹_›
      · exact h1.drainAt.writeOut.of_eq ‹_›
    · refine .iteFst h1.drainAt ?_
      split
      · exact h1.drainAt.setStrand _ _
      · exact h1.drainAt

theorem State.Canonical.ctxWrite (h : s.Canonical) : (s.ctxWrite i a b).1.Canonical := by
  unfold State.ctxWrite
  refine .iteFst h ?_
  split
  · have h1 := h.translate.of_eq ‹_›
    exact h1.writeOut
  · exact h.translate.of_eq ‹_›

theorem State.Canonical.ctxAdd (h : s.Canonical) : (s.ctxAdd i a b).1.Canonical := by
  unfold State.ctxAdd
  refine .iteFst h ?_
  dsimp only
  split
  · exact h.translate.of_eq ‹_›
  · have h1 := h.translate.of_eq ‹_›
    split
    · exact h1.translate.of_eq ‹_›
    · have h2 := h1.translate.of_eq ‹_›
      refine .iteFst h2 ?_
      split
      · exact h2.touch.lineClean.putD64 _ _
      · exact h2.touch.lineClean

/-! ### Shared operations -/

theorem State.Canonical.killWord (h : s.Canonical) : (s.killWord i j).Canonical := h.modStrand _ _

theorem State.Canonical.killBits (h : s.Canonical) : (s.killBits i j w w').Canonical :=
  .ite ((h.modStrand _ _).killWord) (h.modStrand _ _)

theorem State.Canonical.eatWord (h : s.Canonical) : (s.eatWord i j).Canonical := .ite (h.modStrand _ _) h

theorem State.Canonical.putVec (h : s.Canonical) : (s.putVec i j k l v).Canonical := .fold (fun _ _ hs => hs.wrImg) _ h

theorem State.Canonical.putSc (h : s.Canonical) : (s.putSc i j k v).Canonical := .fold (fun _ _ hs => hs.wrImg) _ h

theorem State.Canonical.settle (h : s.Canonical) : (s.settle i a rvs).1.Canonical := by
  unfold State.settle
  refine .foldFst (fun _ _ hs => ?_) _ (p := (_, _)) h
  split
  · split
    · exact hs
    · exact hs.record
  · exact hs

theorem State.Canonical.settle1 (h : s.Canonical) : (s.settle1 i a on v).1.Canonical := by
  unfold State.settle1
  split
  · exact h.record
  · exact h

theorem State.Canonical.putDeadline (h : s.Canonical) : (s.putDeadline i a).Canonical := h.modStrand _ _

theorem State.Canonical.awaitWords (h : s.Canonical) : (s.awaitWords i ns j).Canonical := h.modStrand _ _

theorem State.Canonical.replyTo (h : s.Canonical) : (s.replyTo pk v).Canonical := by
  unfold State.replyTo
  split
  · exact .ite h.sample (h.same rfl)
  · exact h.same rfl
  · exact h

theorem State.Canonical.claspEnd (h : s.Canonical) : (s.claspEnd i v).Canonical := by
  unfold State.claspEnd
  split
  · exact .replyTo (.same h rfl)
  · exact h

theorem State.Canonical.claspCheck (h : s.Canonical) : (s.claspCheck i).Canonical := by
  unfold State.claspCheck
  split
  · split
    · exact h.claspEnd
    · exact h
  · exact h

theorem State.Canonical.writeStatus (h : s.Canonical) : (s.writeStatus i a j).Canonical := by
  unfold State.writeStatus
  refine .ite (h.modGrid _ _) ?_
  dsimp only
  split
  · have h1 := ((h.modGrid _ _).ctxAdd).of_eq ‹_›
    exact h1.report
  · have h1 := ((h.modGrid _ _).ctxAdd).of_eq ‹_›
    refine .ite ?_ h1
    split
    · exact h1.ctxWrite.of_eq ‹_›
    · have h2 := h1.ctxWrite.of_eq ‹_›
      exact h2.report

theorem State.Canonical.copyRecord (h : s.Canonical) : (s.copyRecord i j).Canonical := h.fqPost

theorem State.Canonical.dropLocket (h : s.Canonical) : (s.dropLocket i).Canonical :=
  .modStrand (.fold (fun _ _ hs => .ite (hs.countUp _ _) hs) _ h) _ _

theorem State.Canonical.contain {rcd : Option (Option ℕ)} (h : s.Canonical) : (s.contain i q q' a rcd).Canonical := by
  unfold State.contain
  refine .ite h.claspEnd (.ite h (.bump (.writeStatus ?_)))
  refine .fold (fun _ _ hs => ?_) _ ?_
  · exact hs.copyRecord
  · refine .modStrand ?_ _ _
    split
    · exact .dropLocket (.same h rfl)
    · exact .record (.dropLocket (.same h rfl))

theorem State.Canonical.trapRecords (h : s.Canonical) : (s.trapRecords i a hs).1.Canonical := by
  unfold State.trapRecords
  refine .foldFst (fun _ _ hs => ?_) _ (p := (_, _)) h
  exact .iteFst hs hs.record

theorem State.Canonical.holdBy {take : Strand → Lanes → Strand} (h : s.Canonical) : (s.holdBy i a hs take).Canonical := by
  unfold State.holdBy
  dsimp only
  split
  · exact h
  · have ht {c : Prop} [Decidable c] {l : List Hold} :
        (if c then (s, []) else s.trapRecords i a l).1.Canonical := .iteFst h h.trapRecords
    exact .ite h.claspEnd (.ite ht (.ite ht.contain (ht.modStrand _ _)))

theorem State.Canonical.hold (h : s.Canonical) : (s.hold i j a hs).Canonical := h.holdBy

theorem State.Canonical.holdLate (h : s.Canonical) : (s.holdLate i a hs).Canonical := h.holdBy

theorem State.Canonical.takeTrap (h : s.Canonical) : (s.takeTrap i).Canonical := by
  unfold State.takeTrap
  refine .ite ((h.modStrand _ _).contain) (.ite ((h.modStrand _ _).contain) ?_)
  exact (h.modStrand _ _).modStrand _ _

theorem State.Canonical.postEntry {e₀ : LkEntry} (h : s.Canonical) : (s.postEntry i e₀).Canonical := .ite h.post h.dropPost

theorem State.Canonical.poisonEntries {es : List (ℕ × Word)} (h : s.Canonical) : (s.poisonEntries i a es).1.Canonical := by
  unfold State.poisonEntries
  refine .foldFst (fun _ _ hs => ?_) _ (p := (_, _)) h
  split
  · exact hs.setStrand _ _
  · exact hs

theorem State.Canonical.lateEntry (h : s.Canonical) : (s.lateEntry i j k a q q' b).Canonical := by
  unfold State.lateEntry
  with_reducible exact .ite h (.endTag (.ite h.sharedToken.poisonEntries h.sharedToken.poisonEntries.holdLate))

theorem State.Canonical.countReqs {reqs : List LaneReq} (h : s.Canonical) : (s.countReqs i reqs p).Canonical :=
  .fold (fun _ _ hs => hs.sample) _ h

theorem State.Canonical.performEntry {e₀ : LkEntry} {group : List LkEntry} (h : s.Canonical) :
    (s.performEntry i e₀ group).Canonical := by
  unfold State.performEntry
  refine .ite ?_ ?_
  · split
    · exact h.sendStore.of_eq ‹_›
    · have h2 := h.sendStore.of_eq ‹_›
      exact h2.lateEntry
  · refine .fold (fun _ _ hs => ?_) _ h
    split
    · exact hs.postEntry
    · exact .countReqs (.fold (fun _ _ hs => hs.writeW) _ hs)

theorem State.Canonical.release (h : s.Canonical) : (s.release i).Canonical := by
  unfold State.release
  refine .fold (fun _ _ hs => ?_) _ (h.modStrand _ _)
  split
  · exact hs.performEntry
  · exact .ite hs hs.performEntry

theorem State.Canonical.settleEff {es : List (Nat × Eff)} (h : s.Canonical) : (s.settleEff i a es).1.Canonical :=
  h.settle.shareTokens.endTag.poisonEntries

theorem State.Canonical.exitLanes (h : s.Canonical) : (s.exitLanes i j a x).Canonical := by
  unfold State.exitLanes
  refine .ite ?_ (h.modStrand _ _)
  split
  · exact h.contain
  · exact h.release.modStrand _ _

theorem State.Canonical.exitWith (h : s.Canonical) : (s.exitWith i j a x).Canonical := .ite h.exitLanes.claspEnd h.exitLanes

theorem State.Canonical.killUse (h : s.Canonical) : (s.killUse i x u).Canonical := by
  unfold State.killUse
  split
  · exact .ite h (.fold (fun _ _ hs => .ite hs hs.killBits) _ h)
  · exact .fold (fun _ _ hs => hs.killWord) _ h

theorem State.Canonical.reviveUse (h : s.Canonical) : (s.reviveUse i st x y u).Canonical := by
  unfold State.reviveUse
  split
  · exact .ite (.fold (fun _ _ hs => .ite (hs.modStrand _ _) hs) _ h) h
  · exact .ite h (.fold (fun _ _ hs => .ite hs (.modStrand (.ite (hs.modStrand _ _) hs) _ _)) _ h)
  · exact .fold (fun _ _ hs => .ite (hs.modStrand _ _) hs) _ h

theorem State.Canonical.countUses (h : s.Canonical) : (s.countUses i st x y us).Canonical := h.countDying _ _

theorem State.Canonical.finish {go : Go} (h : s.Canonical) : (s.finish i j a hs go).Canonical := by
  unfold State.finish
  dsimp only
  split
  · exact h.hold
  · split
    · exact h.hold.modStrand _ _
    · exact h.hold.modStrand _ _
    · exact h.hold.modStrand _ _
    · exact h.hold

theorem State.Canonical.eatUses (h : s.Canonical) : (s.eatUses i x us).Canonical := .fold (fun _ _ hs => hs.eatWord) _ h

theorem State.Canonical.eatPreds (h : s.Canonical) : (s.eatPreds i hd us x y).Canonical := h.eatUses.eatUses

theorem State.Canonical.spent (h : s.Canonical) : (s.spent i hd us x y z).Canonical :=
  .fold (fun _ _ hs => hs.killUse) _ h.eatPreds.eatUses

theorem State.Canonical.buried (h : s.Canonical) : (s.buried i st us x hs).Canonical := by
  unfold State.buried
  split
  · exact h
  · exact .countUses (.ite h (.fold (fun _ _ hs => hs.reviveUse) _ h))

theorem State.Canonical.unready (h : s.Canonical) : (s.unready).Canonical := h.same rfl

theorem State.Canonical.issue {eff : State → Cx → State × List Hold × Go} (h : s.Canonical)
    (he : ∀ t cx, t.Canonical → (eff t cx).1.Canonical) : Out.Canonical (s.issue e hd us eff) := by
  unfold State.issue
  split
  · exact .fault
  · next sid idx f _ =>
    have hp : (s.checkParity sid f.pc (sourceWords (s.strand sid) hd us f.mask)).Canonical := h.checkParity
    refine .ite (.next h.contain) (.ite (.next h.hold) (.ite (.next h.unready) (.ite (.next hp.eatUses.finish)
      (.ite (.next hp.eatPreds.finish) (.ite (.next hp.eatPreds.finish) ?_)))))
    split
    · exact .next hp.unready
    · have ht := (he _ _ hp.spent).of_eq ‹_›
      exact .next ht.buried.finish.claspCheck

/-! ### Operands -/

theorem State.Canonical.clearEvent {os : List Operand} (h : s.Canonical) : (s.clearEvent i os).Canonical :=
  .ite (h.modStrand _ _) h

theorem State.Canonical.putScalarDest (h : s.Canonical) : (s.putScalarDest cx q v).1.Canonical := by
  unfold State.putScalarDest
  refine .iteFst ?_ h.settle1.putSc
  split
  · exact h.putDeadline
  · exact h

theorem State.Canonical.vecResults (h : s.Canonical) : (s.vecResults i rs).1.Canonical := by
  unfold State.vecResults
  with_reducible exact .foldFst (fun _ _ hs => .iteFst hs.bump hs.bump) _ (p := (_, _)) (.ite h (h.modStrand _ _))

theorem State.Canonical.putLanes (h : s.Canonical) : (s.putLanes cx i j rs).Canonical := by
  unfold State.putLanes
  refine .fold (fun _ _ hs => ?_) _ h.vecResults.settle
  split
  · exact hs.putVec
  · exact hs

theorem State.Canonical.aluEff (h : s.Canonical) : (aluEff hd ab rd e fn s cx).1.Canonical :=
  .iteFst h.clearEvent.putScalarDest h.clearEvent.putLanes

theorem State.Canonical.alu (h : s.Canonical) : Out.Canonical (s.alu e hd ab rd e' fn) :=
  h.issue fun _ _ ht => ht.aluEff

theorem State.Canonical.locate (h : s.Canonical) : (s.locate i a).1.Canonical := by
  unfold State.locate
  split
  · exact h.translate.of_eq ‹_›
  · have h1 := h.translate.of_eq ‹_›
    split
    · exact h1.translate.of_eq ‹_›
    · have h2 := h1.translate.of_eq ‹_›
      split
      · exact h2.translate.of_eq ‹_›
      · exact h2.translate.of_eq ‹_›

/-! ### Frames with predicates -/

theorem State.Canonical.wrPred (h : s.Canonical) : (s.wrPred i j w mw).Canonical := h.wrImg.modStrand _ _

theorem State.Canonical.putPred {rs : List (ℕ × Except Word Bool)} (h : s.Canonical) : (s.putPred i j rs).Canonical := by
  unfold State.putPred
  refine .ite h ?_
  refine .fold (fun _ _ hs => ?_) _ h
  refine .ite hs ?_
  split
  · exact hs.wrPred
  · exact hs.wrPred

theorem State.Canonical.putPredLanes (h : s.Canonical) : (s.putPredLanes cx q rs).Canonical :=
  h.settle.putPred

theorem State.Canonical.aluPredEff (h : s.Canonical) : (aluPredEff hd ab rd fn s cx).1.Canonical :=
  h.clearEvent.putPredLanes

theorem State.Canonical.aluPred (h : s.Canonical) : Out.Canonical (s.aluPred e hd ab rd fn) :=
  h.issue fun _ _ ht => ht.aluPredEff

/-! ### Float arithmetic -/

theorem State.Canonical.floatAlu {e₀ : Val → Val → Val → Val} (h : s.Canonical) : Out.Canonical (s.floatAlu ins hd ab e e' e₀) :=
  h.alu

theorem State.Canonical.packedAlu {e₀ : Val → Val → Val → Val} (h : s.Canonical) : Out.Canonical (s.packedAlu ins hd ab e e₀) :=
  h.alu

theorem State.Canonical.approxAlu (h : s.Canonical) : Out.Canonical (s.approxAlu ins hd ab i) := h.alu

theorem State.Canonical.dotAlu (h : s.Canonical) : Out.Canonical (s.dotAlu ins hd ab i j) := h.alu

/-! ### Conversions and quantisation -/

theorem State.Canonical.readMerged (h : s.Canonical) : (s.readMerged i j w).Canonical := .ite h h.checkParity

theorem State.Canonical.putParts {es : List ElemW} (h : s.Canonical) : (s.putParts i j es).Canonical := h.readMerged.wrImg

theorem State.Canonical.putElems {es : List ElemW} (h : s.Canonical) : (s.putElems i j es).Canonical :=
  .fold (fun _ _ hs => .ite hs hs.readMerged.wrImg) _ h

theorem State.Canonical.putDigits {es : List (ℕ × Except Word ℕ)} (h : s.Canonical) : (s.putDigits i j es).Canonical :=
  .fold (fun _ _ hs => .ite hs hs.wrImg) _ h.checkParity

theorem State.Canonical.partEff {f₀ : LaneIn → List (ℕ × ℕ × ReplyVal)} (h : s.Canonical) :
    (partEff hd ab rd f₀ s cx).1.Canonical := by
  unfold Machine.partEff
  refine .iteFst (.iteFst h.clearEvent h.clearEvent.putDeadline) (.iteFst h.clearEvent.settle.putParts.wrImg ?_)
  exact .fold (fun _ _ hs => hs.putParts) _ h.clearEvent.settle

theorem State.Canonical.partAlu {f₀ : LaneIn → List (ℕ × ℕ × ReplyVal)} (h : s.Canonical) :
    Out.Canonical (s.partAlu ins hd ab rd f₀) :=
  h.issue fun _ _ ht => ht.partEff

theorem State.Canonical.putChunk {rs : List (ℕ × Except Word ℕ)} (h : s.Canonical) : (s.putChunk i j k l rs).Canonical :=
  .ite h.putDigits h.putElems

theorem State.Canonical.settleElems (h : s.Canonical) : (s.settleElems cx rs).1.Canonical := h.settle

theorem State.Canonical.packEff (h : s.Canonical) : (packEff hd ab s cx).1.Canonical := h.clearEvent.settleElems.putChunk

theorem State.Canonical.unpackEff (h : s.Canonical) : (unpackEff hd ab s cx).1.Canonical := h.putLanes

theorem State.Canonical.putGroups {rs : List (ℕ × ℕ × ReplyVal)} (h : s.Canonical) : (s.putGroups cx i j rs).Canonical :=
  h.settleElems.putElems

theorem State.Canonical.qntEff (h : s.Canonical) : (qntEff hd ab s cx).1.Canonical := by
  unfold Machine.qntEff
  with_reducible exact .iteFst h.clearEvent.settleElems.putChunk h.clearEvent.putGroups

theorem State.Canonical.qntsEff (h : s.Canonical) : (qntsEff hd ab s cx).1.Canonical := h.clearEvent.settleElems.putParts

theorem State.Canonical.dqntEff (h : s.Canonical) : (dqntEff hd ab s cx).1.Canonical := h.checkParity.clearEvent.putLanes

theorem State.Canonical.execDqnt (h : s.Canonical) : Out.Canonical (execDqnt hd ab s) := by
  unfold Machine.execDqnt
  exact h.issue fun _ _ ht => ht.dqntEff

theorem State.Canonical.latqEff (h : s.Canonical) : (latqEff hd ab s cx).1.Canonical := by
  unfold Machine.latqEff
  with_reducible exact h.clearEvent.putGroups

/-! ### Integer and bit operations -/

theorem State.Canonical.intOp {e₀ : ℤ → ℤ → ℤ → Option ℤ} (h : s.Canonical) : Out.Canonical (s.intOp ins hd ab e e' e₀) := h.alu

theorem State.Canonical.bitOp {rb : Option Bool} {f₀ : ℕ → ℕ → ℕ → ℕ} (h : s.Canonical) :
    Out.Canonical (s.bitOp ins hd ab rb e f₀) :=
  h.alu

/-! ### Cross-lane instructions -/

theorem State.Canonical.execMget (h : s.Canonical) : Out.Canonical (execMget hd ab s) := h.issue fun _ _ ht => ht.putScalarDest

theorem State.Canonical.execP2s (h : s.Canonical) : Out.Canonical (execP2s hd ab s) := by
  unfold Machine.execP2s
  exact h.issue fun _ _ ht => ht.putScalarDest

/-! ### Fetching and issuing -/

theorem State.Canonical.icFill (h : s.Canonical) : (s.icFill i j a pl).Canonical := by
  unfold State.icFill
  with_reducible refine .same ?_ rfl
  exact h.touchRetired.touchRetired

theorem State.Canonical.readLine (h : s.Canonical) : (s.readLine i a).1.Canonical := by
  unfold State.readLine
  dsimp only
  split
  · exact h.translate.of_eq ‹_›
  · have h1 := h.translate.of_eq ‹_›
    refine .iteFst ?_ ?_
    · split
      · exact .iteFst h1 (.iteFst h1 h1.icFill)
      · exact h1.icFill
    · refine .iteFst ?_ ?_
      · refine .bump ?_
        split
        · exact .iteFst h1 (.iteFst h1 h1.icFill)
        · exact h1.icFill
      · split
        · exact .iteFst h1 (.iteFst h1 h1.icFill)
        · exact h1.icFill

theorem State.Canonical.fetchAhead (h : s.Canonical) : (s.fetchAhead i a).Canonical := by
  unfold State.fetchAhead
  refine .ite h ?_
  split
  · have h1 := h.readLine.of_eq ‹_›
    exact h1.modStrand _ _
  · exact h.readLine.of_eq ‹_›

theorem State.Canonical.fetchLine (h : s.Canonical) : (s.fetchLine i a).1.Canonical := by
  unfold State.fetchLine
  dsimp only
  split
  · split
    · exact (h.readLine.modStrand _ _).fetchAhead
    · exact h.readLine
  · refine .iteFst h.readLine (.iteFst h ?_)
    split
    · exact h.readLine.modStrand _ _
    · exact h.readLine

theorem State.Canonical.checkTarget (h : s.Canonical) : (s.checkTarget i a tc).1.Canonical := by
  unfold State.checkTarget
  refine .iteFst h (.iteFst h ?_)
  split
  · exact h.fetchLine.of_eq ‹_›
  · have h1 := h.fetchLine.of_eq ‹_›
    split
    · exact h1
    · exact h1

theorem State.Canonical.checkTargets {ts : List (Lanes × Dword)} (h : s.Canonical) : (s.checkTargets i tc ts).1.Canonical := by
  unfold State.checkTargets
  refine .foldFst (fun _ _ hs => ?_) _ (p := (_, _)) h
  split
  · exact hs.checkTarget.of_eq ‹_›
  · exact hs.checkTarget.of_eq ‹_›

theorem State.Canonical.fetchTrap (h : s.Canonical) : (s.fetchTrap i j q).Canonical := by
  unfold State.fetchTrap
  dsimp only
  split
  · exact h
  · exact (h.modStrand _ _).fqPost

theorem State.Canonical.pastDue (h : s.Canonical) : (s.pastDue i j).Canonical := h.modStrand _ _

theorem State.Canonical.failDue (h : s.Canonical) : (s.failDue i j f q).Canonical := by
  unfold State.failDue
  split
  · exact h
  · exact .ite h.contain h.hold.pastDue

/-! ### Control transfers -/

theorem State.Canonical.transfer {ts : List (Lanes × Dword)} {rcv : Option Dword} (h : s.Canonical) :
    (s.transfer cx tc ts rcv hs).1.Canonical :=
  h.checkTargets

theorem State.Canonical.tableRead (h : s.Canonical) : (s.tableRead cx i a).1.Canonical := by
  unfold State.tableRead
  refine .iteFst h.unready ?_
  split
  · exact h.load.of_eq ‹_›
  · exact h.load.of_eq ‹_›

theorem State.Canonical.orStall {r₀ : State × List Hold × Go} (h : r₀.1.Canonical) : (orStall r₀).1.Canonical := by
  unfold Machine.orStall
  exact .iteFst h h

theorem State.Canonical.tableFaults (h : s.Canonical) : (s.tableFaults cx rvs).Canonical :=
  h.settle

theorem State.Canonical.tableTargets (h : s.Canonical) : (s.tableTargets cx o o').1.Canonical := by
  unfold State.tableTargets
  dsimp only
  split
  · exact h
  · refine .iteFst h ?_
    split
    · have h1 := h.tableRead.of_eq ‹_›
      exact h1.tableFaults
    · have h1 := h.tableRead.of_eq ‹_›
      refine .iteFst h1 (.tableFaults ?_)
      refine .foldFst (fun _ _ hs => ?_) _ (p := (_, _)) h1
      refine .iteFst hs ?_
      split
      · exact hs.tableRead.of_eq ‹_›
      · exact hs.tableRead.of_eq ‹_›

theorem State.Canonical.putLink (h : s.Canonical) : (s.putLink i j a x).Canonical := .fold (fun _ _ hs => hs.putVec) _ h

theorem State.Canonical.putLinks {gos : List Target} (h : s.Canonical) : (s.putLinks cx q gos).Canonical :=
  .fold (fun _ _ hs => .ite hs hs.putLink) _ h

theorem State.Canonical.passDue (h : s.Canonical) : (s.passDue i j f).Canonical := by
  unfold State.passDue
  refine .pastDue ?_
  split
  · exact h.putLink
  · exact h

theorem State.Canonical.callTo {ts : List (Lanes × Dword)} (h : s.Canonical) : (s.callTo cx q tc ts hs).1.Canonical :=
  h.checkTargets.putLinks

theorem State.Canonical.uniform (h : s.Canonical) : (s.uniform cx e a).1.Canonical := .iteFst h.transfer h

theorem State.Canonical.listed (h : s.Canonical) : (s.listed cx i a b n).1.Canonical := by
  induction n generalizing s a with
  | zero => exact h
  | succ n ih =>
    rw [State.listed]
    split
    · exact h.tableRead.of_eq ‹_›
    · exact .iteFst (h.tableRead.of_eq ‹_›) (ih (h.tableRead.of_eq ‹_›))

theorem State.Canonical.listedGroups {gs : List (Lanes × Dword)} (h : s.Canonical) : (s.listedGroups cx a i gs hs).1.Canonical := by
  unfold State.listedGroups
  refine .tableFaults (.foldFst (fun _ _ ht => ?_) _ (p := (_, _)) h)
  split
  · exact ht.listed.of_eq ‹_›
  · exact ht.listed.of_eq ‹_›
  · exact ht.listed.of_eq ‹_›

theorem State.Canonical.brxEff (h : s.Canonical) : (brxEff cb s cx).1.Canonical := by
  unfold Machine.brxEff
  dsimp only
  split
  · exact h
  · split
    · have h1 := h.tableRead.of_eq ‹_›
      exact h1.tableFaults
    · have h1 := h.tableRead.of_eq ‹_›
      exact .iteFst h1 h1.listedGroups.transfer

theorem State.Canonical.execBrx (h : s.Canonical) : Out.Canonical (execBrx hd cb s) := by
  unfold Machine.execBrx
  with_reducible exact h.issue fun _ _ ht => ht.brxEff.orStall

theorem State.Canonical.markYield (h : s.Canonical) : (s.markYield i j).Canonical := h.modStrand _ _

theorem State.Canonical.execYield (h : s.Canonical) : Out.Canonical (execYield hd cb s) := by
  have hi := h.issue (e := legal (.yield hd cb)) (hd := hd) (us := []) (eff := fun s _ => (s, [], .next)) fun _ _ ht => ht
  unfold Machine.execYield
  split
  · have ht := hi _ ‹_›
    exact .ite (.next ht) (.next ht.markYield)
  · exact hi

theorem State.Canonical.prefetchLine (h : s.Canonical) : (s.prefetchLine i a).Canonical := by
  unfold State.prefetchLine
  refine .ite h ?_
  split
  · have h1 := h.translate.of_eq ‹_›
    exact h1.icFill
  · exact h.translate.of_eq ‹_›

theorem State.Canonical.icDrop {p₀ : ICLine → Bool} (h : s.Canonical) : (s.icDrop i j p₀).Canonical := h.same rfl

theorem State.Canonical.execIcinv (h : s.Canonical) : Out.Canonical (execIcinv hd cb s) := by
  unfold Machine.execIcinv
  refine h.issue fun _ _ ht => ?_
  refine .iteFst ht ?_
  split
  · exact ht.poisonEntries
  · split
    · have h2 := ht.locate.of_eq ‹_›
      exact h2.icDrop
    · exact ht.locate.of_eq ‹_›

theorem State.Canonical.halt (h : s.Canonical) : (s.halt i j k l a).Canonical := (h.modStrand _ _).dbgPost

theorem State.Canonical.execBkpt (h : s.Canonical) : Out.Canonical (execBkpt hd cb s) := by
  unfold Machine.execBkpt
  extract_lets debug r
  have hr : Out.Canonical r := h.issue fun _ _ ht => .iteFst (ht.modStrand _ _) ht
  split
  · exact .ite (.next (hr _ ‹_›).halt) (.next (hr _ ‹_›))
  · exact hr

theorem State.Canonical.execGetpc (h : s.Canonical) : Out.Canonical (execGetpc hd cb s) := h.issue fun _ _ ht => ht.putSc

/-! ### Loads, stores and cache maintenance -/

theorem State.Canonical.issueMem {eff : State → Cx → State × List Hold × Go} (h : s.Canonical)
    (he : ∀ t cx, t.Canonical → (eff t cx).1.Canonical) : Out.Canonical (s.issueMem e hd mb us e' i e'' eff) :=
  h.issue fun t cx ht => .iteFst ht (he t cx ht)

theorem State.Canonical.loadLane (h : s.Canonical) : (s.loadLane cx mb i j).1.Canonical := by
  unfold State.loadLane
  split
  · exact h
  · exact h.load

theorem State.Canonical.ldEff (h : s.Canonical) : (ldEff hd mb s cx).1.Canonical := by
  unfold Machine.ldEff
  refine .clearEvent (.putLanes ?_)
  refine .foldFst (fun _ _ hs => ?_) _ (p := (_, _)) h
  exact hs.loadLane

theorem State.Canonical.lduEff (h : s.Canonical) : (lduEff hd mb s cx).1.Canonical := h.loadLane.putLanes.clearEvent

theorem State.Canonical.ldsEff (h : s.Canonical) : (ldsEff hd mb s cx).1.Canonical := h.loadLane.putScalarDest.clearEvent

theorem State.Canonical.loadParts (h : s.Canonical) : (s.loadParts cx mb i j).1.Canonical := by
  unfold State.loadParts
  split
  · exact h
  · refine .iteFst h ?_
    refine .foldFst (fun _ _ hs => ?_) _ (p := (_, _)) h
    exact hs.load

theorem State.Canonical.ldvEff (h : s.Canonical) : (ldvEff hd mb s cx).1.Canonical := by
  unfold Machine.ldvEff
  refine .clearEvent ?_
  refine .fold (fun _ _ hs => ?_) _ ?_
  · exact hs.putVec
  · refine .settle ?_
    refine .foldFst (fun _ _ hs => ?_) _ (p := (_, _)) h
    exact hs.loadParts

theorem State.Canonical.probeAt (h : s.Canonical) : (s.probeAt i a j).1.Canonical := by
  unfold State.probeAt
  dsimp only
  split
  · exact h.translate.translate.of_eq ‹_›
  · exact h.translate.translate.of_eq ‹_›

theorem State.Canonical.probeEff (h : s.Canonical) : (probeEff hd mb s cx).1.Canonical := by
  unfold Machine.probeEff
  refine .clearEvent (.putLanes ?_)
  refine .foldFst (fun _ _ hs => ?_) _ (p := (_, _)) h
  split
  · exact hs
  · exact hs.probeAt

theorem State.Canonical.storeOne (h : s.Canonical) : (s.storeOne cx mb i j a b e).1.Canonical := h.store

theorem State.Canonical.partFault (h : s.Canonical) : (s.partFault i a n).1.Canonical := by
  induction n generalizing s a with
  | zero => exact h
  | succ n ih =>
    rw [State.partFault]
    split
    · exact h.translate.of_eq ‹_›
    · exact ih (h.translate.of_eq ‹_›)

theorem State.Canonical.storeParts (h : s.Canonical) : (s.storeParts cx mb i j a ds).1.Canonical := by
  unfold State.storeParts
  split
  · exact h.storeOne
  · split
    · exact h.partFault.of_eq ‹_›
    · have h1 := h.partFault.of_eq ‹_›
      exact .ite (.foldFst (fun _ _ hs => .iteFst hs.storeOne hs) _ (p := (_, _)) h1) h1

theorem State.Canonical.storeLanes {addr : Dword → Except Dword Dword} {data : ℕ → Except Word (List Dword)} (h : s.Canonical) :
    (s.storeLanes cx mb ns i addr data).1.Canonical := by
  unfold State.storeLanes
  refine .clearEvent (.settleEff ?_)
  refine .foldFst (fun _ _ hs => ?_) _ (p := (_, _)) (.ite h.showLanes h)
  split
  · exact hs
  · split
    · exact hs
    · split
      · exact hs
      · exact hs.storeParts

theorem State.Canonical.execSt (h : s.Canonical) : Out.Canonical (execSt hd mb s) := by
  refine h.issueMem fun _ _ ht => ?_
  with_reducible exact ht.storeLanes

theorem State.Canonical.execSts (h : s.Canonical) : Out.Canonical (execSts hd mb s) := by
  refine h.issueMem fun _ _ ht => ?_
  with_reducible exact ht.storeLanes

theorem State.Canonical.execStv (h : s.Canonical) : Out.Canonical (execStv hd mb s) := by
  refine h.issueMem fun _ _ ht => ?_
  with_reducible exact ht.storeLanes

theorem State.Canonical.execStz (h : s.Canonical) : Out.Canonical (execStz hd mb s) := by
  refine h.issueMem fun _ _ ht => ?_
  with_reducible exact ht.storeLanes

theorem State.Canonical.execStzLine (h : s.Canonical) : Out.Canonical (execStzLine hd mb s) := by
  refine h.issueMem fun _ _ ht => ?_
  with_reducible exact ht.storeLanes

theorem State.Canonical.cleanL1 (h : s.Canonical) : (s.cleanL1 i p).Canonical := .ite h.lineClean h

theorem State.Canonical.cacheLine (h : s.Canonical) : (s.cacheLine i b3 e pl).Canonical := by
  unfold State.cacheLine
  refine .ite h.cleanL1 ?_
  refine .ite ?_ ?_
  · refine .dropCopy ?_
    split
    · exact h.cleanL1.writeBack
    · exact h.cleanL1
  · split
    · exact h.cleanL1.writeBack
    · exact h.cleanL1

theorem State.Canonical.showLanesLine (h : s.Canonical) : (s.showLanesLine i x p).Canonical := .ite h (h.same rfl)

theorem State.Canonical.cacheOp (h : s.Canonical) : (s.cacheOp cx mb e).1.Canonical := by
  unfold State.cacheOp
  refine .clearEvent (.settleEff ?_)
  refine .foldFst (fun _ _ hs => ?_) _ (p := (_, _)) h
  split
  · exact hs
  · split
    · have h4 := hs.locate.of_eq ‹_›
      exact h4.showLanesLine.cacheLine
    · exact hs.locate.of_eq ‹_›

theorem State.Canonical.cacheForm (h : s.Canonical) : Out.Canonical (s.cacheForm e hd mb e') :=
  h.issue fun _ _ ht => .iteFst ht ht.cacheOp

/-! ### Tiles -/

theorem State.Canonical.setTile {t₀ : TileEntry} (h : s.Canonical) : (s.setTile i j t₀).Canonical := h.modBlock _ _

theorem State.Canonical.tileState {st₀ : TileState} (h : s.Canonical) : (s.tileState i j st₀).Canonical := .ite h h.setTile

theorem State.Canonical.tileLinePlaces (h : s.Canonical) : (s.tileLinePlaces who ak ds).1.Canonical := by
  unfold State.tileLinePlaces
  refine .iteFst ?_ ?_
  · refine .foldFst (fun _ _ hs => ?_) _ (p := (_, _)) h
    with_reducible refine .same ?_ rfl
    exact .translate (.same hs rfl)
  · split
    · refine .foldFst (fun _ _ hs => ?_) _ (p := (_, _)) h
      with_reducible refine .same ?_ rfl
      exact .translate (.same hs rfl)
    · split
      · refine .foldFst (fun _ _ hs => ?_) _ (p := (_, _)) h
        with_reducible refine .same ?_ rfl
        exact .translate (.same hs rfl)
      · refine .foldFst (fun _ _ hs => ?_) _ (p := (_, _)) h
        with_reducible refine .same ?_ rfl
        exact .translate (.same hs rfl)

theorem State.Canonical.tilePlaces (h : s.Canonical) : (s.tilePlaces who ak a b).1.Canonical := by
  unfold State.tilePlaces
  refine .iteFst h (.iteFst h ?_)
  split
  · exact h.tileLinePlaces.of_eq ‹_›
  · exact h.tileLinePlaces.of_eq ‹_›

theorem State.Canonical.fillTile (h : s.Canonical) : (s.fillTile i a mws).Canonical :=
  .fold (fun _ _ hs => hs.putW _ _ _) _ h

theorem State.Canonical.poisonTile (h : s.Canonical) : (s.poisonTile i a w).Canonical := .fold (fun _ _ hs => hs.putW _ _ _) _ h

theorem State.Canonical.poisonEffect {e₀ : Eff} (h : s.Canonical) : (s.poisonEffect cx e₀).1.Canonical := by
  unfold State.poisonEffect
  split
  · exact h
  · exact h.settleEff

theorem State.Canonical.storeDwords (h : s.Canonical) : (s.storeDwords cx a ds).1.Canonical := by
  unfold State.storeDwords
  refine .settleEff ?_
  refine .foldFst (fun _ _ hs => ?_) _ (p := (_, _)) h
  exact .iteFst hs hs.store

theorem State.Canonical.execTdef (h : s.Canonical) : Out.Canonical (execTdef hd mb s) := by
  refine h.issue fun _ _ ht => .iteFst ht ?_
  dsimp only
  split
  · exact ht.poisonEffect
  · exact ht.setTile

theorem State.Canonical.readTile {ps : List (Dword × Place)} (h : s.Canonical) : (s.readTile i ps).1.Canonical := by
  unfold State.readTile
  refine .foldFst (fun _ _ hs => ?_) _ (p := (_, _)) h
  exact hs.drainAt.readW

theorem State.Canonical.tileToken (h : s.Canonical) : (s.tileToken cx q a).1.Canonical := h.record

theorem State.Canonical.sendTile (h : s.Canonical) (he : s.sendTile op = some t) : t.Canonical := by
  unfold State.sendTile at he
  split at he
  · exact h.sendTo he
  · cases he
    exact h

theorem State.Canonical.startFill {ps : List Place} (h : s.Canonical) : (s.startFill cx mb a b mws ps).Canonical := by
  unfold State.startFill
  extract_lets blk op u
  have hu : u.Canonical := h.tileState
  have ho {ops} : ({ u with tileOps := ops } : State).Canonical := hu.same rfl
  generalize hs : State.sendTile _ _ = r
  cases r with
  | none => exact ho
  | some t => exact ho.sendTile hs

theorem State.Canonical.execTld (h : s.Canonical) : Out.Canonical (execTld hd mb s) := by
  refine h.issue fun _ _ ht => .iteFst ht ?_
  with_reducible
    dsimp only
    split
    · exact .iteFst ht.poisonEffect ht.startFill
    · refine .iteFst ht.poisonEffect ?_
      split
      · exact ht.tileToken.startFill
      · split
        · exact (ht.tilePlaces.of_eq ‹_›).tileToken.startFill
        · have hp := ht.tilePlaces.of_eq ‹_›
          exact .iteFst hp hp.readTile.startFill

theorem State.Canonical.holdTile {ws : List ((Dword × Place) × MWord)} (h : s.Canonical) : (s.holdTile cx mb i ws).1.Canonical := by
  unfold State.holdTile
  refine .iteFst h ?_
  dsimp only
  split
  · exact h.setStrand _ _
  · exact h

theorem State.Canonical.execTstr (h : s.Canonical) : Out.Canonical (execTstr hd mb s) := by
  refine h.issue fun _ _ ht => .iteFst ht ?_
  with_reducible
    dsimp only
    split
    · exact ht.poisonEffect
    · refine .iteFst ht.poisonEffect ?_
      split
      · exact ht.poisonEffect
      · split
        · exact (ht.tilePlaces.of_eq ‹_›).poisonEffect
        · have hp := ht.tilePlaces.of_eq ‹_›
          refine .iteFst hp ?_
          split
          · exact (State.Canonical.ite hp.showLanes hp).readTile.poisonEffect
          · refine .iteFst ?_ ?_
            · split
              · exact ((State.Canonical.readTile (.ite hp.showLanes hp)).holdTile.of_eq ‹_›).tileState.same rfl
              · exact ((State.Canonical.readTile (.ite hp.showLanes hp)).holdTile.of_eq ‹_›).poisonEffect
            · exact (State.Canonical.readTile (.ite hp.showLanes hp)).tileState.same rfl

theorem State.Canonical.execTqry (h : s.Canonical) : Out.Canonical (execTqry hd mb s) := h.issue fun _ _ ht => ht.putScalarDest

theorem State.Canonical.dropTileOp (h : s.Canonical) : (s.dropTileOp op).Canonical := h.same rfl

theorem State.Canonical.tileDone (h : s.Canonical) : (s.tileDone op).Canonical := .ite h.dropTileOp.tileState h.dropTileOp

theorem State.Canonical.fillDone (h : s.Canonical) : (s.fillDone op).Canonical := h.fillTile.tileDone

theorem State.Canonical.tileFail (h : s.Canonical) : (s.tileFail op q).Canonical := by
  unfold State.tileFail
  with_reducible exact .ite h.record.poisonTile.tileDone (.tileDone (.ite h.record.poisonEntries h.record.poisonEntries.hold))

theorem State.Canonical.drainAway (h : s.Canonical) : (s.drainAway op p).Canonical := by
  unfold State.drainAway
  split
  · exact h.tileDone.sendTo ‹_›
  · exact h.tileFail

theorem State.Canonical.writeTile (h : s.Canonical) : (s.writeTile op).Canonical :=
  .fold (fun _ _ hs => .ite hs hs.writeW) _ (.ite h.post (.fold (fun _ _ hs => hs.dropPost) _ h))

theorem State.Canonical.drainDone (h : s.Canonical) : (s.drainDone op).Canonical := by
  unfold State.drainDone
  split
  · exact h.drainAway
  · exact h.writeTile.tileDone

/-! ### Homes and atomics -/

theorem State.Canonical.answerArrival {a₀ : Arrival} (h : s.Canonical) : (s.answerArrival a₀ v).Canonical := by
  unfold State.answerArrival
  split
  · exact h
  · exact h.same rfl

theorem State.Canonical.sendPacket (h : s.Canonical) : (s.sendPacket pk).Canonical := by
  unfold State.sendPacket
  refine .ite ?_ (h.same rfl)
  split
  · exact h.sendTo ‹_›
  · split
    · exact h.same rfl
    · exact h.replyTo

theorem State.Canonical.failReq (h : s.Canonical) : (s.failReq oq q).Canonical := by
  unfold State.failReq
  split
  · exact .tileFail (.same h rfl)
  · split
    · exact .lateEntry (.same h rfl)
    · exact h.same rfl
  · exact .answerArrival (.same h rfl)
  · exact .lateEntry (.same h rfl)
  · split
    · exact .lateEntry (.same h rfl)
    · exact .replyTo (.same h rfl)

theorem State.Canonical.packetPlace (h : s.Canonical) : (s.packetPlace who e a).1.Canonical := by
  unfold State.packetPlace
  split
  · exact h.translate.of_eq ‹_›
  · have h1 := h.translate.of_eq ‹_›
    exact .iteFst h1 h1.translate

theorem State.Canonical.stopLanes {dest : ℕ → List ℕ} {xs : List (ℕ × Bool × ReplyVal)} (h : s.Canonical) :
    (s.stopLanes cx dest e xs).1.Canonical := by
  unfold State.stopLanes
  refine .fold (fun _ _ hs => ?_) _ h.settle.shareTokens.poisonEntries
  split
  · exact .ite hs (.fold (fun _ _ hs => hs.wrImg) _ hs)
  · exact hs

theorem State.Canonical.atomLane (h : s.Canonical) : (s.atomLane cx st hd mb af ns i).1.Canonical := by
  unfold State.atomLane
  split
  · exact h
  · exact h
  · refine .iteFst h ?_
    split
    · exact h.packetPlace.of_eq ‹_›
    · have h1 := h.packetPlace.of_eq ‹_›
      exact .iteFst h1 h1

theorem State.Canonical.atomOps (h : s.Canonical) : (s.atomOps cx hd mb af).1.Canonical := by
  unfold State.atomOps
  refine .foldFst (fun _ _ hs => ?_) _ (p := (_, _)) h
  exact hs.atomLane

theorem State.Canonical.released (h : s.Canonical) : (s.released cx mb).Canonical := .ite h.showLanes h

theorem State.Canonical.atomEff (h : s.Canonical) : (atomEff hd mb af s cx).1.Canonical := by
  unfold Machine.atomEff
  refine .iteFst h (.endTag (.awaitWords (.fold (fun _ _ hs => hs.sendPacket) _ ?_)))
  exact h.atomOps.stopLanes.clearEvent.released

theorem State.Canonical.atomic (h : s.Canonical) : Out.Canonical (s.atomic ins hd mb af) :=
  h.issue fun _ _ ht => ht.atomEff

/-! ### Routines of the homes -/

theorem State.Canonical.takePacket (h : s.Canonical) : (s.takePacket pk).Canonical := h.same rfl

theorem State.Canonical.homeLine (h : s.Canonical) : (s.homeLine pk).Canonical := h.homeTouch

theorem State.Canonical.putTarget (h : s.Canonical) : (s.putTarget pk p ws).Canonical := by
  unfold State.putTarget
  refine .fold (fun _ _ hs => ?_) _ h
  dsimp only
  split
  · exact .ite hs (hs.putW _ _ _)
  · exact hs.putW _ _ _

theorem State.Canonical.rmw {f : List Word → Except (BitVec 8) (List Word)} (h : s.Canonical) :
    Out.Canonical (s.rmw pk e e' i j f) := by
  have hp : ((s.takePacket pk).homeLine pk).Canonical := h.takePacket.homeLine
  unfold State.rmw
  dsimp only
  split
  · exact .next hp.replyTo
  · split
    · exact .next hp.replyTo
    · split
      · exact .next hp.replyTo
      · exact .next hp.putTarget.replyTo

theorem State.Canonical.rmwInt {f₀ : Dword → Dword} (h : s.Canonical) : Out.Canonical (s.rmwInt pk f₀) := .ite h.rmw h.rmw

theorem State.Canonical.rmwFloat {f₀ : Word → Option Word} (h : s.Canonical) : Out.Canonical (s.rmwFloat pk f₀) := h.rmw

theorem State.Canonical.sepPlace (h : s.Canonical) : (s.sepPlace pk ak a).1.Canonical := by
  unfold State.sepPlace
  refine .iteFst h ?_
  split
  · refine .iteFst h ?_
    split
    · exact h.translate.of_eq ‹_›
    · exact h.translate
  · exact h.translate

theorem State.Canonical.sepWrite (h : s.Canonical) : (s.sepWrite pk a pl b).1.Canonical := h.homeTouch.writeOut

theorem State.Canonical.execListEnqueueRoutine (h : s.Canonical) : Out.Canonical (execListEnqueueRoutine pk s) := by
  have hp : ((s.takePacket pk).homeLine pk).Canonical := h.takePacket.homeLine
  unfold Machine.execListEnqueueRoutine
  dsimp only
  split
  · exact .next hp.replyTo
  · split
    · exact .next hp.replyTo
    · refine .ite (.next hp.putTarget.putTarget.replyTo) ?_
      split
      · exact .next (hp.putTarget.sepPlace.of_eq ‹_›).replyTo
      · have hq := hp.putTarget.sepPlace.of_eq ‹_›
        split
        · exact .next (hq.sepWrite.of_eq ‹_›).replyTo
        · exact .next (hq.sepWrite.of_eq ‹_›).replyTo

theorem State.Canonical.chase (h : s.Canonical) : (s.chase pk a n).1.Canonical := by
  induction n generalizing s a with
  | zero => exact h
  | succ n ih =>
    rw [State.chase]
    refine .iteFst h ?_
    split
    · exact h.sepPlace.of_eq ‹_›
    · have hq := h.sepPlace.of_eq ‹_›
      split
      · exact ih (hq.homeTouch.readPart.of_eq ‹_›)
      · exact hq.homeTouch.readPart.of_eq ‹_›

theorem State.Canonical.execPointerChaseRoutine (h : s.Canonical) : Out.Canonical (execPointerChaseRoutine pk s) := by
  unfold Machine.execPointerChaseRoutine
  split
  · exact .next h.takePacket.homeLine.replyTo
  · split
    · exact .next h.takePacket.homeLine.replyTo
    · refine .ite (.next h.takePacket.homeLine.replyTo) ?_
      exact .ite (.next h.takePacket.homeLine.replyTo) (.next h.takePacket.homeLine.chase.replyTo)

theorem State.Canonical.execContributorReductionRoutine (h : s.Canonical) :
    Out.Canonical (execContributorReductionRoutine pk s) := by
  have hp : ((s.takePacket pk).homeLine pk).Canonical := h.takePacket.homeLine
  unfold Machine.execContributorReductionRoutine
  dsimp only
  split
  · exact .next hp.replyTo
  · refine .ite (.next hp.replyTo) ?_
    split
    · exact .next hp.replyTo
    · exact .next hp.replyTo
    · refine .ite (.next hp.replyTo) ?_
      split
      · exact .next (.replyTo (.ite hp.putTarget.putTarget hp.putTarget))
      · exact .next hp.replyTo

theorem State.Canonical.routineEntry (h : s.Canonical) : (s.routineEntry i).1.Canonical := by
  unfold State.routineEntry
  split
  · exact h
  · exact h.same rfl

theorem State.Canonical.execInstalledRoutine (h : s.Canonical) : Out.Canonical (execInstalledRoutine pk s) := by
  unfold Machine.execInstalledRoutine
  refine .ite (.next h.takePacket.homeLine.replyTo) (.ite (.next h.takePacket.homeLine.replyTo) ?_)
  split
  · exact .next h.takePacket.homeLine.replyTo
  · refine .ite (.next h.takePacket.homeLine.routineEntry.replyTo) ?_
    refine .ite (.next h.takePacket.homeLine.routineEntry.replyTo) (.next ?_)
    refine .ite ?_ ?_
    · with_reducible refine .claspEnd (.same ?_ rfl)
      exact h.takePacket.homeLine.routineEntry
    · with_reducible refine .same ?_ rfl
      exact h.takePacket.homeLine.routineEntry

theorem State.Canonical.performPacket (h : s.Canonical) : Out.Canonical (State.performPacket pk s) := by
  unfold State.performPacket
  split
  case h_1 | h_2 | h_3 | h_4 | h_5 | h_6 | h_7 | h_8 | h_9 | h_10 | h_11 | h_12 | h_13 | h_14 | h_15 | h_16 | h_17 | h_18 =>
    exact h.rmwInt
  case h_19 | h_20 => exact h.rmwInt
  case h_21 | h_22 | h_23 => exact h.rmwFloat
  case h_24 | h_25 => exact h.rmw
  case h_26 => exact h.execListEnqueueRoutine
  case h_27 => exact h.execPointerChaseRoutine
  case h_28 => exact h.execContributorReductionRoutine
  case h_29 => exact h.execInstalledRoutine

theorem State.Canonical.learn (h : s.Canonical) : (s.learn pk e v).Canonical := by
  unfold State.learn
  split
  · refine .ite (h.putD64 _ _) (.ite h ?_)
    dsimp only
    split
    · next ht => exact State.Canonical.performPacket (.ite (h.putWords _ _) h) _ ht
    · exact h
  · exact h

theorem State.Canonical.landWords (h : s.Canonical) : (s.landWords rp).Canonical := by
  unfold State.landWords
  refine .ite ?_ ?_
  · split
    · exact .fold (fun _ _ hs => hs.countUp _ _) _ h
    · exact h
  · split
    · refine .fold (fun _ _ hs => ?_) _ ?_
      · exact hs.wrImg
      · split
        · exact .fold (fun _ _ hs => hs.countUp _ _) _ h
        · exact h
    · refine .fold (fun _ _ hs => ?_) _ ?_
      · exact hs.wrImg
      · split
        · exact .fold (fun _ _ hs => hs.countUp _ _) _ h
        · exact h
    · refine .fold (fun _ _ hs => ?_) _ ?_
      · exact hs.wrImg
      · refine .sharedToken ?_
        split
        · exact .fold (fun _ _ hs => hs.countUp _ _) _ h
        · exact h

theorem State.Canonical.landDeadline (h : s.Canonical) : (s.landDeadline rp).Canonical := by
  unfold State.landDeadline
  split
  · exact h.landWords
  · exact .ite h.landWords ((h.modStrand _ _).holdLate)

theorem State.Canonical.deliver (h : s.Canonical) : (s.deliver rp).Canonical :=
  .endTag (.ite h.landDeadline h.landWords)

theorem State.Canonical.land (h : s.Canonical) : (s.land rp).Canonical := h.deliver.sample

theorem State.Canonical.execReplyLand (h : s.Canonical) : Out.Canonical (execReplyLand rp s) := by
  have hr : ({ s with replies := s.replies.erase rp, outReqs := s.outReqs.eraseP (answers rp) } : State).Canonical := h.same rfl
  unfold Machine.execReplyLand
  extract_lets q s1 s2
  clear_value q
  have hl : s2.Canonical := by
    unfold s2
    split
    · split
      · exact hr.learn
      · exact hr
    · exact hr
  split
  · exact .next hl
  · exact .next hl.land

/-! ### Barriers, waits and signals -/

theorem State.Canonical.wake (h : s.Canonical) : (s.wake i j).Canonical := h.modStrand _ _

theorem State.Canonical.setBarrier {b₀ : Barrier} (h : s.Canonical) : (s.setBarrier i j b₀).Canonical := h.modBlock _ _

theorem State.Canonical.wakeBarrier (h : s.Canonical) : (s.wakeBarrier i j).Canonical :=
  .fold (fun _ _ hs => .fold (fun _ _ hs => .ite hs.wake hs) _ hs) _ h

theorem State.Canonical.tryPhase (h : s.Canonical) : (s.tryPhase i j).Canonical := .ite h h.setBarrier.wakeBarrier

theorem State.Canonical.barArrive (h : s.Canonical) : (s.barArrive i j k a).Canonical := by
  unfold State.barArrive
  refine .ite h (.ite (((h.setBarrier.modStrand _ _).tryPhase).barrierCheck) ?_)
  exact (h.setBarrier.modStrand _ _).tryPhase

theorem State.Canonical.arriveAt (h : s.Canonical) : (s.arriveAt cx i).Canonical := h.showLanes.barArrive

theorem State.Canonical.barRetire (h : s.Canonical) : (s.barRetire i e).Canonical := by
  refine .fold (fun _ _ hs => ?_) _ h
  have hb {b : Barrier} {x y z : ℕ} {p : Prop} [Decidable p] {t : State} (ht : t.Canonical) :
      ((if p then t else t.setBarrier x y b).tryPhase x z).Canonical := .tryPhase (.ite ht ht.setBarrier)
  exact .ite hs (.ite (hb hs).barrierCheck (.ite (hb hs) (hb hs).barrierCheck))

theorem State.Canonical.objWrite {bytes : ℤ} (h : s.Canonical) : (s.objWrite pl a b i bytes).Canonical :=
  (h.putD64 _ _).putD64 _ _

theorem State.Canonical.objPoison (h : s.Canonical) : (s.objPoison pl w).Canonical := (h.markD64 _ _).markD64 _ _

theorem State.Canonical.objArrive (h : s.Canonical) : (s.objArrive pl a i).1.Canonical := by
  unfold State.objArrive
  split
  · exact h
  · exact .iteFst h (.iteFst h.objPoison h.objWrite)

theorem State.Canonical.objComplete (h : s.Canonical) : (s.objComplete pl a i q).Canonical := by
  unfold State.objComplete
  split
  · exact h
  · exact .ite h.objPoison h.objWrite

theorem State.Canonical.lateScalar (h : s.Canonical) : (s.lateScalar i j a q v).Canonical := by
  unfold State.lateScalar
  refine .ite ?_ h.settle1.putSc
  split
  · exact h.putDeadline
  · exact h.hold
  · exact h

theorem State.Canonical.syncStop (h : s.Canonical) : (s.syncStop cx q e v).1.Canonical := by
  unfold State.syncStop
  with_reducible
    dsimp only
    split
    · exact h.settle1.putScalarDest.poisonEntries
    · exact h.settle1.putScalarDest

theorem State.Canonical.execObjArr (h : s.Canonical) : Out.Canonical (execObjArr hd mb s) := by
  unfold Machine.execObjArr
  refine h.issue fun _ _ ht => ?_
  refine .iteFst ht ?_
  dsimp only
  split
  · exact ht.clearEvent.showLanes.syncStop
  · split
    · have h2 := ht.clearEvent.showLanes.packetPlace.of_eq ‹_›
      exact h2.syncStop
    · have h2 := ht.clearEvent.showLanes.packetPlace.of_eq ‹_›
      refine .iteFst h2.syncStop (.iteFst h2 (.iteFst ?_ (.awaitWords (.same h2 rfl))))
      split
      · have h3 := h2.sendTo ‹_›
        exact h3.awaitWords
      · exact h2.syncStop

theorem State.Canonical.objTouch (h : s.Canonical) : (s.objTouch i pl).Canonical := h.homeTouch.checkSpad

theorem State.Canonical.execBarrierObjectArrive {ar : Arrival} (h : s.Canonical) :
    Out.Canonical (execBarrierObjectArrive ar s) := by
  have ha : ({ s with arrivals := s.arrivals.erase ar } : State).Canonical := h.same rfl
  unfold Machine.execBarrierObjectArrive
  with_reducible
    dsimp only
    split
    · exact .next ha.objTouch.objArrive
    · exact .next ha.objTouch.objArrive.land

theorem State.Canonical.freeMonitor (h : s.Canonical) : (s.freeMonitor mo).Canonical := by
  unfold State.freeMonitor
  dsimp only
  split
  · exact h.same rfl
  · exact h.same rfl

theorem State.Canonical.watchRead (h : s.Canonical) : (s.watchRead mo).Canonical := h.homeTouch

theorem State.Canonical.watch (h : s.Canonical) : (s.watch cx q mo).1.Canonical := by
  unfold State.watch
  dsimp only
  split
  · exact h.watchRead.syncStop
  · with_reducible refine .iteFst h.watchRead.syncStop (.iteFst h.watchRead.syncStop (.same ?_ rfl))
    exact h.watchRead

theorem State.Canonical.objWait (h : s.Canonical) : Out.Canonical (s.objWait ins hd mb e) := by
  unfold State.objWait
  refine h.issue fun _ _ ht => ?_
  refine .iteFst ht ?_
  dsimp only
  split
  · exact ht.clearEvent.syncStop
  · split
    · have h2 := ht.clearEvent.translate.of_eq ‹_›
      exact h2.syncStop
    · have h2 := ht.clearEvent.translate.of_eq ‹_›
      split
      · exact h2.objTouch.syncStop
      · exact h2.objTouch.watch

theorem State.Canonical.waitWord {w₀ : Watch} (h : s.Canonical) : (s.waitWord cx q a i w₀).1.Canonical := by
  unfold State.waitWord
  refine .iteFst h.syncStop ?_
  split
  · have h1 := h.translate.of_eq ‹_›
    exact h1.syncStop
  · have h1 := h.translate.of_eq ‹_›
    exact h1.watch

theorem State.Canonical.execWaitc (h : s.Canonical) : Out.Canonical (execWaitc hd mb s) := by
  unfold Machine.execWaitc
  refine h.issue fun _ _ ht => ?_
  refine .iteFst ht ?_
  split
  · exact ht.clearEvent.syncStop
  · exact ht.clearEvent.waitWord

theorem State.Canonical.endWait (h : s.Canonical) : (s.endWait mo v).Canonical := h.freeMonitor.lateScalar.wake

theorem State.Canonical.execMonitorMatch (h : s.Canonical) : Out.Canonical (execMonitorMatch mo s) := by
  unfold Machine.execMonitorMatch
  refine .ite .fault ?_
  dsimp only
  split
  · exact .ite (.next h.watchRead.freeMonitor) (.next h.watchRead)
  · split
    · exact .next h.watchRead.endWait
    · exact .next (.ite h.watchRead.endWait h.watchRead)

theorem State.Canonical.fireDeadline (h : s.Canonical) : (s.fireDeadline i).Canonical :=
  .fold (fun _ _ hs => hs.watchRead.endWait) _ (h.modStrand _ _)

theorem State.Canonical.execDeadlineFire (h : s.Canonical) : Out.Canonical (execDeadlineFire i s) := by
  unfold Machine.execDeadlineFire
  split
  · exact .fault
  · exact .next (.ite (h.modStrand _ _) h.fireDeadline)

theorem State.Canonical.execSignal (h : s.Canonical) : Out.Canonical (execSignal hd mb s) := by
  refine h.issue fun t cx ht => .iteFst ht ?_
  have hc : ((t.clearEvent cx.sid (memSpecials mb)).showLanes cx.sid cx.act).Canonical := ht.clearEvent.showLanes
  with_reducible
    dsimp only
    split
    · exact hc.settleEff
    · refine .iteFst hc.settleEff ?_
      split
      · exact (hc.packetPlace.of_eq ‹_›).settleEff
      · have hp := hc.packetPlace.of_eq ‹_›
        exact .iteFst hp (.iteFst hp hp.sendPacket)

/-! ### Regions, commit and held traps -/

theorem State.Canonical.readLiveSet (h : s.Canonical) : (s.readLiveSet cx o).1.Canonical := by
  unfold State.readLiveSet
  dsimp only
  split
  · exact h
  · split
    · exact h.loadDwords.of_eq ‹_›
    · have h1 := h.loadDwords.of_eq ‹_›
      split
      · exact h1.settle1.of_eq ‹_›
      · exact h1.settle1.of_eq ‹_›

theorem State.Canonical.execRgnOpen (h : s.Canonical) : Out.Canonical (execRgnOpen hd ab s) := by
  unfold Machine.execRgnOpen
  refine h.issue fun _ _ ht => ?_
  refine .iteFst ht ?_
  split
  · exact ht.readLiveSet.of_eq ‹_›
  · have h2 := ht.readLiveSet.of_eq ‹_›
    exact .iteFst h2 (.iteFst h2 (h2.modStrand _ _))

theorem State.Canonical.eatFound {l₀ : Except Word LiveSet} (h : s.Canonical) : (s.eatFound i l₀).Canonical := by
  unfold State.eatFound
  split
  · exact h
  · exact .fold (fun _ _ hs => hs.eatWord) _ h

theorem State.Canonical.park (h : s.Canonical) : (s.park cx w).Canonical := by
  unfold State.park
  with_reducible refine .modStrand (.same ?_ rfl) _ _
  exact .fqPost (.modStrand (.iteFst h h.record) _ _)

theorem State.Canonical.commitDest (h : s.Canonical) : (s.commitDest cx q a).Canonical := h.putScalarDest

theorem State.Canonical.commitRelease (h : s.Canonical) : (s.commitRelease cx q e).Canonical := (h.release.modStrand _ _).commitDest

theorem State.Canonical.commitRecover (h : s.Canonical) : (s.commitRecover cx hd cb ws).Canonical := by
  unfold State.commitRecover
  dsimp only
  split
  · have h1 := ((((h.dropLocket.modStrand _ _).commitDest).modStrand _ _).checkTarget).of_eq ‹_›
    exact h1.modStrand _ _
  · have h1 := ((((h.dropLocket.modStrand _ _).commitDest).modStrand _ _).checkTarget).of_eq ‹_›
    exact h1.hold

theorem State.Canonical.commit (h : s.Canonical) : Out.Canonical (s.commit ins hd cb e e') := by
  unfold State.commit
  dsimp only
  refine h.issue fun t x ht => ?_
  have hl := ht.drainStrand (i := x.sid) |>.readLiveSet (cx := x) (o := cb.a)
  refine .iteFst ht (.iteFst ht ?_)
  refine .iteFst hl (.iteFst hl ?_)
  split
  · exact hl.commitRelease
  · with_reducible exact .iteFst hl.eatFound.commitRecover (.iteFst hl.eatFound.dropLocket.contain hl.eatFound.dropLocket.park)

theorem State.Canonical.execRgnDrop (h : s.Canonical) : Out.Canonical (execRgnDrop hd cb s) := by
  unfold Machine.execRgnDrop
  exact h.issue fun _ _ ht => .iteFst ht (ht.dropLocket.modStrand _ _)

theorem State.Canonical.execCommitParkEnd (h : s.Canonical) : Out.Canonical (execCommitParkEnd i s) := by
  unfold Machine.execCommitParkEnd
  split
  · exact .fault
  · refine .ite (.next h) (.next (.modStrand ?_ _ _))
    exact .fold (fun _ _ hs => hs.freeMonitor) _ h

theorem State.Canonical.execHeldTrapTaken (h : s.Canonical) : Out.Canonical (execHeldTrapTaken i s) := by
  unfold Machine.execHeldTrapTaken
  split
  · exact .fault
  · exact .next (.ite h.takeTrap h)

/-! ### Engine commands -/

theorem State.Canonical.pushCmd (h : s.Canonical) : (s.pushCmd cmd).Canonical := by
  unfold State.pushCmd
  split
  · exact h.same rfl
  · exact h.same rfl
  · exact h.same rfl
  · exact h.same rfl

theorem State.Canonical.dropCmd (h : s.Canonical) : (s.dropCmd cmd).Canonical := h.same rfl

theorem State.Canonical.command {op₀ : EngOp} (h : s.Canonical) : Out.Canonical (s.command ins hd yb op₀) := by
  refine h.issue fun _ _ ht => ?_
  with_reducible
    refine .iteFst ht ?_
    dsimp only
    split
    · exact ht.showLanes.poisonEffect
    · exact .iteFst ht.showLanes.poisonEffect (.pushCmd (.ite ht.showLanes.tileState ht.showLanes))

theorem State.Canonical.execAqry (h : s.Canonical) : Out.Canonical (execAqry hd yb s) := h.issue fun _ _ ht => ht.putScalarDest

theorem State.Canonical.readRecord (h : s.Canonical) : (s.readRecord cmd a).1.Canonical := by
  unfold State.readRecord
  refine .iteFst h ?_
  split
  · exact h.translate.of_eq ‹_›
  · have ht := h.translate.of_eq ‹_›
    extract_lets r s1 eng ctx mine keep held
    have h1 : s1.Canonical := by
      refine .foldFst (fun _ _ hs => ?_) _ (p := (_, _)) ht
      exact hs.readW
    split
    have hw : State.Canonical ‹_› := by
      refine .of_eq ?_ ‹_›
      cases held with
      | none => exact h1.same rfl
      | some x => exact .iteFst h1 (h1.same rfl)
    split
    · exact hw
    · split <;> exact hw

theorem State.Canonical.readEl (h : s.Canonical) : (s.readEl who a i).1.Canonical := by
  unfold State.readEl
  refine .iteFst h ?_
  split
  · exact h.translate.of_eq ‹_›
  · have h1 := h.translate.of_eq ‹_›
    exact .iteFst h1.readW.readW h1.readW

theorem State.Canonical.engineWrite {ws₀ : List (Loc × ℕ × MWord)} (h : s.Canonical) : (s.engineWrite cmd a pl ws₀).1.Canonical :=
  .iteFst h.sendStore (.fold (fun _ _ hs => hs.writeW) _ h)

theorem State.Canonical.putMarks {ms : Marks} (h : s.Canonical) : (s.putMarks cmd ms).Canonical :=
  .fold (fun _ _ hs => hs.engineWrite) _ h

theorem State.Canonical.cmdTok (h : s.Canonical) : (s.cmdTok cmd q a).1.Canonical := h.record

theorem State.Canonical.moveEl {acc : Marks × Toks} (h : s.Canonical) : (s.moveEl cmd acc el a i).1.Canonical := by
  unfold State.moveEl
  refine .iteFst h ?_
  split
  · exact h.translate.of_eq ‹_›
  · have h1 := h.translate.of_eq ‹_›
    split
    · exact .iteFst h1.writeBytes h1.engineWrite
    · split
      · exact h1
      · exact h1.cmdTok
    · split
      · exact h1
      · exact h1.cmdTok

theorem State.Canonical.combineAt (h : s.Canonical) : (s.combineAt on i pl j k ow).Canonical := by
  unfold State.combineAt
  dsimp only
  split
  · exact .ite (h.homeTouch.markD64 _ _) (h.homeTouch.putW _ _ _)
  · refine .ite (h.homeTouch.putD64 _ _) ?_
    split
    · exact .ite (h.homeTouch.markD64 _ _) (h.homeTouch.putW _ _ _)
    · exact h.homeTouch.putW _ _ _

theorem State.Canonical.execCollectiveCombine (h : s.Canonical) : Out.Canonical (execCollectiveCombine b3 pl i mw s) :=
  .next h.combineAt

theorem State.Canonical.homeOp {op₀ : HomeOp} (h : s.Canonical) : (s.homeOp on pl a q op₀).Canonical := by
  unfold State.homeOp
  split
  · exact h.combineAt
  · exact h.homeTouch.objComplete
  · exact h.homeTouch.objPoison

theorem State.Canonical.toHome {op₀ : HomeOp} (h : s.Canonical) : (s.toHome cmd a pl op₀).1.Canonical := by
  unfold State.toHome
  refine .iteFst ?_ h.homeOp
  split
  · exact h.giveUp.sendTo ‹_›
  · exact h

theorem State.Canonical.combineEl {acc : Toks} (h : s.Canonical) : (s.combineEl cmd acc el a i).1.Canonical := by
  unfold State.combineEl
  refine .iteFst h ?_
  dsimp only
  split
  · exact h.packetPlace.of_eq ‹_›
  · have h1 := h.packetPlace.of_eq ‹_›
    split
    · split
      · exact h1.toHome.of_eq ‹_›
      · exact h1.toHome.of_eq ‹_›
    · split
      · split
        · exact h1.toHome.of_eq ‹_›
        · exact h1.toHome.of_eq ‹_›
      · split
        · exact h1.cmdTok.toHome.of_eq ‹_›
        · exact h1.cmdTok.toHome.of_eq ‹_›
    · exact h1

theorem State.Canonical.optRecord {va : Option Dword} (h : s.Canonical) : (s.optRecord cmd va).1.Canonical := by
  unfold State.optRecord
  split
  · exact h
  · split
    · exact h.readRecord.of_eq ‹_›
    · exact h.readRecord.of_eq ‹_›

theorem State.Canonical.readIndex (h : s.Canonical) : (s.readIndex cmd i).1.Canonical := h.readEl

theorem State.Canonical.cmdEntry (h : s.Canonical) : (s.cmdEntry cmd w).Canonical := by
  unfold State.cmdEntry
  have he := h.poisonEntries (i := cmd.sid) (a := cmd.pc) (es := [(0, w)])
  refine .ite he ?_
  split
  · exact he.hold
  · exact he

theorem State.Canonical.cmdObject (h : s.Canonical) : (s.cmdObject cmd).1.Canonical := by
  unfold State.cmdObject
  refine .iteFst h ?_
  split
  · exact h.packetPlace.of_eq ‹_›
  · have h1 := h.packetPlace.of_eq ‹_›
    split
    · exact h1
    · exact h1

theorem State.Canonical.cmdDone (h : s.Canonical) : (s.cmdDone cmd).Canonical := by
  unfold State.cmdDone
  split
  · exact h.dropCmd.tileState
  · exact h.dropCmd

theorem State.Canonical.element (h : s.Canonical) : (s.element cmd vw vw' a i j).1.Canonical := by
  unfold State.element
  dsimp only
  split
  · exact h.readEl
  · exact h.readEl
  · exact h.readEl
  · exact h.readEl
  · exact h
  · exact h
  · split
    · have h1 := h.readIndex.of_eq ‹_›
      exact .iteFst h1 h1.readEl
    · exact h.readIndex.of_eq ‹_›
    · exact h.readIndex.of_eq ‹_›
  · split
    · have h1 := h.readIndex.of_eq ‹_›
      exact .iteFst h1 h1.readEl
    · exact h.readIndex.of_eq ‹_›
    · exact h.readIndex.of_eq ‹_›

theorem State.Canonical.missedRow (h : s.Canonical) : (s.missedRow cmd el).Canonical := by
  unfold State.missedRow
  split
  · exact h.cmdTok.cmdEntry
  · exact h.cmdTok.cmdEntry
  · exact h.cmdEntry
  · exact h

theorem State.Canonical.cmdFail {f₀ : CmdFail} (h : s.Canonical) : (s.cmdFail cmd opl f₀).Canonical := by
  unfold State.cmdFail
  refine .cmdDone (.cmdEntry ?_)
  split
  · refine .toHome ?_
    split
    · exact h
    · exact h.cmdTok
  · split
    · exact h
    · exact h.cmdTok

theorem State.Canonical.cmdComplete (h : s.Canonical) : (s.cmdComplete cmd opl i).Canonical := by
  unfold State.cmdComplete
  refine .cmdDone ?_
  split
  · exact h.toHome
  · exact h

theorem State.Canonical.cmdPerform (h : s.Canonical) : (s.cmdPerform cmd vw vw' a opl).Canonical := by
  unfold State.cmdPerform
  split
  extract_lets comb r s1 s2 s3
  have hr : r.1.Canonical := by
    refine .foldFst (fun _ _ hs => ?_) _ (p := (_, _)) h
    dsimp only
    split
    · exact hs.element
    · exact .iteFst hs.element.combineEl hs.element.moveEl
  have h2 : s2.Canonical := .fold (fun _ _ hs => hs.missedRow) _ hr.putMarks
  have h3 : s3.Canonical := by
    unfold s3
    split
    · exact h2.cmdTok.cmdEntry
    · exact h2
  exact .ite h3.dropCmd.pushCmd h3.cmdComplete

theorem State.Canonical.performCmd (h : s.Canonical) : (s.performCmd cmd).Canonical := by
  unfold State.performCmd
  refine .ite h.cmdDone ?_
  split
  · have h1 := h.cmdObject.of_eq ‹_›
    exact h1.cmdTok.cmdEntry.cmdDone
  · have h1 := h.cmdObject.of_eq ‹_›
    split
    · have h2 := h1.optRecord.of_eq ‹_›
      exact h2.cmdFail
    · have h2 := h1.optRecord.of_eq ‹_›
      split
      · have h3 := h2.optRecord.of_eq ‹_›
        exact h3.cmdFail
      · have h3 := h2.optRecord.of_eq ‹_›
        split
        · exact h3.cmdFail
        · exact .ite h3.cmdFail h3.cmdPerform

theorem State.Canonical.runCmd (h : s.Canonical) : (s.runCmd cmd).Canonical := by
  unfold State.runCmd
  split
  · exact h.performCmd
  · exact .ite h h.cmdComplete

theorem State.Canonical.endStore (h : s.Canonical) : (s.endStore rms).Canonical := by
  unfold State.endStore
  split
  · exact h.endTag
  · exact h

theorem State.Canonical.performStore (h : s.Canonical) : (s.performStore rms).Canonical := by
  unfold State.performStore
  split
  · exact .countReqs (.fold (fun _ _ hs => .ite hs (hs.putW _ _ _)) _ h)
  · exact .fold (fun _ _ hs => .ite hs (hs.putW _ _ _)) _ h

theorem State.Canonical.serveRemote (h : s.Canonical) : Out.Canonical (s.serveRemote oq) := by
  unfold State.serveRemote
  extract_lets s1 refused done fail
  have h1 : s1.Canonical := h.staleReqs
  have hd : done.Canonical := h1.same rfl
  have hf : (fail s1).Canonical := by
    unfold fail
    cases s1.outReqs.find? fun x => x.id == oq.id with
    | none => exact h1
    | some x => exact h1.failReq
  split
  · exact .ite h1.performPacket (.next h1)
  · exact .next (.ite hf hd.performStore.endStore)
  · exact .next hd.homeTouch.objArrive.answerArrival
  · exact .next hd.homeOp.endTag
  · refine .ite (.next h1) (.ite (.next hf) (.next (.fold (fun _ _ hs => ?_) _ hd)))
    exact .ite hs (hs.putW _ _ _)

/-! ### Grids -/

theorem State.Canonical.ctxPlace (h : s.Canonical) : (s.ctxPlace i ak a).1.Canonical := by
  unfold State.ctxPlace
  split
  · exact h.translate.of_eq ‹_›
  · exact h.translate.of_eq ‹_›

theorem State.Canonical.ctxWord (h : s.Canonical) : (s.ctxWord i a).1.Canonical := by
  unfold State.ctxWord
  split
  · exact h.ctxPlace.of_eq ‹_›
  · exact h.ctxPlace.of_eq ‹_›

theorem State.Canonical.ctxWords (h : s.Canonical) : (s.ctxWords i a n).1.Canonical := by
  induction n generalizing s a with
  | zero => exact h
  | succ n ih =>
    rw [State.ctxWords]
    split
    · exact h.ctxWord.of_eq ‹_›
    · have hn := ih (a := a + 4) (h.ctxWord.of_eq ‹_›)
      split
      · exact hn.of_eq ‹_›
      · exact hn.of_eq ‹_›

theorem State.Canonical.ctxWriteAll (h : s.Canonical) : (s.ctxWriteAll i a ds).Canonical := by
  unfold State.ctxWriteAll
  refine .ite ?_ ?_
  · refine .foldFst (fun _ _ hs => ?_) _ (p := (_, _)) h
    exact hs.ctxWrite
  · refine .report ?_
    refine .foldFst (fun _ _ hs => ?_) _ (p := (_, _)) h
    exact hs.ctxWrite

theorem State.Canonical.shareTable (h : s.Canonical) : (s.shareTable i a).1.Canonical := by
  unfold State.shareTable
  split
  · have h1 := h.ctxWords.of_eq ‹_›
    refine .iteFst h1 ?_
    split
    · exact h1.ctxWords.of_eq ‹_›
    · exact h1.ctxWords.of_eq ‹_›
  · exact h.ctxWords.of_eq ‹_›

theorem State.Canonical.recordValid (h : s.Canonical) : (s.recordValid i e ds).1.Canonical := .iteFst h (.iteFst h.shareTable h)

theorem State.Canonical.jLaunch (h : s.Canonical) : (s.jLaunch g i j k).Canonical := h.journal

theorem State.Canonical.jAccept (h : s.Canonical) : (s.jAccept g a).1.Canonical := h.journal

theorem State.Canonical.writeCrec {e₀ : Ending} (h : s.Canonical) : (s.writeCrec i ds e₀).Canonical :=
  .ite h (.ite h.ctxWriteAll.ctxWriteAll h.ctxWriteAll)

theorem State.Canonical.addDone (h : s.Canonical) : (s.addDone i ds).Canonical := by
  unfold State.addDone
  refine .ite h ?_
  split
  · exact h.ctxAdd.of_eq ‹_›
  · have h1 := h.ctxAdd.of_eq ‹_›
    exact h1.report

theorem State.Canonical.endLaunch {e₀ : Ending} (h : s.Canonical) : (s.endLaunch i g e₀).Canonical :=
  .ite h.writeCrec.jLaunch.addDone.report h.writeCrec.jLaunch.addDone

theorem State.Canonical.reject (h : s.Canonical) : (s.reject i g).Canonical := h.endLaunch

theorem State.Canonical.poolGrid (h : s.Canonical) : (s.poolGrid g).Canonical := h.same rfl

theorem State.Canonical.acceptGrid (h : s.Canonical) : (s.acceptGrid g a e i).Canonical :=
  .ite h.jAccept.recordValid.poolGrid h.jAccept.recordValid.reject

theorem State.Canonical.haloCopies (h : s.Canonical) : (s.haloCopies i j msg).Canonical := h.same rfl

theorem State.Canonical.sendHalo (h : s.Canonical) : (s.sendHalo i msg).Canonical :=
  .ite (h.same rfl) (.ite (h.same rfl) (.haloCopies (.same h rfl)))

theorem State.Canonical.dropRanges (h : s.Canonical) : (s.dropRanges i).Canonical := h.same rfl

theorem State.Canonical.cancelGrid (h : s.Canonical) : (s.cancelGrid i e).Canonical :=
  .ite (.fold (fun _ _ hs => hs.contain) _ h.dropRanges) h.dropRanges

theorem State.Canonical.cancelHere (h : s.Canonical) : (s.cancelHere i a e).Canonical :=
  .fold (fun _ _ hs => hs.cancelGrid) _ (h.same rfl)

theorem State.Canonical.cancelZenith (h : s.Canonical) : (s.cancelZenith i a e).Canonical :=
  .fold (fun _ _ hs => hs.sendHalo) _ (h.same rfl)

theorem State.Canonical.cancelPod (h : s.Canonical) : (s.cancelPod i a e).Canonical :=
  .ite (.cancelZenith (.same h rfl)) (.fold (fun _ _ hs => hs.sendHalo) _ (h.same rfl))

/-! ### Placing, switching out and restoring -/

theorem State.Canonical.lowClear (h : s.Canonical) : (s.lowClear i a j k l).1.Canonical := by
  induction k generalizing s l with
  | zero => exact h
  | succ k ih =>
    rw [State.lowClear]
    refine .iteFst h ?_
    split
    · exact h.ctxWord.of_eq ‹_›
    · have hw := h.ctxWord.of_eq ‹_›
      split
      · exact hw
      · exact ih hw

theorem State.Canonical.lowRun (h : s.Canonical) : (s.lowRun i a j k l m n).1.Canonical := by
  induction l generalizing s m n with
  | zero => exact h
  | succ l ih =>
    rw [State.lowRun]
    refine .iteFst h (.iteFst h ?_)
    split
    · exact h.ctxWord.of_eq ‹_›
    · exact ih (h.ctxWord.of_eq ‹_›)

theorem State.Canonical.setBit (h : s.Canonical) : (s.setBit i a j e).Canonical := by
  unfold State.setBit
  split
  · exact h.ctxPlace.of_eq ‹_›
  · have h1 := h.ctxPlace.of_eq ‹_›
    exact h1.putW _ _ _

theorem State.Canonical.takeSlot (h : s.Canonical) : (s.takeSlot i).1.Canonical := by
  unfold State.takeSlot
  dsimp only
  split
  · have h1 := h.lowClear.of_eq ‹_›
    exact h1.setBit
  · exact h.lowClear

theorem State.Canonical.freeSlotNo (h : s.Canonical) : (s.freeSlotNo i j).Canonical := h.setBit

theorem State.Canonical.takeSlots (h : s.Canonical) : (s.takeSlots i n).1.Canonical := by
  induction n generalizing s with
  | zero => exact h
  | succ n ih =>
    rw [State.takeSlots]
    split
    · exact h.takeSlot.of_eq ‹_›
    · have hn := ih (h.takeSlot.of_eq ‹_›)
      split
      · exact hn.of_eq ‹_›
      · exact (hn.of_eq ‹_›).freeSlotNo

theorem State.Canonical.imagePage (h : s.Canonical) : (s.imagePage i j).1.Canonical := by
  unfold State.imagePage
  dsimp only
  split
  · exact h.ctxPlace.of_eq ‹_›
  · have h1 := h.ctxPlace.of_eq ‹_›
    split
    · exact h1.ctxPlace.of_eq ‹_›
    · exact h1.ctxPlace.of_eq ‹_›

theorem State.Canonical.imageFrames (h : s.Canonical) : (s.imageFrames i j n).1.Canonical := by
  induction n generalizing s j with
  | zero => exact h
  | succ n ih =>
    rw [State.imageFrames]
    split
    · exact h.imagePage.of_eq ‹_›
    · have hn := ih (j := j + 1) (h.imagePage.of_eq ‹_›)
      split
      · exact hn.of_eq ‹_›
      · exact hn.of_eq ‹_›

theorem State.Canonical.framesOf (h : s.Canonical) : (s.framesOf i a j).1.Canonical := by
  unfold State.framesOf
  exact h.imageFrames

theorem State.Canonical.setMem {mm : Mem} (h : s.Canonical) (hm : mm.wf = true) : ({ s with mem := mm } : State).Canonical := by
  obtain ⟨-, hh, hb, hr, hs⟩ := h
  exact ⟨hm, hh, hb, hr, hs⟩

theorem State.Canonical.zeroUnder (h : s.Canonical) : (s.zeroUnder st).Canonical :=
  h.setMem (Mem.wf_filter (c := fun e => !st.covers e) (d := fun e => !st.covers e) h.1)

theorem State.Canonical.flushImage (h : s.Canonical) : (s.flushImage st).Canonical := by
  refine .ite h (.fold (fun t _ ht => ?_) _ h)
  split
  · exact ht.setMem (Mem.wf_setWord _ _ _ _ ht.1)
  · exact ht

theorem State.Canonical.freeImage (h : s.Canonical) : (s.freeImage i).Canonical :=
  .modStrand (.ite ((h.countDying _ _).flushImage) (h.countDying _ _)) _ _

theorem State.Canonical.moveImage (h : s.Canonical) : (s.moveImage i).Canonical :=
  .ite h (.ite h (.ite h.framesOf.contain (.modStrand (.ite h.framesOf.flushImage h.framesOf) _ _)))

theorem State.Canonical.putCrun (h : s.Canonical) : (s.putCrun i).Canonical := h.putD64 _ _

theorem State.Canonical.placeStrand (h : s.Canonical) : (s.placeStrand i j k l m n nd).Canonical := by
  unfold State.placeStrand
  refine .ite ?_ ?_
  · with_reducible refine .contain (.modBlock (.same ?_ rfl) _ _)
    exact h.framesOf
  · with_reducible refine .zeroUnder (.modBlock (.same ?_ rfl) _ _)
    exact h.framesOf

theorem State.Canonical.placeBlock (h : s.Canonical) : (s.placeBlock i j k l ns nd).Canonical := by
  unfold State.placeBlock
  extract_lets blk p0 _ _ s1 s2
  have h1 : s1.Canonical := .zeroSpad (h.same rfl)
  exact .fold (fun _ _ hs => hs.placeStrand) _ (h1.modNbhd _ _)

theorem State.Canonical.placeNew (h : s.Canonical) : (s.placeNew i j k l m).1.Canonical := by
  unfold State.placeNew
  extract_lets r w h' spb
  split
  · exact h.takeSlots.of_eq ‹_›
  · have ht := h.takeSlots.of_eq ‹_›
    extract_lets ns nb s1 g s2 s3 xs s4
    have h1 : s1.Canonical := ht.same rfl
    have h2 : s2.Canonical := .ite h1 (h1.jLaunch.modGrid _ _)
    have h4 : s4.Canonical := .fold (fun _ _ hs => hs.placeBlock) _ (h2.modGrid _ _)
    exact h4.putCrun

theorem State.Canonical.unitPlaces (h : s.Canonical) : (s.unitPlaces i a n).1.Canonical := by
  induction n generalizing s a with
  | zero => exact h
  | succ n ih =>
    rw [State.unitPlaces]
    split
    · exact h.ctxPlace.of_eq ‹_›
    · have h1 := h.ctxPlace.of_eq ‹_›
      split
      · have hn := ih (a := a + 4096) (h1.ctxPlace.of_eq ‹_›)
        split
        · exact hn.of_eq ‹_›
        · exact hn.of_eq ‹_›
      · exact h1.ctxPlace.of_eq ‹_›

theorem State.Canonical.writeSave {ls : List Loc} (h : s.Canonical) : (s.writeSave i ls).Canonical :=
  .fold (fun _ _ hs => hs.checkSpad.putW _ _ _) _ (.fold (fun _ _ hs => (hs.putW _ _ _).putW _ _ _) _ h)

theorem State.Canonical.settleWork (h : s.Canonical) : (s.settleWork i).Canonical :=
  .fold (fun _ _ hs => .ite (.ite hs.fillDone hs.drainDone) hs) _ (.fold (fun _ _ hs => .ite hs.runCmd hs) _ h.drainStrand)

theorem State.Canonical.takeSave (h : s.Canonical) : (s.takeSave i j).1.Canonical := by
  rw [State.takeSave]
  split
  · exact (h.lowRun.of_eq ‹_›).note
  · have h1 := h.lowRun.of_eq ‹_›
    split
    · exact (h1.unitPlaces.of_eq ‹_›).note
    · with_reducible exact .fold (fun _ _ hs => hs.setBit) _ (h1.unitPlaces.of_eq ‹_›)

theorem State.Canonical.blockOut (h : s.Canonical) : (s.blockOut i j).1.Canonical := by
  have ht : (s.takeSave i j).1.Canonical := h.takeSave
  rw [State.blockOut]
  split
  · exact ht.of_eq ‹_›
  · refine State.Canonical.fold (fun _ _ hs => hs.modStrand _ _) _ (.modBlock ?_ _ _)
    exact (State.Canonical.fold (fun _ _ hs => hs.settleWork.showLanes) _ (ht.of_eq ‹_›)).writeSave.liftMarks

theorem State.Canonical.placeOffered {f₀ : State → ℕ → ℕ → ℕ → ℕ → State} (h : s.Canonical)
    (hf : ∀ i j k l, (f₀ s i j k l).Canonical) : (s.placeOffered i f₀).1.Canonical := by
  unfold State.placeOffered
  split
  · exact h
  · extract_lets gone r
    have hg {t : State} (ht : t.Canonical) : (gone t).Canonical := ht.same rfl
    split
    · split
      · exact hg (hf _ _ _ _)
      · exact h
    · split
      · exact h
      · split
        · exact hg (h.placeNew.of_eq ‹_›)
        · exact h.placeNew.of_eq ‹_›

theorem State.Canonical.withdraw (h : s.Canonical) : (s.withdraw i).Canonical := by
  unfold State.withdraw
  split
  · exact h
  · extract_lets s1
    have h1 : s1.Canonical := h.same rfl
    exact .ite h1 (h1.modGrid _ _)

theorem State.Canonical.leavePool (h : s.Canonical) : (s.leavePool i).Canonical := by
  unfold State.leavePool
  exact .ite (h.same rfl) h

theorem State.Canonical.freeSave (h : s.Canonical) : (s.freeSave i).Canonical := .fold (fun _ _ hs => hs.setBit) _ h

theorem State.Canonical.deadlineIn (h : s.Canonical) : (s.deadlineIn i).Canonical := .ite h (.ite (h.modStrand _ _) h.fireDeadline)

theorem State.Canonical.strandIn (h : s.Canonical) : (s.strandIn i j k a nd).Canonical := by
  unfold State.strandIn
  extract_lets st q life slot
  refine .ite h ?_
  split
  next hf =>
  have h1 := h.framesOf.of_eq hf
  extract_lets moved flushed image back u
  have hflush : flushed.Canonical := h1.flushImage
  have hb : back.Canonical := .ite (h1.setStrand _ _) (hflush.setStrand _ _)
  have hu : u.Canonical := hb.modStrand _ _
  clear_value u back life
  refine .ite hb.contain (.ite hu ?_)
  split
  · exact hu.modStrand _ _
  · split
    · exact hu.contain
    · exact (hu.setStrand _ _).deadlineIn

theorem State.Canonical.blockIn (h : s.Canonical) : (s.blockIn i j nd).Canonical := by
  unfold State.blockIn
  refine .fold (fun _ _ hs => ?_) _ ?_
  · exact .ite hs.strandIn hs.strandIn.contain
  · refine .freeSave (.ite (.fold (fun _ _ hs => hs.putW _ _ _) _ ((h.unitPlaces.modBlock _ _).zeroSpad)) ?_)
    exact (h.unitPlaces.modBlock _ _).zeroSpad

theorem State.Canonical.nbhdIn (h : s.Canonical) : (s.nbhdIn i j k l).Canonical := by
  unfold State.nbhdIn
  refine .putCrun (.modNbhd ?_ _ _)
  refine .fold (fun _ _ hs => ?_) _ h
  split
  · exact hs.blockIn
  · exact hs

theorem State.Canonical.placeAt (h : s.Canonical) : (s.placeAt i).1.Canonical := by
  have hp : (s.placeOffered i State.nbhdIn).1.Canonical := h.placeOffered fun _ _ _ _ => h.nbhdIn
  unfold State.placeAt
  extract_lets gid
  clear_value gid
  split
  · exact (hp.of_eq ‹_›).leavePool
  · exact hp

theorem State.Canonical.placeOffers (h : s.Canonical) : (s.placeOffers i).Canonical := by
  unfold State.placeOffers
  refine .fold (fun _ _ hs => ?_) _ h
  split
  · exact hs.placeAt.of_eq ‹_›
  · have h3 := hs.placeAt.of_eq ‹_›
    exact h3.withdraw

theorem State.Canonical.switchOut {rr : Option Reply} {tt : Option TtRec} (h : s.Canonical) :
    (s.switchOut i rr tt e).Canonical := by
  unfold State.switchOut
  extract_lets s1 s2 blks s3 w'
  have h2 : s2.Canonical := .fold (fun _ _ hs => hs.modNbhd _ _) _ h.placeOffers
  have h3 : s3.Canonical := .fold (fun _ _ hs => hs.settleWork) _ h2
  exact .putCrun (h3.same rfl)

theorem State.Canonical.switchBlock (h : s.Canonical) : (s.switchBlock sw).Canonical := by
  unfold State.switchBlock
  split
  · exact h
  · refine .putCrun ?_
    refine .ite ?_ ?_
    · with_reducible refine .same ?_ rfl
      exact .iteFst h h.blockOut
    · with_reducible refine .modNbhd (.same ?_ rfl) _ _
      exact .iteFst h h.blockOut

theorem State.Canonical.switchEnd (h : s.Canonical) : (s.switchEnd sw).Canonical := by
  unfold State.switchEnd
  dsimp only
  split
  · refine .ite (.putCrun (.same h rfl)) ?_
    split
    · exact .ite (.wake (.deliver (.putCrun (.same h rfl)))) (.deliver (.putCrun (.same h rfl)))
    · exact .deliver (.putCrun (.same h rfl))
  · exact .putCrun (.same h rfl)

theorem State.Canonical.switchIn (h : s.Canonical) : (s.switchIn i).1.Canonical :=
  .iteFst h (.putCrun (.fold (fun _ _ hs => hs.modNbhd _ _) _ (h.same rfl)))

/-! ### Launch and status instructions -/

theorem State.Canonical.peekDwords (h : s.Canonical) : (s.peekDwords i j a n).1.Canonical := by
  induction n generalizing s a with
  | zero => exact h
  | succ n ih =>
    rw [State.peekDwords]
    split
    · exact h.translate.of_eq ‹_›
    · have ht := h.translate.of_eq ‹_›
      split
      · have hn := ih (a := a + 8) (ht.drainAt.readPart.of_eq ‹_›)
        split
        · exact hn.of_eq ‹_›
        · exact hn
      · exact ht.drainAt.readPart.of_eq ‹_›

theorem State.Canonical.launch (h : s.Canonical) : Out.Canonical (s.launch ins hd yb e) := by
  refine h.issue fun t x ht => ?_
  extract_lets k stop s1 a
  have h1 : s1.Canonical := ht.showLanes
  have hstop {u : State} (hu : u.Canonical) {r : Eff} : (stop u r).1.Canonical := hu.poisonEffect
  clear_value stop s1
  refine .iteFst ht ?_
  split
  · exact hstop h1
  · refine .iteFst (hstop h1) ?_
    split
    · exact hstop (h1.peekDwords.of_eq ‹_›)
    · have hp := h1.peekDwords.of_eq ‹_›
      exact hp.same rfl

theorem State.Canonical.execJoin (h : s.Canonical) : Out.Canonical (execJoin hd yb s) := by
  unfold Machine.execJoin
  refine h.issue fun _ _ ht => ?_
  refine .iteFst ht ?_
  split
  · exact ht.syncStop
  · exact ht.waitWord

theorem State.Canonical.cancelOp (h : s.Canonical) : Out.Canonical (s.cancelOp ins hd yb e) := by
  unfold State.cancelOp
  refine h.issue fun _ _ ht => ?_
  dsimp only
  split
  · exact ht.poisonEffect
  · exact .ite ht.cancelPod ht.cancelHere

theorem State.Canonical.execLrec (h : s.Canonical) : Out.Canonical (execLrec hd yb s) := by
  refine h.issue fun _ _ ht => ?_
  with_reducible
    dsimp only
    split
    · exact ht.poisonEffect
    · exact .iteFst ht ht.storeDwords

theorem State.Canonical.execLstat (h : s.Canonical) : Out.Canonical (execLstat hd yb s) := h.issue fun _ _ ht => ht.putScalarDest

theorem State.Canonical.execHint {_w : RawInsn} (h : s.Canonical) : Out.Canonical (execHint _w s) := by
  unfold Machine.execHint
  split
  · exact .fault
  · exact .next h.finish

theorem State.Canonical.execIllegalInstruction {raw : RawInsn} (h : s.Canonical) :
    Out.Canonical (execIllegalInstruction raw s) := by
  unfold Machine.execIllegalInstruction
  split
  · exact .fault
  · exact .next h.hold

/-! ### Privileged instructions -/

theorem State.Canonical.priv {eff : State → Cx → State × List Hold × Go} (h : s.Canonical)
    (he : ∀ t cx, t.Canonical → (eff t cx).1.Canonical) : Out.Canonical (s.priv e hd us eff) := by
  unfold State.priv
  split
  · exact .fault
  · exact .ite (.next h.hold) (h.issue fun _ _ ht => .iteFst ht (he _ _ ht.showLanes))

theorem State.Canonical.refuse41 (h : s.Canonical) : (refuse41 s cx).1.Canonical := h

theorem State.Canonical.sysDest (h : s.Canonical) : (s.sysDest cx q v).1.Canonical := h.putScalarDest

theorem State.Canonical.sysNum (h : s.Canonical) : (s.sysNum cx q i).1.Canonical := h.sysDest

theorem State.Canonical.sysStop {e₀ : Eff} (h : s.Canonical) : (s.sysStop cx e₀).1.Canonical := h.poisonEffect

theorem State.Canonical.execSrd (h : s.Canonical) : Out.Canonical (execSrd hd sb s) := by
  refine h.priv fun _ _ ht => ?_
  dsimp only
  split
  · exact ht.sysDest
  · exact ht.regRead.sysDest (s := (State.regRead _ _ _).1)

theorem State.Canonical.execSwr (h : s.Canonical) : Out.Canonical (execSwr hd sb s) := by
  unfold Machine.execSwr
  refine h.priv fun _ _ ht => ?_
  dsimp only
  split
  · exact ht.sysStop
  · exact ht.regWrite
  · exact ht

theorem State.Canonical.execTbinv (h : s.Canonical) : Out.Canonical (execTbinv hd sb s) := by
  unfold Machine.execTbinv
  refine h.priv fun _ _ ht => ?_
  dsimp only
  split
  · exact ht.sysStop
  · exact .iteFst ht.refuse41 ht.tlbDrop

theorem State.Canonical.refreshDebug (h : s.Canonical) : (s.refreshDebug).Canonical := h.same rfl

theorem State.Canonical.execTbsync (h : s.Canonical) : Out.Canonical (execTbsync hd sb s) := by
  refine h.priv fun t _ ht => .iteFst ht ?_
  have hm : ((t.strands.map (·.1)).foldl State.moveImage t).Canonical := .fold (fun _ _ hs => hs.moveImage) _ ht
  exact .ite hm.refreshDebug hm

theorem State.Canonical.onCtx {may : ℕ → Bool} {f₀ : State → ℕ → State × List Hold × Go} (h : s.Canonical)
    (hf : ∀ i, (f₀ s i).1.Canonical) : (s.onCtx cx sb q may f₀).1.Canonical := by
  unfold State.onCtx
  dsimp only
  split
  · exact h.sysDest
  · exact .iteFst (hf _) h

theorem State.Canonical.resave (h : s.Canonical) : (s.resave i).Canonical := h.modStrand _ _

theorem State.Canonical.thenResave {r : Out} (hr : r.Canonical) : Out.Canonical (s.thenResave r) := by
  unfold State.thenResave
  split
  · exact .next (hr _ rfl).resave
  · exact hr

theorem State.Canonical.execCtxswOut (h : s.Canonical) : Out.Canonical (execCtxswOut hd sb s) := by
  unfold Machine.execCtxswOut
  with_reducible exact h.priv fun _ _ ht => ht.onCtx fun _ => ht.awaitWords.switchOut

theorem State.Canonical.unhalt (h : s.Canonical) : (s.unhalt i).Canonical := by
  unfold State.unhalt
  dsimp only
  split
  · split
    · exact (h.setStrand _ _).contain
    · exact (h.setStrand _ _).deadlineIn
  · exact h

theorem State.Canonical.letGo (h : s.Canonical) : (s.letGo i).Canonical := by
  unfold State.letGo
  split
  · exact h.modStrand _ _
  · exact h.modStrand _ _
  · exact h.unhalt

theorem State.Canonical.writeLines (h : s.Canonical) : (s.writeLines i).Canonical :=
  h.drainStrand.checkParity.flushImage.modStrand _ _

theorem State.Canonical.shalt (h : s.Canonical) : (s.shalt i a).Canonical := by
  unfold State.shalt
  dsimp only
  split
  · exact (h.modStrand _ _).dbgPost
  · exact h.settleWork.writeLines.halt

theorem State.Canonical.execShalt (h : s.Canonical) : Out.Canonical (execShalt hd sb s) := by
  refine .thenResave (h.priv fun _ _ ht => ?_)
  dsimp only
  split
  · exact ht.sysDest
  · refine ht.onCtx fun _ => ?_
    split
    · exact ht.sysNum
    · exact (State.Canonical.ite ht ht.shalt).sysDest

theorem State.Canonical.onStrand {may : ℕ → Bool} {f₀ : State → ℕ → State} (h : s.Canonical)
    (hf : ∀ i, (f₀ s i).Canonical) : (s.onStrand cx sb may f₀).1.Canonical := by
  unfold State.onStrand
  dsimp only
  split
  · exact h.sysStop
  · refine .iteFst h ?_
    split
    · exact hf _
    · exact h

theorem State.Canonical.execSresmKill (h : s.Canonical) : Out.Canonical (execSresmKill hd sb s) := by
  refine h.priv fun _ _ ht => ht.onStrand fun _ => ?_
  split
  · exact ht.contain
  · exact ht

theorem State.Canonical.execPld (h : s.Canonical) : Out.Canonical (execPld hd sb s) := by
  unfold Machine.execPld
  refine h.priv fun _ _ ht => ?_
  dsimp only
  split
  · exact ht.sysDest
  · split
    · exact ht.sysDest
    · exact .iteFst ht.refuse41 ht.drainAt.readPart.sysDest

theorem State.Canonical.execPst (h : s.Canonical) : Out.Canonical (execPst hd sb s) := by
  unfold Machine.execPst
  refine h.priv fun _ _ ht => ?_
  dsimp only
  split
  · exact ht.sysStop
  · split
    · exact ht.sysStop
    · exact .iteFst ht.refuse41 ht.drainAt.writeBytes

theorem State.Canonical.logConflict (h : s.Canonical) : (s.logConflict p).Canonical := h.logErr

theorem State.Canonical.toHc (h : s.Canonical) : (s.toHc ns).1.Canonical := by
  unfold State.toHc
  extract_lets cs bad s1 cs' s2
  have h1 : s1.Canonical := .fold (fun _ _ hs => hs.logConflict) _ h
  have h2 : s2.Canonical := .fold (fun _ _ hs => hs.writeBack.dropCopy) _ h1
  exact h2.same rfl

theorem State.Canonical.toSm (h : s.Canonical) : (s.toSm ns).Canonical := h.same rfl

theorem State.Canonical.convert {f₀ : State → List ℕ → State × ℕ} (h : s.Canonical) (hf : ∀ us, (f₀ s us).1.Canonical) :
    (s.convert cx hd sb f₀).1.Canonical := by
  unfold State.convert
  dsimp only
  split
  · exact h.sysDest
  · split
    · exact h
    · exact (hf _).sysNum

theorem State.Canonical.execFqpop (h : s.Canonical) : Out.Canonical (execFqpop hd sb s) := by
  refine h.priv fun _ _ ht => ?_
  dsimp only
  split
  · exact ht.sysDest
  · with_reducible exact .iteFst ht.sysDest (ht.storeDwords.setReg _ _).sysNum

theorem State.Canonical.jTimed (h : s.Canonical) : (s.jTimed tr i j a on).Canonical := h.journal

theorem State.Canonical.ttRemove (h : s.Canonical) : (s.ttRemove i j).Canonical := by
  unfold State.ttRemove
  with_reducible refine .same ?_ rfl
  exact .fold (fun _ _ hs => hs.jTimed) _ h

theorem State.Canonical.ttEnter (h : s.Canonical) : (s.ttEnter i ds).Canonical := by
  unfold State.ttEnter
  with_reducible refine .same ?_ rfl
  exact h.jTimed

theorem State.Canonical.ttLoad (h : s.Canonical) : (s.ttLoad i j k a l n).1.Canonical := by
  induction n generalizing s a l with
  | zero => exact h
  | succ n ih =>
    rw [State.ttLoad]
    split
    · exact h.loadDwords.of_eq ‹_›
    · have hd := h.loadDwords.of_eq ‹_›
      exact .iteFst hd (.iteFst (ih hd.ttRemove) (.iteFst hd (ih hd.ttEnter)))

theorem State.Canonical.execTtload (h : s.Canonical) : Out.Canonical (execTtload hd sb s) := by
  unfold Machine.execTtload
  refine h.priv fun _ _ ht => ?_
  dsimp only
  split
  · exact ht.sysDest
  · exact .iteFst ht ht.ttLoad.sysNum

theorem State.Canonical.cacheClean (h : s.Canonical) : (s.cacheClean on e).Canonical := by
  unfold State.cacheClean
  extract_lets hit mine cs s1 s2
  have h1 : s1.Canonical := .fold (fun _ _ hs => hs.writeBack) _ h
  have h2 : s2.Canonical := h1.same rfl
  exact .ite (h2.same rfl) (h2.same rfl)

/-! ### Events of strands, grids and dispatchers -/

theorem State.Canonical.execFetchTrap (h : s.Canonical) : Out.Canonical (execFetchTrap i j q s) := by
  unfold Machine.execFetchTrap
  split
  · exact .fault
  · split
    · have h1 := h.fetchLine.of_eq ‹_›
      exact .next (.ite h1.fetchTrap h)
    · exact .next h

theorem State.Canonical.execInstructionCacheFill (h : s.Canonical) : Out.Canonical (execInstructionCacheFill i j a s) := by
  unfold Machine.execInstructionCacheFill
  split
  · have h1 := h.translate.of_eq ‹_›
    exact .next h1.icFill
  · have h1 := h.translate.of_eq ‹_›
    exact .next h1

theorem State.Canonical.execStarvationPromote (h : s.Canonical) : Out.Canonical (execStarvationPromote i j s) := by
  unfold Machine.execStarvationPromote
  split
  · exact .fault
  · exact .next (h.modStrand _ _)

theorem State.Canonical.retireNbhd (h : s.Canonical) : (s.retireNbhd i).Canonical := .ite (.putCrun (.same h rfl)) h

theorem State.Canonical.retireBlock (h : s.Canonical) : (s.retireBlock i).Canonical :=
  .ite (.retireNbhd (.modGrid (.modBlock (.ite h.freeSave h.freeSpad) _ _) _ _)) h

theorem State.Canonical.retire (h : s.Canonical) : (s.retire i).Canonical := by
  unfold State.retire
  with_reducible refine .retireBlock (.modStrand (.barRetire (.modStrand (.same ?_ rfl) _ _)) _ _)
  exact h.drainStrand.freeImage.freeSlotNo

theorem State.Canonical.execStrandRetire (h : s.Canonical) : Out.Canonical (execStrandRetire i s) := by
  unfold Machine.execStrandRetire
  split
  · exact .fault
  · refine .ite (.next h) (.ite (.next h.dropLocket.retire) ?_)
    split
    · exact .next h.contain
    · exact .next h.release.retire

theorem State.Canonical.execGridComplete (h : s.Canonical) : Out.Canonical (execGridComplete i s) := by
  unfold Machine.execGridComplete
  split
  · exact .fault
  · refine .ite (.next h) ?_
    split
    · exact .next (.sendHalo (.same h rfl))
    · exact .next (.endLaunch (.same h rfl))

theorem State.Canonical.popLq (h : s.Canonical) : (s.popLq lq).Canonical := by
  unfold State.popLq
  dsimp only
  split
  · exact h.same rfl
  · exact h.same rfl

theorem State.Canonical.poolRec (h : s.Canonical) : (s.poolRec lq ds).Canonical :=
  .ite h.acceptGrid.cancelGrid h.acceptGrid

theorem State.Canonical.startZenith (h : s.Canonical) : (s.startZenith lq).Canonical := by
  unfold State.startZenith
  dsimp only
  split
  · have h1 := h.jAccept.recordValid.of_eq ‹_›
    exact h1.reject
  · have h1 := h.jAccept.recordValid.of_eq ‹_›
    split
    · have h2 := h1.shareTable.of_eq ‹_›
      exact h2.reject
    · have h2 := h1.shareTable.of_eq ‹_›
      exact .fold (fun _ _ hs => hs.sendHalo) _ (h2.same rfl)

theorem State.Canonical.ovfFull (h : s.Canonical) : (s.ovfFull).Canonical := by
  unfold State.ovfFull
  with_reducible refine .ite h.setRegF (.same ?_ rfl)
  exact h.setRegF.report

theorem State.Canonical.toOverflow (h : s.Canonical) : (s.toOverflow lq).Canonical := by
  unfold State.toOverflow
  refine .ite ?_ ?_
  · with_reducible refine .same ?_ rfl
    exact h.putDwords _ _
  · with_reducible refine .ovfFull (.same ?_ rfl)
    exact h.putDwords _ _

theorem State.Canonical.takeRec (h : s.Canonical) : (s.takeRec lq ds).Canonical := .ite h.startZenith h.poolRec

theorem State.Canonical.execLaunchQueueHandoff (h : s.Canonical) : Out.Canonical (execLaunchQueueHandoff i s) := by
  unfold Machine.execLaunchQueueHandoff
  split
  · exact .fault
  · exact .next (.ite h (.ite h.popLq.takeRec (.ite h.popLq.toOverflow h.ovfFull)))

theorem State.Canonical.execOverflowMove (h : s.Canonical) : Out.Canonical (execOverflowMove s) := by
  unfold Machine.execOverflowMove
  split
  · exact .fault
  · exact .next (.ite (.takeRec (.same h rfl)) h)

theorem State.Canonical.takePost {x₀ : Post} (h : s.Canonical) : (s.takePost x₀).Canonical :=
  .ite (.logErr (.same h rfl)) (.ite (.dropPost (.same h rfl)) (.ite (h.same rfl) (h.same rfl)))

theorem State.Canonical.execPostWindowWrite (h : s.Canonical) : Out.Canonical (execPostWindowWrite i e j ds s) := by
  unfold Machine.execPostWindowWrite
  refine .next ?_
  split
  · exact .ite h.takePost h.post
  · exact h.takePost

theorem State.Canonical.popQueue (h : s.Canonical) : (s.popQueue i).Canonical := h.same rfl

theorem State.Canonical.execLaunchPacketAccept (h : s.Canonical) : Out.Canonical (execLaunchPacketAccept i s) := by
  unfold Machine.execLaunchPacketAccept
  split
  · exact .next h
  · exact .next h.popQueue.acceptGrid

theorem State.Canonical.cancelPk {p₀ : QPacket} (h : s.Canonical) : (s.cancelPk i p₀ e).Canonical := by
  unfold State.cancelPk
  refine .ite h.popQueue.jAccept.reject (.ite h.popQueue.jAccept.cancelZenith ?_)
  exact h.popQueue.jAccept.cancelHere

theorem State.Canonical.execCancelPacket (h : s.Canonical) : Out.Canonical (execCancelPacket i s) := by
  unfold Machine.execCancelPacket
  split
  · exact .next h
  · exact .next h.cancelPk

theorem State.Canonical.execCancelTermPacket (h : s.Canonical) : Out.Canonical (execCancelTermPacket i s) := by
  unfold Machine.execCancelTermPacket
  split
  · exact .next h
  · exact .next h.cancelPk

theorem State.Canonical.execNbhdOffer (h : s.Canonical) : Out.Canonical (execNbhdOffer i j s) := by
  unfold Machine.execNbhdOffer
  split
  · have ho {os : List (ℕ × ℕ × ℕ × ℕ)} : ({ s with offers := os, lastClu := i } : State).Canonical := h.same rfl
    exact .ite (.next h) (.next (.ite ho (ho.modGrid _ _)))
  · exact .next h

theorem State.Canonical.execNbhdPlace (h : s.Canonical) : Out.Canonical (execNbhdPlace i s) := by
  unfold Machine.execNbhdPlace
  split
  · have h1 := h.placeAt.of_eq ‹_›
    exact .next h1
  · exact .next h

theorem State.Canonical.execOfferTimeout (h : s.Canonical) : Out.Canonical (execOfferTimeout i s) := by
  unfold Machine.execOfferTimeout
  split
  · exact .fault
  · exact .next (.ite h.withdraw h)

theorem State.Canonical.execSlotTakeback (h : s.Canonical) : Out.Canonical (execSlotTakeback i s) := by
  unfold Machine.execSlotTakeback
  split
  · exact .fault
  · exact .next (.ite (h.modStrand _ _) h)

theorem State.Canonical.execStrandReadmit (h : s.Canonical) : Out.Canonical (execStrandReadmit i s) := by
  unfold Machine.execStrandReadmit
  split
  · exact .fault
  · split
    · exact .next h
    · exact .ite (.next h) (.next (.moveImage (.ite ((h.modStrand _ _).fireDeadline) (h.modStrand _ _))))

theorem State.Canonical.flushCores {p₀ : ℕ → Bool} (h : s.Canonical) : (s.flushCores p₀).Canonical := h.same rfl

theorem State.Canonical.execCstoreApply (h : s.Canonical) : Out.Canonical (execCstoreApply i s) := by
  unfold Machine.execCstoreApply
  split
  · exact .fault
  · exact .next (.ite (h.same rfl) h)

/-! ### Timed actions -/

theorem State.Canonical.gangMembers (h : s.Canonical) : (s.gangMembers i).1.Canonical := by
  unfold State.gangMembers
  split
  · exact h.shareTable.of_eq ‹_›
  · exact h.shareTable.of_eq ‹_›

theorem State.Canonical.logStraggler (h : s.Canonical) : (s.logStraggler i j k on).Canonical := by
  unfold State.logStraggler
  dsimp only
  split
  · exact h.logErr.jTimed
  · exact h.logErr

theorem State.Canonical.reportLate (h : s.Canonical) : (s.reportLate i j k ns).Canonical :=
  .ite h (.fold (fun _ _ hs => hs.sendHalo) _ h.logStraggler)

theorem State.Canonical.sendMarkers (h : s.Canonical) : (s.sendMarkers i j).Canonical := h.same rfl

theorem State.Canonical.ttStart (h : s.Canonical) : (s.ttStart tr).Canonical := by
  unfold State.ttStart
  dsimp only
  exact h.ctxWords.acceptGrid

theorem State.Canonical.ttDone (h : s.Canonical) : (s.ttDone tr).Canonical := h.jTimed

theorem State.Canonical.ttDo (h : s.Canonical) : (s.ttDo tr).Canonical :=
  .ite h.ttStart.ttDone (.ite h.switchOut h.switchIn.ttDone)

theorem State.Canonical.switchOver (h : s.Canonical) : (s.switchOver sw).Canonical := by
  unfold State.switchOver
  split
  · with_reducible refine .ite h.switchEnd.ttDone (.ite h.switchEnd.ttDo (.same ?_ rfl))
    exact h.switchEnd
  · exact h.switchEnd

theorem State.Canonical.ttGo (h : s.Canonical) : (s.ttGo tr).Canonical := .ite (.ttDo (.same h rfl)) h

theorem State.Canonical.ttPerform (h : s.Canonical) : (s.ttPerform tr).Canonical := by
  unfold State.ttPerform
  refine .ite ?_ ?_
  · refine .ite ?_ ?_
    · with_reducible refine .reportLate (.same ?_ rfl)
      refine .ite ?_ ?_
      · refine .switchOut ?_
        split
        · exact h.gangMembers
        · exact h
      · split
        · exact h.gangMembers
        · exact h
    · refine .ite ?_ ?_
      · refine .switchOut ?_
        split
        · exact h.gangMembers
        · exact h
      · split
        · exact h.gangMembers
        · exact h
  · refine .ttDo ?_
    refine .ite ?_ ?_
    · with_reducible refine .reportLate (.same ?_ rfl)
      refine .ite ?_ ?_
      · refine .switchOut ?_
        split
        · exact h.gangMembers
        · exact h
      · split
        · exact h.gangMembers
        · exact h
    · refine .ite ?_ ?_
      · refine .switchOut ?_
        split
        · exact h.gangMembers
        · exact h
      · split
        · exact h.gangMembers
        · exact h

theorem State.Canonical.leaderSwitch (h : s.Canonical) : (s.leaderSwitch tr).Canonical := by
  unfold State.leaderSwitch
  split
  · exact h
  · exact .ite h (.fold (fun _ _ hs => hs.sendHalo) _ h.gangMembers)

theorem State.Canonical.ttTake (h : s.Canonical) : (s.ttTake tr).Canonical := by
  unfold State.ttTake
  extract_lets u rule
  have hu : u.Canonical := .leaderSwitch (h.same rfl)
  clear_value u
  with_reducible exact .ite hu.setRegF.jTimed.note (.ite (hu.same rfl) hu.ttPerform)

theorem State.Canonical.ttEvent (h : s.Canonical) : Out.Canonical (s.ttEvent i j) := by
  unfold State.ttEvent
  split
  · exact .next h.ttTake
  · exact .next h

theorem State.Canonical.execTtDelayExpiry (h : s.Canonical) : Out.Canonical (execTtDelayExpiry i s) := by
  unfold Machine.execTtDelayExpiry
  split
  · exact .fault
  · exact .next (.ite (.ttPerform (.same h rfl)) h)

theorem State.Canonical.refuseFrom (h : s.Canonical) : (s.refuseFrom i).Canonical := h.logErr

theorem State.Canonical.execMarkerTimeout (h : s.Canonical) : Out.Canonical (execMarkerTimeout i j k s) := by
  unfold Machine.execMarkerTimeout
  split
  · exact .fault
  · have hl : (s.logStraggler i j k none).Canonical := h.logStraggler
    generalize s.logStraggler i j k none = u at hl ⊢
    exact .ite (.next h) (.next (hl.same rfl))

theorem State.Canonical.askFor (h : s.Canonical) : (s.askFor i j tr).Canonical :=
  .ite (.sendHalo (.report (.same h rfl))) (h.same rfl)

theorem State.Canonical.heard (h : s.Canonical) : (s.heard msg).Canonical := h.same rfl

theorem State.Canonical.ttRelease (h : s.Canonical) : (s.ttRelease tr i).Canonical :=
  .ite (.ttTake (.same h rfl)) (h.same rfl)

/-! ### Pod grids -/

theorem State.Canonical.heardFrom (h : s.Canonical) : (s.heardFrom i msg).Canonical := h.same rfl

theorem State.Canonical.execPodLaunchRecord (h : s.Canonical) : Out.Canonical (execPodLaunchRecord i j ds s) := by
  have hv := (h.heardFrom (i := i) (msg := .record j ds)).recordValid (i := j) (e := true) (ds := ds)
  unfold Machine.execPodLaunchRecord
  dsimp only
  split
  · exact .next (hv.of_eq ‹_›).sendHalo
  · refine .next (.sendHalo (.same ?_ rfl))
    exact (hv.of_eq ‹_›).jAccept

theorem State.Canonical.podGrid {h₀ : PodHeld} (h : s.Canonical) : (s.podGrid h₀).1.Canonical := h.shareTable

theorem State.Canonical.podEnter {h₀ : PodHeld} (h : s.Canonical) : (s.podEnter h₀).Canonical := by
  unfold State.podEnter
  refine .ite ?_ ?_
  · with_reducible refine .poolGrid (.same ?_ rfl)
    exact h.podGrid
  · with_reducible refine .same ?_ rfl
    exact h.podGrid

theorem State.Canonical.execGo (h : s.Canonical) : Out.Canonical (execGo i j a s) := by
  unfold Machine.execGo
  dsimp only
  split
  · exact .next h.heardFrom.podEnter
  · exact .next h.heardFrom

theorem State.Canonical.tellMembers (h : s.Canonical) : (s.tellMembers zn msg).Canonical :=
  .fold (fun _ _ hs => hs.sendHalo) _ h

theorem State.Canonical.zenithReject (h : s.Canonical) : (s.zenithReject zn).Canonical :=
  .reject (.tellMembers (.same h rfl))

theorem State.Canonical.zenithGo (h : s.Canonical) : (s.zenithGo zn).Canonical :=
  .ite (.endLaunch (.tellMembers (.same h rfl))) (.tellMembers (.same h rfl))

theorem State.Canonical.execAccept (h : s.Canonical) : Out.Canonical (execAccept i j a s) := by
  unfold Machine.execAccept
  extract_lets s1
  have h1 : s1.Canonical := h.heardFrom
  clear_value s1
  split
  · exact .next h1
  · refine .ite (.next h1) (.next (.ite (.zenithGo ?_) ?_)) <;> exact h1.same rfl

theorem State.Canonical.execReject (h : s.Canonical) : Out.Canonical (execReject i j a s) := by
  unfold Machine.execReject
  dsimp only
  split
  · exact .next h.heardFrom
  · exact .next h.heardFrom.zenithReject

theorem State.Canonical.execZenithReplyTimeout (h : s.Canonical) : Out.Canonical (execZenithReplyTimeout i a s) := by
  unfold Machine.execZenithReplyTimeout
  split
  · exact .fault
  · exact .next (.ite h.zenithReject h)

theorem State.Canonical.zenithReport {r₀ : Report} (h : s.Canonical) : (s.zenithReport zn i r₀).Canonical :=
  .ite (.endLaunch (.same h rfl)) (h.same rfl)

theorem State.Canonical.execCompletionReport {r₀ : Report} (h : s.Canonical) : Out.Canonical (execCompletionReport i j a r₀ s) := by
  unfold Machine.execCompletionReport
  dsimp only
  split
  · exact .next h.heardFrom.zenithReport
  · exact .next h.heardFrom

theorem State.Canonical.execCancelMemberTimeout (h : s.Canonical) : Out.Canonical (execCancelMemberTimeout i a j s) := by
  unfold Machine.execCancelMemberTimeout
  split
  · exact .fault
  · exact .next (.ite h.logErr.zenithReport h)

theorem State.Canonical.cancelPart (h : s.Canonical) : (s.cancelPart i j a e).Canonical := by
  unfold State.cancelPart
  refine .fold (fun _ _ hs => ?_) _ (.fold (fun _ _ hs => hs.cancelGrid) _ h)
  with_reducible refine .poolGrid (.same ?_ rfl)
  exact hs.podGrid

theorem State.Canonical.haloTake (h : s.Canonical) : (s.haloTake i msg).Canonical := .ite (h.same rfl) h.refuseFrom

theorem State.Canonical.haloRun (h : s.Canonical) : (s.haloRun i n).Canonical := by
  induction n generalizing s with
  | zero => exact h
  | succ n ih =>
    rw [State.haloRun]
    split
    · exact h
    · exact ih (.haloTake (h.same rfl))

theorem State.Canonical.execHaloMessageReceive (h : s.Canonical) : Out.Canonical (execHaloMessageReceive i j e msg s) := by
  unfold Machine.execHaloMessageReceive
  refine .ite (.next h) ?_
  exact .ite (.next (.haloRun (.haloTake (.same h rfl)))) (.ite (.next h) (.ite (.next h) (.next (h.same rfl))))

theorem State.Canonical.unreachable (h : s.Canonical) : (s.unreachable i).Canonical :=
  .fold (fun _ _ hs => hs.zenithReject) _ (h.same rfl)

theorem State.Canonical.execHaloRetransmit (h : s.Canonical) : Out.Canonical (execHaloRetransmit i j s) := by
  unfold Machine.execHaloRetransmit
  split
  · exact .fault
  · exact .ite (.next h) (.ite (.next h.unreachable) (.next (.haloCopies (.same h rfl))))

theorem State.Canonical.haloNextOut (h : s.Canonical) : (s.haloNextOut i).Canonical := by
  unfold State.haloNextOut
  split
  · exact h
  · exact .haloCopies (.same h rfl)

theorem State.Canonical.execHaloAcknowledgement (h : s.Canonical) : Out.Canonical (execHaloAcknowledgement i j s) := by
  unfold Machine.execHaloAcknowledgement
  split
  · exact .next h
  · exact .next (.haloNextOut (.same h rfl))

theorem State.Canonical.moveTraffic (h : s.Canonical) : (s.moveTraffic i).Canonical :=
  .ite (.fold (fun _ _ hs => hs.failReq) _ h) (h.same rfl)

/-! ### Requests of other devices -/

theorem State.Canonical.fabReply (h : s.Canonical) : (s.fabReply fq v).Canonical := h.same rfl

theorem State.Canonical.fabWrite (h : s.Canonical) : (s.fabWrite fq p i mws).Canonical := by
  unfold State.fabWrite
  split
  · exact .ite h.post h.dropPost
  · exact .fold (fun _ _ hs => .ite hs hs.writeW) _ h

theorem State.Canonical.fabRead (h : s.Canonical) : (s.fabRead fq p i).1.Canonical := by
  unfold State.fabRead
  refine .foldFst (fun _ _ hs => ?_) _ (p := (_, _)) h
  exact hs.readW

theorem State.Canonical.fabPerform (h : s.Canonical) : (s.fabPerform fq p).Canonical := by
  unfold State.fabPerform
  split
  · exact h.fabWrite.fabReply
  · exact h.fabWrite.fabReply
  · refine .ite h.fabReply (.fabReply ?_)
    refine .fold (fun _ _ hs => ?_) _ h
    exact hs.fabWrite
  · with_reducible refine .same ?_ rfl
    refine .foldFst (fun _ _ hs => ?_) _ (p := (_, _)) h
    exact hs.fabRead
  · with_reducible refine .same ?_ rfl
    exact h.fabRead
  · exact h.same rfl

theorem State.Canonical.fabRequest (h : s.Canonical) : (s.fabRequest fq e).Canonical := by
  unfold State.fabRequest
  refine .ite h (.ite (h.same rfl) ?_)
  split
  · exact h.same rfl
  · refine .ite h ?_
    split
    · exact .fabReply (.ite h.logErr h)
    · exact h.fabPerform
    · exact h

theorem State.Canonical.execUalinkStandardRequest (h : s.Canonical) : Out.Canonical (execUalinkStandardRequest fq s) :=
  .next h.fabRequest

theorem State.Canonical.execFabricAcknowledge {seq : HomeSeq} (h : s.Canonical) : Out.Canonical (execFabricAcknowledge i j seq s) :=
  .next (h.same rfl)

theorem State.Canonical.execFabricRetransmit (h : s.Canonical) : Out.Canonical (execFabricRetransmit i s) := by
  unfold Machine.execFabricRetransmit
  split
  · exact .fault
  · exact .ite (.next h) (.next (h.same rfl))

theorem State.Canonical.execFabricRequestTimeout (h : s.Canonical) : Out.Canonical (execFabricRequestTimeout i s) := by
  unfold Machine.execFabricRequestTimeout
  split
  · exact .fault
  · exact .next (.ite h.failReq h)

/-! ### Events from outside -/

theorem State.Canonical.hostReadW (h : s.Canonical) : (s.hostReadW i).1.Canonical := by
  unfold State.hostReadW
  split
  · exact .iteFst h.readRegWord h.readHC
  · exact h

theorem State.Canonical.hostWriteW (h : s.Canonical) : (s.hostWriteW i mw).Canonical := by
  unfold State.hostWriteW
  split
  · exact .ite h.writeRegWord h.writeHC
  · exact h

theorem State.Canonical.hostWrites (h : s.Canonical) : (s.hostWrites i mws).Canonical := by
  induction mws using List.twoStepInduction generalizing s i with
  | nil => exact h
  | singleton w => exact h.hostWriteW
  | cons_cons w v ws ih ih' =>
    rw [State.hostWrites]
    split
    · exact ih (.ite h.regWrite h)
    · exact ih' _ h.hostWriteW

theorem State.Canonical.hostWrite (h : s.Canonical) : (s.hostWrite i mws).Canonical := by
  unfold State.hostWrite
  split
  · exact .ite h.post h.dropPost
  · exact h.hostWrites

theorem State.Canonical.hostReads (h : s.Canonical) : (s.hostReads i j).1.Canonical := by
  unfold State.hostReads
  refine .foldFst (fun _ _ hs => ?_) _ (p := (_, _)) h
  exact hs.hostReadW

theorem Mem.wf_foldl {α : Type} {f : Mem → α → Mem} (hf : ∀ m x, m.wf = true → (f m x).wf = true) (xs : List α) {mm : Mem}
    (hm : mm.wf = true) : (xs.foldl f mm).wf = true := by
  induction xs generalizing mm with
  | nil => exact hm
  | cons x xs ih => exact ih (hf mm x hm)

theorem State.Canonical.execHostBarAccess {op₀ : HostOp} (h : s.Canonical) : Out.Canonical (execHostBarAccess i j op₀ s) := by
  unfold Machine.execHostBarAccess
  refine .ite (.next h) (.ite ?_ ?_)
  · split
    · exact .next (h.same rfl)
    · obtain ⟨hm, hh, hb, hr, hs⟩ := h
      refine .next ⟨hm, hh, Mem.wf_foldl (fun m x hx => ?_) _ hb, hr, hs⟩
      split
      · exact Mem.wf_setWord _ _ _ _ hx
      · exact hx
  · split
    · exact .next h
    · exact .next (h.hostReads.same rfl)
    · exact .next h.hostWrite

theorem State.Canonical.execFirmwareFault (h : s.Canonical) : Out.Canonical (execFirmwareFault s) := by
  unfold Machine.execFirmwareFault
  refine .next ?_
  with_reducible refine .same ?_ rfl
  exact h.report

theorem State.Canonical.setClock (h : s.Canonical) : (s.setClock i e).Canonical := h.setReg _ _

theorem State.Canonical.correct {offset : ℤ} (h : s.Canonical) : (s.correct offset).Canonical := .ite (h.same rfl) (h.same rfl)

theorem State.Canonical.execDevicePartitionWrite (h : s.Canonical) : Out.Canonical (execDevicePartitionWrite ag i a s) :=
  .ite .fault (.next h.writePart)

theorem State.Canonical.execJournalControlWrite (h : s.Canonical) : Out.Canonical (execJournalControlWrite ag i a s) :=
  .ite (.next h.writeJournal) .fault

theorem State.Canonical.execErrorLogControlWrite (h : s.Canonical) : Out.Canonical (execErrorLogControlWrite ag i a s) :=
  .ite (.next h.writeErrLog) .fault

theorem State.Canonical.execOverflowConfigWrite (h : s.Canonical) : Out.Canonical (execOverflowConfigWrite ag i a s) :=
  .ite (.next h.writeOverflow) .fault

theorem State.Canonical.execProfileConfigWrite (h : s.Canonical) : Out.Canonical (execProfileConfigWrite ag i j a s) :=
  .ite .fault (.next h.regWrite)

theorem State.Canonical.execRcRegisterRead (h : s.Canonical) : Out.Canonical (execRcRegisterRead ag r s) := by
  have hr : (s.regRead ag r).1.Canonical := h.regRead
  unfold Machine.execRcRegisterRead
  refine .ite (.next h) (.next ?_)
  split
  · exact hr.same rfl
  · exact hr

theorem State.Canonical.execMatrixPassComplete (h : s.Canonical) : Out.Canonical (execMatrixPassComplete mp s) := by
  unfold Machine.execMatrixPassComplete
  split
  · exact .fault
  · exact .next (.fold (fun _ _ hs => hs.applyPass) _ h)

theorem State.Canonical.shFail (h : s.Canonical) : (s.shFail i).Canonical := h.setReg _ _

theorem State.Canonical.execShadowSampleDone (h : s.Canonical) : Out.Canonical (execShadowSampleDone s) := by
  unfold Machine.execShadowSampleDone
  split
  · exact .fault
  · extract_lets s1
    have h1 : s1.Canonical := h.same rfl
    clear_value s1
    refine .ite (.next h1.shFail) ?_
    split
    · exact .next (h1.translate.of_eq ‹_›).shFail
    · have ht := h1.translate.of_eq ‹_›
      exact .next ((ht.touchRetired.checkImage.checkImage.setReg _ _).setReg _ _)

theorem State.Canonical.execFqBufferPost (h : s.Canonical) : Out.Canonical (execFqBufferPost s) := by
  unfold Machine.execFqBufferPost
  split
  · exact .fault
  · refine .next ?_
    with_reducible refine .ite h (.same ?_ rfl)
    exact h.fqWrite

theorem State.Canonical.containAll {p₀ : Strand → Bool} (h : s.Canonical) : (s.containAll q p₀).Canonical :=
  .fold (fun _ _ hs => hs.contain) _ h

theorem State.Canonical.endBodies (h : s.Canonical) : (s.endBodies).Canonical := .fold (fun _ _ hs => hs.claspEnd) _ h

theorem State.Canonical.closeDomain (h : s.Canonical) : (s.closeDomain i q a).Canonical := h.logErr.setRegF.logErr.containAll

theorem State.Canonical.execErrorDomainClose (h : s.Canonical) : Out.Canonical (execErrorDomainClose i s) := by
  unfold Machine.execErrorDomainClose
  refine .ite .fault ?_
  split
  · exact .next h
  · exact .next (.closeDomain (.same h rfl))

theorem State.Canonical.afterReset (h : s.Canonical) : s.afterReset.Canonical := by
  obtain ⟨hm, hh, hb, hr, hs⟩ := h
  refine ⟨?_, hh, rfl, hr, nofun⟩
  unfold State.afterReset
  dsimp only
  split
  · exact hm
  · rfl

theorem State.Canonical.execPowerOnReset (h : s.Canonical) : Out.Canonical (execPowerOnReset s) := by
  have hr : ((s.containAll 0x59 fun _ => true).afterReset.setRegF rBRSTAT 60 4 1).Canonical := h.containAll.afterReset.setRegF
  exact .next (hr.same rfl)

theorem State.Canonical.leaveStage (h : s.Canonical) : (s.leaveStage i e).Canonical := .ite h.setRegF h

theorem State.Canonical.execFirmwareStageDone (h : s.Canonical) : Out.Canonical (execFirmwareStageDone s) := by
  unfold Machine.execFirmwareStageDone
  refine .next ?_
  with_reducible refine .ite (.same ?_ rfl) h
  exact h.leaveStage

theorem State.Canonical.execMemoryTrainingDone (h : s.Canonical) : Out.Canonical (execMemoryTrainingDone s) := by
  unfold Machine.execMemoryTrainingDone
  refine .next ?_
  with_reducible refine .ite (.same ?_ rfl) h
  exact h.leaveStage

theorem State.Canonical.bindSpare (h : s.Canonical) : (s.bindSpare i j).Canonical := by
  have h1 : (s.setRegF (rCHSPR i) 8 8 j).Canonical := h.setRegF
  have h2 : ((s.setRegF (rCHSPR i) 56 8 j).setRegF (rCHSPR i) 16 1 1).Canonical := h.setRegF.setRegF
  exact .ite (h1.same rfl) (h2.same rfl)

/-! ### Coherence of the host and resets of a die -/

theorem State.Canonical.dirDrop {p₀ : DirEnt → Bool} (h : s.Canonical) : (s.dirDrop p₀).Canonical := h.same rfl

theorem State.Canonical.execDieReset (h : s.Canonical) : Out.Canonical (execDieReset i s) := by
  unfold Machine.execDieReset
  refine .ite .fault (.ite (.next (h.same rfl)) ?_)
  extract_lets s1 homed gone s2 s3 s4 s5
  have h2 : s2.Canonical := .flushCores (h.same rfl)
  have h3 : s3.Canonical := h2.same rfl
  have h4 : s4.Canonical := .fold (fun _ _ hs => hs.writeBack.dropCopy) _ h3
  have h5 : (s5.tlbDrop (some i) fun _ => true).Canonical := h4.dirDrop.tlbDrop
  exact .next (h5.same rfl)

theorem State.Canonical.execHostSnoop (h : s.Canonical) : Out.Canonical (execHostSnoop i s) := by
  unfold Machine.execHostSnoop
  refine .next ?_
  with_reducible refine .same ?_ rfl
  exact .fold (fun _ _ hs => hs.writeBack.dropCopy) _ h

theorem State.Canonical.hostTouch (h : s.Canonical) : (s.hostTouch i cr).Canonical :=
  h.touchRetired.checkImage.showLoc.cohRequest

theorem State.Canonical.hostMemRead (h : s.Canonical) : (s.hostMemRead i j).1.Canonical :=
  .foldFst (fun _ _ hs => hs.hostTouch) _ (p := (_, _)) h

theorem State.Canonical.hostMemWrite (h : s.Canonical) : (s.hostMemWrite i mws).Canonical :=
  .fold (fun _ _ hs => hs.hostTouch.lineClean.putW _ _ _) _ h

theorem State.Canonical.execHostMemoryAccess {op₀ : HostOp} (h : s.Canonical) : Out.Canonical (execHostMemoryAccess i op₀ s) := by
  unfold Machine.execHostMemoryAccess
  refine .ite (.next h) ?_
  split
  · refine .next ?_
    with_reducible refine .same ?_ rfl
    exact h.hostMemRead
  · exact .next h.hostMemWrite

/-! ### Errors of the hardware -/

theorem State.Canonical.countFix (h : s.Canonical) : (s.countFix i e).Canonical := h.bump

theorem State.Canonical.countFixL2 (h : s.Canonical) : (s.countFixL2 i e).Canonical := h.bump

theorem State.Canonical.poisonSector (h : s.Canonical) : (s.poisonSector i w).Canonical := h.putWords _ _

theorem State.Canonical.strike {e₀ : Strike} (h : s.Canonical) : (s.strike e₀).Canonical := by
  unfold State.strike
  split
  case h_1 =>
    split
    · exact .ite (h.modStrand _ _) h
    · exact h
  case h_2 => exact .ite (h.same rfl) h
  case h_3 =>
    refine .ite h (.ite h.countFixL2 ?_)
    dsimp only
    split
    · exact h.countFixL2.closeDomain.poisonSector
    · exact h.countFixL2.poisonSector
  case h_4 =>
    refine .ite h ?_
    dsimp only
    with_reducible exact .ite h.countFix h.countFix.poisonSector
  case h_5 => exact .ite (h.modStrand _ _) h
  case h_6 =>
    split
    · exact h
    · extract_lets u
      have hu : u.Canonical := h.countFix
      clear_value u
      refine .ite hu ?_
      split
      have hr := hu.record.of_eq ‹_›
      exact hr.same rfl
  case h_7 => exact h.same rfl
  case h_8 => exact .ite h.closeDomain h
  case h_9 => exact h.same rfl

/-! ### The matrix units -/

theorem State.Canonical.settleMat {α : Type} {rs : List ((ℕ × ℕ × ℕ) × Option ℕ × Except ReplyVal α)} (h : s.Canonical) :
    (s.settleMat i a j rs).1.Canonical := by
  refine .endTag (.foldFst (fun _ _ hs => ?_) _ (p := (_, _)) h)
  split
  · exact hs
  · exact hs.sharedToken
  · exact hs
  · exact hs

theorem State.Canonical.readSpans {spans : List Span} (h : s.Canonical) : (s.readSpans i spans).Canonical := by
  unfold State.readSpans
  refine .ite h ?_
  refine .fold (fun _ _ hs => ?_) _ h
  refine .fold (fun _ _ hs => ?_) _ hs
  split
  · exact hs.checkSpad.showLoc
  · exact hs

theorem State.Canonical.readLatch (h : s.Canonical) : (s.readLatch i a latch).Canonical := h.checkParity.readSpans

theorem State.Canonical.settleCols {cols : List ColAt} (h : s.Canonical) : (s.settleCols i a j latch cols).1.Canonical :=
  h.settleLines

theorem State.Canonical.putLatch {l₀ : Latch} (h : s.Canonical) : (s.putLatch l₀).Canonical := h.same rfl

theorem State.Canonical.noteLatches (h : s.Canonical) : (s.noteLatches).Canonical := .ite h (h.same rfl)

theorem State.Canonical.bank (h : s.Canonical) : (s.bank i a j).1.Canonical := by
  unfold State.bank
  refine .iteFst h (.iteFst h ?_)
  split
  · exact h.readLatch
  · exact h

theorem State.Canonical.mlatch (h : s.Canonical) : (s.mlatch cx tb i d0 d1 e).1.Canonical := by
  unfold State.mlatch
  extract_lets bk r cols s1
  have h1 : s1.Canonical := h.readLatch.modStrand _ _
  clear_value s1
  split
  · exact h
  · split
    exact (h1.settleCols.of_eq ‹_›).endTag.putLatch

theorem State.Canonical.issueMat {eff : State → Cx → State × List Hold × Go} (h : s.Canonical)
    (he : ∀ t cx, t.Canonical → (eff t cx).1.Canonical) : Out.Canonical (s.issueMat e hd us eff) :=
  h.issue fun t cx ht => .iteFst ht (he t cx ht)

theorem State.Canonical.mrelEff (h : s.Canonical) : (mrelEff hd tb s cx).1.Canonical := by
  refine .modStrand ?_ _ _
  exact h.same rfl

theorem State.Canonical.stageSource (h : s.Canonical) : (s.stageSource cx tb i a).1.Canonical := h.modStrand _ _

theorem State.Canonical.msclaEff (h : s.Canonical) : (msclaEff hd tb s cx).1.Canonical := h.stageSource

theorem State.Canonical.queuePass (h : s.Canonical) : (s.queuePass mp).Canonical := h.same rfl

theorem State.Canonical.corruptMode (h : s.Canonical) : (s.corruptMode cx).1.Canonical := by
  unfold State.corruptMode
  dsimp only
  exact h.contain

theorem State.Canonical.mmq {a₀ : AIn} (h : s.Canonical) : (s.mmq cx hd tb a₀).1.Canonical := by
  unfold State.mmq
  extract_lets t ta g rows pass markAll
  have hp {u : State} {mk int al bl} (hu : u.Canonical) : (pass u mk int al bl).Canonical := hu.queuePass
  have hm {u : State} {v : ReplyVal} (hu : u.Canonical) : (markAll u v).1.Canonical := by
    unfold markAll
    dsimp only
    split
    · exact hp hu.settleMat
    · exact hu.settleMat
  clear_value pass markAll
  refine .iteFst h (.iteFst h.corruptMode ?_)
  split
  · exact hm h
  · split
    · exact hm (h.bank.of_eq ‹_›)
    · exact hm (h.bank.of_eq ‹_›)
    · have hb := h.bank.of_eq ‹_›
      dsimp only
      exact .iteFst (hm (.ite hb.settleCols.putLatch hb.settleCols)) (hp (.ite hb.settleCols.putLatch hb.settleCols))

theorem State.Canonical.mmqPadEff (h : s.Canonical) : (mmqPadEff hd tb s cx).1.Canonical := .iteFst h h.readSpans.mmq

theorem State.Canonical.zeroTile (h : s.Canonical) : (s.zeroTile cx i).Canonical :=
  .modStrand (.fold (fun _ _ hs => .ite hs hs.wrImg) _ h.drainTile) _ _

theorem State.Canonical.maccLdEff (h : s.Canonical) : (maccLdEff hd tb s cx).1.Canonical := by
  unfold Machine.maccLdEff
  extract_lets t q rows u integer mode old
  have hu : u.Canonical := h.drainTile
  clear_value u
  refine .iteFst hu (.iteFst hu.corruptMode (.iteFst ?_ ?_))
  · exact .fold (fun _ _ hs => hs.putAccRow) _ hu.record
  · exact .foldFst (fun _ _ hs => hs.putSteps) _ (p := (_, _)) (.ite (hu.zeroRows.modStrand _ _) hu)

theorem State.Canonical.maccStEff (h : s.Canonical) : (maccStEff hd tb s cx).1.Canonical := by
  unfold Machine.maccStEff
  extract_lets t w q rows u st
  have hu : u.Canonical := h.drainTile.checkRows
  clear_value u
  refine .iteFst hu.corruptMode ?_
  exact .fold (fun _ _ hs => .fold (fun _ _ ht => ht.wrImg) _ hs) _ hu.settleMat

theorem State.Canonical.copyTile (h : s.Canonical) : (s.copyTile i j k).Canonical :=
  .modStrand (.fold (fun _ _ hs => hs.putAccRow) _ h) _ _

theorem State.Canonical.maccCpEff (h : s.Canonical) : (maccCpEff hd tb s cx).1.Canonical := by
  unfold Machine.maccCpEff
  extract_lets t a u
  have hu : u.Canonical := h.drainTile.drainTile.checkRows
  clear_value u
  exact .iteFst hu.corruptMode (.ite hu hu.copyTile)

theorem State.Canonical.maccCpAddEff (h : s.Canonical) : (maccCpAddEff hd tb s cx).1.Canonical := by
  unfold Machine.maccCpAddEff
  extract_lets t a s1 u st mt ma
  have hu : u.Canonical := h.drainTile.drainTile.checkRows.checkRows
  clear_value u
  refine .iteFst hu.corruptMode (.iteFst hu (.iteFst hu.copyTile (.iteFst ?_ ?_)))
  · exact .fold (fun _ _ hs => hs.putAccRow) _ hu.record
  · refine .modStrand ?_ _ _
    exact .foldFst (fun _ _ hs => hs.putSteps) _ (p := (_, _)) hu

theorem State.Canonical.maccSclEff (h : s.Canonical) : (maccSclEff hd tb s cx).1.Canonical := by
  unfold Machine.maccSclEff
  extract_lets t q rows u st mode
  have hu : u.Canonical := h.drainTile.checkRows
  clear_value u
  refine .iteFst hu (.iteFst hu.corruptMode (.iteFst hu (.iteFst ?_ ?_)))
  · exact .fold (fun _ _ hs => hs.putAccRow) _ hu.record
  · exact .foldFst (fun _ _ hs => hs.putSteps) _ (p := (_, _)) hu

/-! ### Every instruction -/

/-- What an instruction means keeps every memory canonical, for each instruction by its shared operation. -/
theorem State.Canonical.exec (h : s.Canonical) : Out.Canonical (exec ins s) := by
  unfold Machine.exec
  cases ins with
  | nop | pad | trap | barWait => exact h.issue fun _ _ ht => ht
  | bra | ret => exact h.issue fun _ _ ht => ht.transfer
  | brc => exact h.issue fun _ _ ht => .iteFst ht ht.transfer
  | brany | brall => exact h.issue fun _ _ ht => ht.uniform
  | loopOp => exact h.issue fun _ _ ht => .iteFst ht ht.putSc.uniform
  | jtab => exact h.issue fun _ _ ht => .iteFst ht ht.tableTargets.transfer.orStall
  | call | callInd => exact h.issue fun _ _ ht => ht.callTo
  | callt => exact h.issue fun _ _ ht => ht.tableTargets.callTo.orStall
  | brx => exact h.execBrx
  | exit => exact h.issue fun _ _ ht => ht.exitWith
  | yield => exact h.execYield
  | prefI => exact h.issue fun _ _ ht => .fold (fun _ _ hs => hs.prefetchLine) _ ht
  | icinv => exact h.execIcinv
  | icinvAll => exact h.issue fun _ _ ht => .iteFst ht ht.icDrop
  | fbar => exact h.issue fun _ _ ht => ht.modStrand _ _
  | bkpt => exact h.execBkpt
  | getpc => exact h.execGetpc
  | iadd | isub | imul | imulh | imad | imin | imax | iabs | idiv | irem | iadd3 | iclamp => exact h.intOp
  | icmp | plogt | solo | s2p | fcmp => exact h.aluPred
  | isel | lea | mov | logt | bysel | shfl | shflq | matchOp | prefixOp | redux | bcast | pcnt | fclass | fscale | idot4 | t5pk
  | t5up | bmax => exact h.alu
  | andOp | orOp | xorOp | andn | notOp | shl | shr | sar | rot | dsh | popc | clz | ctz | brev | bswap | fxt | fins =>
    exact h.bitOp
  | vote => exact .ite h.alu h.aluPred
  | mget => exact h.execMget
  | p2s => exact h.execP2s
  | fadd | fsub | fmul | ffma | fmin | fmax | fabs | fneg | fcpys | frnd | fdiv | fsqrt => exact h.floatAlu
  | hadd2 | hmul2 | hfma2 | hmin2 | hmax2 => exact h.packedAlu
  | frcp | frsq | fexp2 | flog2 | fsin | fcos | ftanh => exact h.approxAlu
  | fdot4 | hdot2 => exact h.dotAlu
  | cvt | cvtp => exact h.partAlu
  | cvts => exact .ite h.alu h.alu
  | qnt => exact h.issue fun _ _ ht => ht.qntEff
  | qnts => exact h.issue fun _ _ ht => ht.qntsEff
  | dqnt => exact h.execDqnt
  | latq => exact h.issue fun _ _ ht => ht.latqEff
  | pack => exact h.issue fun _ _ ht => ht.packEff
  | unpack => exact h.issue fun _ _ ht => ht.unpackEff
  | mlatch | mlatchScratchpad => exact h.issueMat fun _ _ ht => ht.mlatch
  | mmq => exact h.issueMat fun _ _ ht => ht.mmq
  | mmqScratchpad => exact h.issueMat fun _ _ ht => ht.mmqPadEff
  | maccZ => exact h.issueMat fun _ _ ht => ht.zeroTile
  | maccZAll => exact h.issueMat fun _ _ ht => .fold (fun _ _ hs => hs.zeroTile) _ ht
  | maccLd => exact h.issueMat fun _ _ ht => ht.maccLdEff
  | maccSt => exact h.issueMat fun _ _ ht => ht.maccStEff
  | maccCp => exact h.issueMat fun _ _ ht => ht.maccCpEff
  | maccCpAdd => exact h.issueMat fun _ _ ht => ht.maccCpAddEff
  | maccScl => exact h.issueMat fun _ _ ht => ht.maccSclEff
  | mtbl | mscl => exact h.issue fun _ _ ht => ht.stageSource
  | mscla => exact h.issue fun _ _ ht => ht.msclaEff
  | mrel => exact h.issueMat fun _ _ ht => ht.mrelEff
  | mwait => exact h.issueMat fun _ _ ht => ht.drainStrand
  | mstat => exact h.issueMat fun _ _ ht => ht.drainStrand.putScalarDest
  | ld => exact h.issueMem fun _ _ ht => ht.ldEff
  | ldu => exact h.issueMem fun _ _ ht => ht.lduEff
  | lds => exact h.issueMem fun _ _ ht => ht.ldsEff
  | ldv => exact h.issueMem fun _ _ ht => ht.ldvEff
  | prefD => exact h.issue fun _ _ ht => ht.clearEvent
  | probe => exact h.issue fun _ _ ht => ht.probeEff
  | st => exact h.execSt
  | sts => exact h.execSts
  | stv => exact h.execStv
  | stz => exact h.execStz
  | stzLine => exact h.execStzLine
  | tdef => exact h.execTdef
  | tld => exact h.execTld
  | tstr => exact h.execTstr
  | trel => exact h.issue fun _ _ ht => .iteFst ht ht.setTile
  | tqry => exact h.execTqry
  | cwb | cflush | cinv => exact h.cacheForm
  | atom | atoms | red | reds | cas | cass | cas2 | cas4 | enq | chase | cred | opk | opkScalar | opkx | opkxScalar =>
    exact h.atomic
  | barArr | barSync => exact h.issue fun _ _ ht => .iteFst ht ht.arriveAt
  | objArr => exact h.execObjArr
  | objWait | objWaitEv => exact h.objWait
  | waitc => exact h.execWaitc
  | signal => exact h.execSignal
  | fence => exact h.issue fun _ _ ht => .iteFst ht (.iteFst (.ite ht (ht.same rfl)) (.iteFst ht.showLanes ht))
  | rgnOpen => exact h.execRgnOpen
  | commit | commitPark | commitR | commitRPark => exact h.commit
  | rgnDrop => exact h.execRgnDrop
  | acopy | agath | ascat | acoll | afill | acopyt | apref => exact h.command
  | aqry => exact h.execAqry
  | lnch | lnchPod => exact h.launch
  | join => exact h.execJoin
  | cancel | cancelTerm => exact h.cancelOp
  | lrec => exact h.execLrec
  | lstat => exact h.execLstat
  | srd => exact h.execSrd
  | swr => exact h.execSwr
  | tbinv => exact h.execTbinv
  | tbsync => exact h.execTbsync
  | ctxswOut => exact h.execCtxswOut
  | ctxswIn => exact h.priv fun _ _ ht => ht.onCtx fun _ => ht.switchIn.sysNum
  | shalt => exact h.execShalt
  | sresm => exact h.priv fun _ _ ht => ht.onStrand fun _ => ht.unhalt
  | sresmFetch => exact h.priv fun _ _ ht => ht.onStrand fun _ => ht.modStrand _ _
  | sresmKill => exact h.execSresmKill
  | ievict => exact h.priv fun _ _ ht => ht.onStrand fun _ => ht.writeLines
  | pld => exact h.execPld
  | pst => exact h.execPst
  | convhcHc => exact h.priv fun _ _ ht => ht.convert fun _ => ht.toHc
  | convhcSm => exact h.priv fun _ _ ht => ht.convert fun _ => ht.toSm
  | fqpop => exact h.execFqpop
  | ttload => exact h.execTtload
  | cwball | cwballInv => exact h.priv fun _ _ ht => ht.cacheClean
  | hint => exact h.execHint
  | illegalInstruction => exact h.execIllegalInstruction
  | addRoutine | signedMinRoutine | signedMaxRoutine | unsignedMinRoutine | unsignedMaxRoutine | andRoutine | orRoutine
  | xorRoutine | swapRoutine | casRoutine => exact h.rmwInt
  | f32AddRoutine | f16PairAddRoutine | b16PairAddRoutine => exact h.rmwFloat
  | twoWordCasRoutine | fourWordCasRoutine => exact h.rmw
  | listEnqueueRoutine => exact h.execListEnqueueRoutine
  | pointerChaseRoutine => exact h.execPointerChaseRoutine
  | contributorReductionRoutine => exact h.execContributorReductionRoutine
  | installedRoutine => exact h.execInstalledRoutine
  | fabricStoreRequest | tileTransaction => exact .next h.fabRequest
  | ualinkStandardRequest => exact h.execUalinkStandardRequest
  | fabricAcknowledge => exact h.execFabricAcknowledge
  | fabricRetransmit => exact h.execFabricRetransmit
  | fabricRequestTimeout => exact h.execFabricRequestTimeout
  | tileLockTimeout => exact .next h.tileFail
  | replyLand => exact h.execReplyLand
  | barrierObjectArrive => exact h.execBarrierObjectArrive
  | engineComplete => exact .next (.ite h.dropCmd h.runCmd)
  | collectiveCombine => exact h.execCollectiveCombine
  | matrixPassComplete => exact h.execMatrixPassComplete
  | tileFillComplete => exact .next h.fillDone
  | tileDrainComplete => exact .next h.drainDone
  | monitorMatch => exact h.execMonitorMatch
  | deadlineFire => exact h.execDeadlineFire
  | commitParkEnd => exact h.execCommitParkEnd
  | heldTrapTaken => exact h.execHeldTrapTaken
  | fetchTrap => exact h.execFetchTrap
  | instructionCacheFill => exact h.execInstructionCacheFill
  | starvationPromote => exact h.execStarvationPromote
  | strandRetire => exact h.execStrandRetire
  | gridComplete => exact h.execGridComplete
  | slotTakeback => exact h.execSlotTakeback
  | strandReadmit => exact h.execStrandReadmit
  | launchQueueHandoff => exact h.execLaunchQueueHandoff
  | overflowMove => exact h.execOverflowMove
  | postWindowWrite => exact h.execPostWindowWrite
  | launchPacketAccept => exact h.execLaunchPacketAccept
  | cancelPacket => exact h.execCancelPacket
  | cancelTermPacket => exact h.execCancelTermPacket
  | nbhdOffer => exact h.execNbhdOffer
  | nbhdPlace => exact h.execNbhdPlace
  | offerTimeout => exact h.execOfferTimeout
  | cstoreApply => exact h.execCstoreApply
  | ttLaunch | ttPreempt | ttResume => exact h.ttEvent
  | ttDelayExpiry => exact h.execTtDelayExpiry
  | gangBoundaryMarker => exact .next (.ite h (.ite h.refuseFrom (.ite h (h.same rfl))))
  | markerTimeout => exact h.execMarkerTimeout
  | agreementCheck => exact .next (.ite (.fold (fun _ _ hs => hs.askFor) _ h) h)
  | agreementRequest => exact .next (.ite (h.same rfl) (h.same rfl))
  | switchPacket => exact .ite (.next h) (.next (.fold (fun _ _ hs => .ite hs.ttRelease hs) _ h.heard))
  | agreementTimeout => exact .next (.ite (.fold (fun _ _ hs => .ite hs.ttRelease hs) _ h) h)
  | stragglerReport => exact .next (.logStraggler (.same h rfl))
  | podLaunchRecord => exact h.execPodLaunchRecord
  | accept => exact h.execAccept
  | reject => exact h.execReject
  | go => exact h.execGo
  | drop | directoryRecall => exact .next (h.same rfl)
  | zenithReplyTimeout => exact h.execZenithReplyTimeout
  | completionReport => exact h.execCompletionReport
  | haloCancel => exact .next (.ite h.heardFrom.cancelZenith h.heardFrom.cancelPart)
  | cancelMemberTimeout => exact h.execCancelMemberTimeout
  | haloMessageReceive => exact h.execHaloMessageReceive
  | haloRetransmit => exact h.execHaloRetransmit
  | stationDown => exact .ite .fault (.next (.moveTraffic (.same h rfl)))
  | ptpEventMessage => exact .next (.ite h.correct.setClock h.refuseFrom)
  | timeInputLoss => exact .next (.ite h.setClock h)
  | hostSnoop => exact h.execHostSnoop
  | hostMemoryAccess => exact h.execHostMemoryAccess
  | hostBarAccess => exact h.execHostBarAccess
  | firmwareReload | governorAdjust => exact .next (.ite (h.same rfl) h)
  | firmwareFault => exact h.execFirmwareFault
  | evictionNotice => exact .next (.ite h (.ite h.dirDrop.lineClean h.dirDrop))
  | coherenceRequest => exact .next h.cohRequest
  | homeProbe => exact .next (.ite (.ite h.dirDrop.lineClean h.dirDrop) (h.same rfl))
  | regionMerge => exact .ite (.next (h.same rfl)) (.next h)
  | dieReset => exact h.execDieReset
  | debugRightRevocation => exact .ite .fault (.next (.report (.note (.fold (fun _ _ hs => hs.letGo.dbgPost) _ (h.same rfl)))))
  | shadowSample => exact .next h.writeShaddr
  | shadowSampleDone => exact h.execShadowSampleDone
  | fqBufferPost => exact h.execFqBufferPost
  | fqheadWrite => exact .next h.regWrite
  | crtabWrite => exact .next h.writeCrtab
  | factbWrite => exact .next h.writeFactb
  | cstoreWrite => exact .ite .fault (.next h.writeCStore)
  | cresvWrite => exact .ite .fault (.next h.writeCResv)
  | devicePartitionWrite => exact h.execDevicePartitionWrite
  | lqcfgWrite => exact .ite .fault (.next h.writeLqcfg)
  | journalControlWrite => exact h.execJournalControlWrite
  | errorLogControlWrite => exact h.execErrorLogControlWrite
  | overflowConfigWrite => exact h.execOverflowConfigWrite
  | tsrcWrite => exact .next h.writeTsrc
  | profileConfigWrite => exact h.execProfileConfigWrite
  | registerWrite => exact .next (.ite h.regWrite h)
  | rcRegisterRead => exact h.execRcRegisterRead
  | powerOnReset => exact h.execPowerOnReset
  | firmwareStageDone => exact h.execFirmwareStageDone
  | warmingDone => exact .next (.ite h.setRegF.leaveStage h)
  | memoryTrainingDone => exact h.execMemoryTrainingDone
  | linksDone => exact .next (.ite h.leaveStage h)
  | channelRetrain => exact .ite .fault (.next (.ite h.setRegF h))
  | channelRetire => exact .ite .fault (.ite (.next h) (.next (.logErr (.setRegF (.setRegF (.same h rfl))))))
  | marginStretch | stationRestored => exact .ite .fault (.next (h.same rfl))
  | emergencyStop => exact .next h.containAll.endBodies.setRegF
  | errorDomainClose => exact h.execErrorDomainClose
  | haloAcknowledgement => exact h.execHaloAcknowledgement
  | channelRetrainingDone => exact .ite .fault (.ite (.next h) (.next (.ite h.setRegF.bump h.setRegF.bindSpare)))
  | ppsInputPulse => exact .next (.ite h.correct.setClock h)

/-! ### Every event -/

theorem State.Canonical.perform {ev : DevEvent} (h : s.Canonical) : Out.Canonical (ev.perform s) := by
  unfold DevEvent.perform
  cases ev with
  | packet p => exact h.performPacket
  | barrierObjectArrive a => exact h.exec (ins := .barrierObjectArrive a)
  | replyLand r => exact h.exec (ins := .replyLand r)
  | tileFillComplete t => exact h.exec (ins := .tileFillComplete t)
  | tileDrainComplete t => exact h.exec (ins := .tileDrainComplete t)
  | engineComplete c => exact h.exec (ins := .engineComplete c)
  | matrixPassComplete m => exact h.exec (ins := .matrixPassComplete m)
  | monitorMatch m => exact h.exec (ins := .monitorMatch m)
  | deadlineFire sid => exact h.exec (ins := .deadlineFire sid)
  | heldTrapTaken sid => exact h.exec (ins := .heldTrapTaken sid)
  | commitParkEnd sid => exact h.exec (ins := .commitParkEnd sid)
  | strandRetire sid => exact h.exec (ins := .strandRetire sid)
  | slotTakeback sid => exact h.exec (ins := .slotTakeback sid)
  | strandReadmit sid => exact h.exec (ins := .strandReadmit sid)
  | starvationPromote sid frag => exact h.exec (ins := .starvationPromote sid frag)
  | gridComplete gid => exact h.exec (ins := .gridComplete gid)
  | launchQueueHandoff core => exact h.exec (ins := .launchQueueHandoff core)
  | overflowMove => exact h.exec (ins := .overflowMove)
  | postWindowWrite q host dev data => exact h.exec (ins := .postWindowWrite q host dev data)
  | cancelPacket q => exact h.exec (ins := .cancelPacket q)
  | cancelTermPacket q => exact h.exec (ins := .cancelTermPacket q)
  | launchPacketAccept q => exact h.exec (ins := .launchPacketAccept q)
  | nbhdOffer clu gid => exact h.exec (ins := .nbhdOffer clu gid)
  | nbhdPlace clu => exact h.exec (ins := .nbhdPlace clu)
  | offerTimeout clu => exact h.exec (ins := .offerTimeout clu)
  | cstoreApply core => exact h.exec (ins := .cstoreApply core)
  | ttLaunch n => exact h.exec (ins := .ttLaunch n)
  | ttPreempt n => exact h.exec (ins := .ttPreempt n)
  | ttResume n => exact h.exec (ins := .ttResume n)
  | ttDelayExpiry n => exact h.exec (ins := .ttDelayExpiry n)
  | agreementCheck gid ttime => exact h.exec (ins := .agreementCheck gid ttime)
  | agreementTimeout gid ttime => exact h.exec (ins := .agreementTimeout gid ttime)
  | markerTimeout gid ttime dev => exact h.exec (ins := .markerTimeout gid ttime dev)
  | podLaunchRecord src ctx r => exact h.exec (ins := .podLaunchRecord src ctx r)
  | accept src ctx grid => exact h.exec (ins := .accept src ctx grid)
  | reject src ctx grid => exact h.exec (ins := .reject src ctx grid)
  | go src ctx grid => exact h.exec (ins := .go src ctx grid)
  | drop src ctx grid => exact h.exec (ins := .drop src ctx grid)
  | completionReport src ctx grid r => exact h.exec (ins := .completionReport src ctx grid r)
  | haloCancel src ctx grid term => exact h.exec (ins := .haloCancel src ctx grid term)
  | stragglerReport gid ttime dev lateness => exact h.exec (ins := .stragglerReport gid ttime dev lateness)
  | agreementRequest gid ttime dev => exact h.exec (ins := .agreementRequest gid ttime dev)
  | switchPacket gid ttime => exact h.exec (ins := .switchPacket gid ttime)
  | zenithReplyTimeout ctx grid => exact h.exec (ins := .zenithReplyTimeout ctx grid)
  | cancelMemberTimeout ctx grid dev => exact h.exec (ins := .cancelMemberTimeout ctx grid dev)
  | haloRetransmit dst v => exact h.exec (ins := .haloRetransmit dst v)
  | fabricRetransmit id => exact h.exec (ins := .fabricRetransmit id)
  | fabricRequestTimeout id => exact h.exec (ins := .fabricRequestTimeout id)
  | powerOnReset => exact h.exec (ins := .powerOnReset)
  | fqBufferPost => exact h.exec (ins := .fqBufferPost)
  | shadowSampleDone => exact h.exec (ins := .shadowSampleDone)
  | debugRightRevocation ctx => exact h.exec (ins := .debugRightRevocation ctx)
  | dieReset die => exact h.exec (ins := .dieReset die)
  | fetchTrap sid frag cause => exact h.exec (ins := .fetchTrap sid frag cause)

theorem State.Canonical.advance (h : s.Canonical) : s.advance.Canonical := h.same rfl

theorem State.Canonical.arrive (h : s.Canonical) : (s.arrive pk).Canonical := by
  unfold State.arrive
  split
  · refine .ite h ?_
    split
    · exact h.same rfl
    · exact .ite h (.ite h.replyTo (.ite h.replyTo (.ite h (h.same rfl))))
  · exact h.same rfl

/-- The state of a fetch that ends without an instruction, and that in which the fetched instruction runs. -/
def Fetch.Canonical : Fetch → Prop
  | .trap _ => True
  | .done t => t.Canonical
  | .run _ t => t.Canonical

theorem State.Canonical.fetchInsn (h : s.Canonical) : (s.fetchInsn i j f).Canonical := by
  unfold State.fetchInsn
  split
  · exact h.hold
  · split
    · trivial
    · have hl := h.fetchLine.of_eq ‹_›
      split
      · exact hl.failDue
      · dsimp only
        split
        · exact hl.passDue
        · exact hl

/-! ### Issue and actions -/

theorem State.Canonical.issuing (h : s.Canonical) : (s.issuing i j).Canonical := h.same rfl

theorem State.Canonical.modFrag {g : Frag → Frag} (h : s.Canonical) : (s.modFrag i j g).Canonical := h.modStrand _ _

theorem State.Canonical.countWaits (h : s.Canonical) : (s.countWaits i j).Canonical := by
  unfold State.countWaits
  split
  · exact h
  · exact .fold (fun _ _ hs => hs.modFrag) _ h

theorem State.Canonical.look (h : s.Canonical) : (s.look i).Canonical := by
  unfold State.look
  with_reducible refine .ite h (.same ?_ rfl)
  exact h.noteLatches

theorem State.Canonical.countBody (h : s.Canonical) : (s.countBody i).Canonical := by
  unfold State.countBody
  split
  · exact h.modStrand _ _
  · exact h

theorem State.Canonical.endIssue {r : Out} (h : s.Canonical) (hr : r.Canonical) : Out.Canonical (s.endIssue i j r) := by
  unfold State.endIssue
  split
  · have ht := hr _ rfl
    exact .next (.ite h.modFrag (.countBody (ht.same rfl)))
  · exact hr

theorem State.Canonical.issueFrag (h : s.Canonical) : Out.Canonical (s.issueFrag i j) := by
  unfold State.issueFrag
  split
  · exact .next h
  · next f _ =>
    have hf : ((((s.countWaits i j).modFrag i j Frag.chosen).issuing i j).fetchInsn i j f).Canonical :=
      h.countWaits.modFrag.issuing.fetchInsn
    split
    · exact h.perform
    · next e =>
      rw [e] at hf
      exact .next (State.Canonical.same hf rfl)
    · next e =>
      rw [e] at hf
      exact h.endIssue (State.Canonical.exec hf)

theorem State.Canonical.keepLines {r : Out} (h : s.Canonical) (hr : r.Canonical) : Out.Canonical (s.keepLines r) := by
  unfold State.keepLines
  split
  · exact .ite (.next h) hr
  · exact hr

theorem State.Canonical.discard {hdr : BitVec 128} (h : s.Canonical) : (s.discard hdr).Canonical := h.logErr

theorem State.Canonical.takeMsg (h : s.Canonical) : Out.Canonical (s.takeMsg ns ins) := by
  unfold State.takeMsg
  refine .ite h.exec ?_
  split
  · exact h.exec (ins := .fabricStoreRequest _)
  · exact h.exec (ins := .tileTransaction _)
  · exact h.exec (ins := .ualinkStandardRequest _)
  · exact h.exec (ins := .tileFillComplete _)
  · exact h.exec (ins := .replyLand _)
  · exact h.exec

theorem State.Canonical.takeInput {inp : Input} (h : s.Canonical) : Out.Canonical (s.takeInput inp) := by
  unfold State.takeInput
  extract_lets u
  have hu : u.Canonical := h.same rfl
  clear_value u
  split
  · exact .next hu.discard
  · split
    · exact .next hu.arrive
    · exact .next hu.post
    · exact hu.takeMsg

theorem State.Canonical.abroadWrite {away : ℕ × ℕ × MWord} (h : s.Canonical) : (s.abroadWrite away).Canonical :=
  h.staleReqs.putW _ _ _

theorem State.Canonical.switchOn (h : s.Canonical) : (s.switchOn sw).Canonical := .ite h.switchOver h.switchBlock

theorem State.Canonical.act {act : Action} (h : s.Canonical) : Out.Canonical (s.act act) := by
  refine h.keepLines ?_
  cases act with
  | event e => exact h.perform
  | input x => exact h.takeInput
  | error e => exact .next (.strike (h.same rfl))
  | serve q => exact h.serveRemote
  | abroad w => exact .next (.abroadWrite (h.same rfl))
  | switch w => exact .next h.switchOn
  | launch t => exact .next h.ttGo
  | issue sid idx => exact h.issueFrag
  | bodyOver sid => exact .next h.claspEnd
  | idle => exact .next h

/-! ### The step -/

theorem State.Canonical.begun (h : s.Canonical) : s.begun.Canonical := h.advance.look

end

/-- Settles O52: time passes in a canonical state, and then one action takes place, whichever it is. -/
theorem stepKeepsCanonical : Obligations.StepKeepsCanonical := by
  unfold Obligations.StepKeepsCanonical
  exact fun s t h => h.begun.act (act := s.begun.nextAction) t

end Sys2Proof.Machine
end

section
/-! PROOF. One load of a fragment (O30). What the steps around an access leave as it was comes first: the translation, the caches,
the uses of sources, the fragment's going on, and the samples. -/
namespace Sys2Proof.Machine
open Sys2Proof.Claims

/-! ### What an access leaves as it was -/

/-- What the later steps of an access go by is as it was: strands, blocks, stacks, and the registers of the cores. -/
structure State.Kept (s t : State) : Prop where
  strands : t.strands = s.strands
  blocks : t.blocks = s.blocks
  chans : t.chans = s.chans
  cores : ∀ k, k < 0x1000000 → aget t.regs k = aget s.regs k

/-- And memory is as it was, with what its lanes have not seen of it and the clusters' copies. -/
structure State.Aside (s t : State) : Prop extends State.Kept s t where
  mem : t.mem = s.mem
  lags : t.lags = s.lags
  copies : t.smCopies = s.smCopies

section
variable {s t u : State}

theorem State.Kept.refl : s.Kept s := ⟨rfl, rfl, rfl, fun _ _ => rfl⟩

theorem State.Kept.trans (h : s.Kept t) (h' : t.Kept u) : s.Kept u :=
  ⟨h'.strands.trans h.strands, h'.blocks.trans h.blocks, h'.chans.trans h.chans, fun k hk => (h'.cores k hk).trans (h.cores k hk)⟩

theorem State.Aside.refl : s.Aside s := ⟨.refl, rfl, rfl, rfl⟩

theorem State.Aside.trans (h : s.Aside t) (h' : t.Aside u) : s.Aside u :=
  ⟨h.toKept.trans h'.toKept, h'.mem.trans h.mem, h'.lags.trans h.lags, h'.copies.trans h.copies⟩

/-- A step that writes none of these. -/
theorem State.Aside.same (h : (t.strands, t.blocks, t.chans, t.regs, t.mem, t.lags, t.smCopies)
    = (s.strands, s.blocks, s.chans, s.regs, s.mem, s.lags, s.smCopies)) : s.Aside t := by
  simp only [Prod.mk.injEq] at h
  obtain ⟨h1, h2, h3, h4, h5, h6, h7⟩ := h
  exact ⟨⟨h1, h2, h3, fun _ _ => by rw [h4]⟩, h5, h6, h7⟩

theorem State.Aside.ite {p : Prop} [Decidable p] (h : s.Aside t) (h' : s.Aside u) : s.Aside (if p then t else u) := by
  split
  · exact h
  · exact h'

theorem State.Kept.strand (h : s.Kept t) (o : ℕ) : t.strand o = s.strand o := by
  unfold State.strand
  rw [h.strands]

theorem State.Kept.imageAt (h : s.Kept t) (a : ℕ) : t.imageAt a = s.imageAt a := by
  unfold State.imageAt
  rw [h.strands]

theorem State.Kept.retiredLine (h : s.Kept t) (a : ℕ) : t.retiredLine a = s.retiredLine a := by
  unfold State.retiredLine
  rw [h.chans]

theorem State.Kept.coreOf (h : s.Kept t) (o : ℕ) : t.coreOf o = s.coreOf o := by
  unfold State.coreOf State.block
  rw [h.strand, h.blocks]

/-- Each step of a list of steps beside the access. -/
theorem State.Aside.fold {α : Type} {f : State → α → State} (hf : ∀ (s : State) x, s.Aside (f s x)) (xs : List α) (s : State) :
    s.Aside (xs.foldl f s) := by
  induction xs generalizing s with
  | nil => exact .refl
  | cons x xs ih => exact (hf s x).trans (ih _)

end

section
variable (s : State)

/-- A cluster's register is none of a core's. -/
theorem State.Aside.setCluster (c i : ℕ) (v : Dword) : s.Aside (s.setReg (.cluster c i) v) := by
  refine ⟨⟨rfl, rfl, rfl, fun k hk => aget_aputD_other _ _ _ _ _ ?_⟩, rfl, rfl, rfl⟩
  simp only [regKey]
  omega

/-! ### Translation -/

theorem State.Aside.touchRetired (l : Loc) : s.Aside (s.touchRetired l) := by
  unfold State.touchRetired
  split
  next pa =>
    split
    · exact State.Aside.trans (t := { s with retLines := aput s.retLines (pa / 128) retiredWords })
        (.same rfl) (State.Aside.setCluster _ _ _ _)
    · exact .refl
  next => exact .refl

/-- A walk is noted. -/
theorem State.Aside.noteWalk (w : List (ℕ × ℕ × ℕ)) : s.Aside { s with walked := w } := .same rfl

theorem State.Aside.countWalk (clu ctx va : ℕ) (w : Walk) : s.Aside (s.countWalk clu ctx va w) := by
  unfold State.countWalk
  dsimp only
  refine .ite .refl (State.Aside.trans ?_ (State.Aside.noteWalk _ _))
  exact (State.Aside.fold (fun t a => State.Aside.touchRetired t (.mem a)) _ s).trans (State.Aside.setCluster _ _ _ _)

theorem State.Aside.leafFor (who : Who) (kind : AccessKind) (va : ℕ) : s.Aside (s.leafFor who kind va).1 := by
  unfold State.leafFor
  dsimp only
  split
  · exact State.Aside.countWalk _ _ _ _ _
  · split
    · exact .refl
    · have hw := fun k w => State.Aside.countWalk s k who.ctx va w
      split
      · split
        · exact hw _ _
        · exact (hw _ _).trans (.same rfl)
      · exact hw _ _

theorem State.Aside.translate (who : Who) (kind : AccessKind) (a : Dword) : s.Aside (s.translate who kind a).1 := by
  have hv : s.Aside (s.transVa who kind (fld a 0 56)).1 := by
    have hl := State.Aside.leafFor s who kind (fld a 0 56)
    unfold State.transVa
    split
    · next h => rw [h] at hl; exact hl
    · next h => rw [h] at hl; exact hl
  unfold State.translate
  dsimp only
  split
  · exact hv
  · split
    · split <;> exact .refl
    · split
      · split <;> exact .refl
      · split
        · split
          · exact .refl
          · split <;> exact .refl
        · exact .refl

/-! ### Caches -/

theorem State.Aside.splitFor (a n : ℕ) : s.Aside (s.splitFor a n) := by
  induction n generalizing s with
  | zero => exact .refl
  | succ n ih =>
    unfold State.splitFor
    dsimp only
    split
    · exact .refl
    · refine State.Aside.trans ?_ (ih _)
      exact (State.Aside.setCluster _ _ _ _).trans (.same rfl)

theorem State.Aside.touchUnit (a : ℕ) : s.Aside (s.touchUnit a) := .same rfl

theorem State.Aside.cohRequest (cache line : ℕ) (req : CohReq) : s.Aside (s.cohRequest cache line req) := by
  have hg : s.Aside (match req with | .shared => s.grantShared cache line | .modified => s.grantModified cache line) := by
    cases req
    · dsimp only
      unfold State.grantShared
      dsimp only
      split
      · exact .refl
      · exact .same rfl
    · exact .same rfl
  unfold State.cohRequest
  dsimp only
  split
  · exact .refl
  · split
    · exact (hg.trans (State.Aside.touchUnit _ _)).trans (State.Aside.splitFor _ _ _)
    · exact hg

theorem State.Aside.cacheAccess (core : Option ℕ) (l : Loc) (req : CohReq) : s.Aside (s.cacheAccess core l req) := by
  unfold State.cacheAccess
  split
  · exact .refl
  · split
    · exact State.Aside.cohRequest _ _ _ _
    · unfold State.homeAccess
      split
      · exact .refl
      · split <;> exact .same rfl

theorem State.Aside.staleReqs (l : Loc) : s.Aside (s.staleReqs l) := by
  unfold State.staleReqs
  split
  · exact .refl
  · exact .same rfl

/-- What an access finds at a word of memory that no image covers. -/
theorem State.Aside.touch (who : Who) (a : ℕ) (req : CohReq) (hi : s.imageAt a = none) : s.Aside (s.touch who (.mem a) req) := by
  have hr := State.Aside.touchRetired s (.mem a)
  have hs : (s.touchRetired (.mem a)).checkSpad (.mem a) = s.touchRetired (.mem a) := by
    unfold State.checkSpad State.spadByte
    simp
  have hc : (s.touchRetired (.mem a)).checkImage (.mem a) = s.touchRetired (.mem a) := by
    unfold State.checkImage
    simp only [hr.imageAt, hi]
  unfold State.touch
  rw [hs, hc]
  exact hr.trans ((State.Aside.cacheAccess _ _ _ _).trans (State.Aside.staleReqs _ _))

end

/-! ### The uses of sources -/

/-- A change of a strand adds none. -/
theorem State.isSome_modStrand (s : State) (sid o : ℕ) (f : Strand → Strand) :
    (aget (s.modStrand sid f).strands o).isSome = (aget s.strands o).isSome := by
  unfold State.modStrand
  by_cases ho : o = sid
  · subst ho
    rw [aget_amod_same, Option.isSome_map]
  · rw [aget_amod_other _ _ _ _ ho]

/-- Nothing differs but what is noted of register words: which are dead, and which poison has been consumed. -/
structure State.Noted (s t : State) : Prop where
  rest : t = { s with strands := t.strands }
  strand : ∀ o, t.strand o = { s.strand o with img := (t.strand o).img, deadBits := (t.strand o).deadBits }
  listed : ∀ o, (aget t.strands o).isSome = (aget s.strands o).isSome

section
variable {s t u : State}

theorem State.Noted.refl : s.Noted s := ⟨rfl, fun _ => rfl, fun _ => rfl⟩

theorem State.Noted.trans (h : s.Noted t) (h' : t.Noted u) : s.Noted u :=
  ⟨h'.rest.trans (congrArg (fun x : State => { x with strands := u.strands }) h.rest), fun o =>
    (h'.strand o).trans
      (congrArg (fun x : Strand => { x with img := (u.strand o).img, deadBits := (u.strand o).deadBits }) (h.strand o)),
    fun o => (h'.listed o).trans (h.listed o)⟩

theorem State.Noted.coreOf (h : s.Noted t) (o : ℕ) : t.coreOf o = s.coreOf o := by
  have hc : (t.strand o).clasp = (s.strand o).clasp := by rw [h.strand]
  have hb : (t.strand o).blk = (s.strand o).blk := by rw [h.strand]
  have hk : t.blocks = s.blocks := by rw [h.rest]
  unfold State.coreOf State.block
  rw [hc, hb, hk]

theorem State.Noted.fold {α : Type} {f : State → α → State} (hf : ∀ (s : State) x, s.Noted (f s x)) (xs : List α) (s : State) :
    s.Noted (xs.foldl f s) := by
  induction xs generalizing s with
  | nil => exact .refl
  | cons x xs ih => exact (hf s x).trans (ih _)

end

section
variable (s : State) (sid : ℕ)

/-- A strand of which only that differs. -/
theorem State.Noted.modStrand (f : Strand → Strand)
    (hf : ∀ st, f st = { st with img := (f st).img, deadBits := (f st).deadBits }) : s.Noted (s.modStrand sid f) := by
  refine ⟨rfl, fun o => ?_, fun o => s.isSome_modStrand _ _ _⟩
  by_cases ho : o = sid
  · subst ho
    cases hs : aget s.strands o with
    | none =>
      have h : (s.modStrand o f).strand o = s.strand o := by
        simp only [State.strand, State.modStrand, aget_amod_same, hs, Option.map_none]
      rw [h]
    | some x =>
      rw [State.strand_modStrand _ _ _ (by rw [hs]; rfl)]
      exact hf _
  · rw [State.strand_modStrand_other _ _ _ _ ho]

theorem State.Noted.eatWord (i : ℕ) : s.Noted (s.eatWord sid i) := by
  unfold State.eatWord
  dsimp only
  split
  · exact State.Noted.modStrand _ _ _ fun _ => rfl
  · exact .refl

theorem State.Noted.killWord (i : ℕ) : s.Noted (s.killWord sid i) := State.Noted.modStrand _ _ _ fun _ => rfl

theorem State.Noted.killBits (i : ℕ) (b l : Word) : s.Noted (s.killBits sid i b l) := by
  have h : s.Noted (s.modStrand sid fun st =>
      { st with deadBits := aputD 0 st.deadBits i (((aget (s.strand sid).deadBits i).getD 0) ||| b) }) :=
    State.Noted.modStrand _ _ _ fun _ => rfl
  unfold State.killBits
  dsimp only
  split
  · exact h.trans (State.Noted.killWord _ _ _)
  · exact h

theorem State.Noted.killUse (m : Lanes) (x : Use) : s.Noted (s.killUse sid m x) := by
  unfold State.killUse
  dsimp only
  split
  · split
    · exact .refl
    · refine State.Noted.fold (fun t q => ?_) _ s
      split
      · exact .refl
      · exact State.Noted.killBits _ _ _ _ _
  · exact State.Noted.fold (fun t i => State.Noted.killWord t sid i) _ s

theorem State.Noted.eatUses (m : Lanes) (us : List Use) : s.Noted (s.eatUses sid m us) :=
  State.Noted.fold (fun t i => State.Noted.eatWord t sid i) _ s

/-- The sources of an instruction leave nothing else. -/
theorem State.Noted.used (cx : Cx) (h : Hdr) (us : List Use) : s.Noted (s.used cx h us) :=
  (((State.Noted.eatUses _ _ _ _).trans (State.Noted.eatUses _ _ _ _)).trans (State.Noted.eatUses _ _ _ _)).trans
    (State.Noted.fold (fun t x => State.Noted.killUse t cx.sid cx.act x) _ _)

end

/-! ### Going on -/

/-- Two strands differ in the split table alone. -/
def Strand.Moved (st x : Strand) : Prop := x = { st with splits := x.splits }

section
variable {st x y : Strand} {now i : ℕ}

theorem Strand.Moved.refl : st.Moved st := rfl

theorem Strand.Moved.trans (h : st.Moved x) (h' : x.Moved y) : st.Moved y :=
  Eq.trans h' (congrArg (fun z : Strand => { z with splits := y.splits }) h)

theorem Strand.Moved.setFrag (h : st.Moved x) (i : ℕ) (f : Frag) : st.Moved (x.setFrag i f) := h.trans rfl

theorem Strand.Moved.setGroup (h : st.Moved x) (i : ℕ) (g : Group) : st.Moved (x.setGroup i g) := h.trans rfl

theorem Strand.Moved.delEntry (h : st.Moved x) (i : ℕ) : st.Moved (x.delEntry i) := h.trans rfl

theorem Strand.Moved.addArrived (h : st.Moved x) (g : ℕ) (m : Lanes) : st.Moved (x.addArrived g m) := by
  unfold Strand.addArrived
  split
  · exact h.setGroup _ _
  · exact h

theorem Strand.Moved.fall (n g : ℕ) (h : st.Moved x) : st.Moved (Strand.fall now n x g) := by
  induction n generalizing x g with
  | zero => exact h
  | succ n ih =>
    have hd : st.Moved (x.dropGroup g) := h.trans rfl
    unfold Strand.fall
    split
    · exact h
    · split
      · exact h.setGroup _ _
      · dsimp only
        split
        · split
          · exact ih _ hd
          · exact hd
        · split
          · exact ih _ ((hd.setFrag _ _).addArrived _ _)
          · exact hd.setFrag _ _

theorem Strand.Moved.fallOpt (h : st.Moved x) (g : Option ℕ) : st.Moved (x.fallOpt now g) := by
  unfold Strand.fallOpt
  split
  · exact h.fall _ _
  · exact h

theorem Strand.Moved.place (h : st.Moved x) (f : Frag) : st.Moved (x.place now i f) := by
  unfold Strand.place
  split
  · exact h.setFrag _ _
  · split
    · exact ((h.setFrag _ _).addArrived _ _).fallOpt _
    · exact h.setFrag _ _

theorem Strand.Moved.leave (h : st.Moved x) : st.Moved (x.leave now i) := by
  unfold Strand.leave
  split
  · exact (h.delEntry _).fallOpt _
  · exact h

/-- A fragment that goes to the next unit, whole: no split is made. -/
theorem Strand.moved_goto (st : Strand) (now i : ℕ) (m : Lanes) (pc : Dword) : st.Moved (st.goto now i [⟨m, pc, none⟩] none) := by
  have hm : mergeTargets [⟨m, pc, none⟩] = [⟨m, pc, none⟩] := rfl
  unfold Strand.goto
  rw [hm, List.filter_cons, List.filter_nil]
  by_cases h : (m != 0) = true
  · rw [if_pos h]
    cases st.frag? i with
    | none => exact .refl
    | some f => exact Strand.Moved.place .refl _
  · rw [if_neg h]
    cases st.frag? i with
    | none => exact .refl
    | some f => exact Strand.Moved.leave .refl

end

/-- Nothing differs but the split tables of strands. -/
structure State.GoneOn (s t : State) : Prop where
  rest : t = { s with strands := t.strands }
  strand : ∀ o, (s.strand o).Moved (t.strand o)

section
variable {s t u : State} {sid idx : ℕ} {pc : Dword} {cx : Cx} {us : List Use} {old : Strand} {act : Lanes}

theorem State.GoneOn.refl : s.GoneOn s := ⟨rfl, fun _ => .refl⟩

theorem State.GoneOn.modStrand (f : Strand → Strand) (hf : ∀ st : Strand, st.Moved (f st)) : s.GoneOn (s.modStrand sid f) := by
  refine ⟨rfl, fun o => ?_⟩
  by_cases ho : o = sid
  · subst ho
    cases hs : aget s.strands o with
    | none =>
      have h : (s.modStrand o f).strand o = s.strand o := by
        simp only [State.strand, State.modStrand, aget_amod_same, hs, Option.map_none]
      rw [h]
      exact .refl
    | some x =>
      rw [State.strand_modStrand _ _ _ (by rw [hs]; rfl)]
      exact hf _
  · rw [State.strand_modStrand_other _ _ _ _ ho]
    exact .refl

theorem State.GoneOn.word (h : s.GoneOn t) (o i : ℕ) : (t.strand o).word i = (s.strand o).word i := by
  rw [h.strand o]
  rfl

theorem State.GoneOn.clasp (h : s.GoneOn t) (o : ℕ) : (t.strand o).clasp = (s.strand o).clasp := by
  rw [h.strand o]

/-- A fragment that can go on, and of which no lane is held, goes on. -/
theorem State.GoneOn.finish (h : pcInvalid (pcPlus pc 1) = false) : s.GoneOn (s.finish sid idx pc [] .next) := by
  have hp : ∀ m, pastEnd pc m = [] := fun m => by
    unfold pastEnd
    rw [h]
    rfl
  unfold State.finish
  simp only [hp, List.append_nil, State.hold_nil]
  split
  · exact .refl
  · exact .modStrand _ fun st => Strand.moved_goto _ _ _ _ _

/-- After an effect that holds no lane, the poison that died is counted and the fragment goes on. -/
theorem State.GoneOn.after (hc : ((u.buried cx.sid (s.strand cx.sid) us cx.act []).strand cx.sid).clasp = none) (hg : goesOn cx) :
    (u.buried cx.sid (s.strand cx.sid) us cx.act []).GoneOn (s.after cx us (u, [], .next)) := by
  have hf : (u.buried cx.sid (s.strand cx.sid) us cx.act []).GoneOn
      ((u.buried cx.sid (s.strand cx.sid) us cx.act []).finish cx.sid cx.idx cx.frag.pc [] .next) := .finish hg
  unfold State.after State.claspCheck
  dsimp only
  rw [hf.clasp, hc]
  exact hf

/-- Poison that dies is counted in registers alone. -/
theorem State.countDying_rest (s : State) (k : ℕ) (ws : List ImgWord) :
    s.countDying k ws = { s with regs := (s.countDying k ws).regs } := by
  unfold State.countDying
  induction dying ws generalizing s with
  | nil => rfl
  | cons c cs ih =>
    have hc : s.countUp k c = { s with regs := (s.countUp k c).regs } := by
      unfold State.countUp
      split <;> rfl
    rw [List.foldl_cons]
    refine (ih _).trans ?_
    exact congrArg (fun x : State => { x with regs := (cs.foldl (fun (s : State) c => s.countUp k c) (s.countUp k c)).regs }) hc

theorem State.buried_rest (u : State) (sid : ℕ) (old : Strand) (us : List Use) (act : Lanes) :
    u.buried sid old us act [] = { u with regs := (u.buried sid old us act []).regs } := by
  unfold State.buried
  split
  · rfl
  · exact State.countDying_rest _ _ _

theorem State.strand_buried (u : State) (sid : ℕ) (old : Strand) (us : List Use) (act : Lanes) (o : ℕ) :
    (u.buried sid old us act []).strand o = u.strand o := by
  rw [State.buried_rest]
  rfl

end

/-! ### Results in scalars (R203) -/

section
variable {s t : State} {sid i : ℕ}

/-- A word that is live reads as it stands. -/
theorem regWord_live {w : MWord} {x : Bool} (h : (t.strand sid).word i = ⟨w.data, w.mark, true, x⟩) : regWord t sid i = w := by
  unfold regWord Strand.readWord
  rw [h]
  rfl

theorem State.strand_wrImg (w : MWord) (h : (aget s.strands sid).isSome = true) :
    (s.wrImg sid i w).strand sid
      = { (s.strand sid).setWord i ⟨w.data, w.mark, true, false⟩ with pend := adel (s.strand sid).pend i } := by
  have hs : (s.countDying (s.coreOf sid) [(s.strand sid).word i]).strands = s.strands := by rw [State.countDying_rest]
  have ho : (s.countDying (s.coreOf sid) [(s.strand sid).word i]).strand sid = s.strand sid :=
    congrArg (fun l => (aget l sid).getD default) hs
  unfold State.wrImg
  rw [State.strand_modStrand _ _ _ (by rw [hs]; exact h), ho]

theorem State.word_wrImg (w : MWord) (h : (aget s.strands sid).isSome = true) :
    ((s.wrImg sid i w).strand sid).word i = ⟨w.data, w.mark, true, false⟩ := by
  rw [State.strand_wrImg w h]
  exact Strand.word_setWord (s.strand sid) i ⟨w.data, w.mark, true, false⟩

theorem State.word_wrImg_other (w : MWord) (h : (aget s.strands sid).isSome = true) (j : ℕ) (hj : j ≠ i) :
    ((s.wrImg sid i w).strand sid).word j = (s.strand sid).word j := by
  rw [State.strand_wrImg w h]
  exact Strand.word_setWord_other (s.strand sid) i j ⟨w.data, w.mark, true, false⟩ hj

theorem State.fixed_wrImg (w : MWord) (h : (aget s.strands sid).isSome = true) :
    ((s.wrImg sid i w).strand sid).fixed = (s.strand sid).fixed := by
  rw [State.strand_wrImg w h]
  rfl

theorem State.clasp_wrImg (w : MWord) (h : (aget s.strands sid).isSome = true) :
    ((s.wrImg sid i w).strand sid).clasp = (s.strand sid).clasp := by
  rw [State.strand_wrImg w h]
  rfl

theorem State.isSome_wrImg (w : MWord) (h : (aget s.strands sid).isSome = true) :
    (aget (s.wrImg sid i w).strands sid).isSome = true := by
  unfold State.wrImg
  rw [State.isSome_modStrand, State.countDying_rest]
  exact h

end

section
variable {s t : State} {sid i : ℕ} {cx : Cx} {d : BitVec 8}

/-- A scalar takes its two words one after the other. -/
theorem State.putSc_words (n : ℕ) (lo hi : Word) (h : (aget s.strands sid).isSome = true) :
    s.putSc sid n 1 (.words [lo, hi])
      = (s.wrImg sid ((s.strand sid).scIx n) ⟨lo, false⟩).wrImg sid ((s.strand sid).scIx n + 1) ⟨hi, false⟩ := by
  have hx : ((s.wrImg sid ((s.strand sid).scIx n) ⟨lo, false⟩).strand sid).scIx n = (s.strand sid).scIx n := by
    unfold Strand.scIx
    rw [State.fixed_wrImg _ h]
  have hr : List.range (2 * 1) = [0, 1] := rfl
  unfold State.putSc
  rw [hr]
  simp only [List.foldl_cons, List.foldl_nil, Nat.add_zero, List.getD_cons_zero, List.getD_cons_succ, hx]

/-- $event read as a source goes to 0, and no word before the control area differs. -/
theorem State.strand_clearEvent (os : List Operand) (h : (aget s.strands sid).isSome = true) :
    ∃ st, (s.clearEvent sid os).strand sid = st ∧ st.clasp = (s.strand sid).clasp
      ∧ ∀ i, i < (s.strand sid).fixed + 128 → st.word i = (s.strand sid).word i := by
  unfold State.clearEvent
  split
  · refine ⟨_, State.strand_modStrand _ _ _ h, rfl, fun i hi => Strand.word_setDw_other _ _ _ _ ?_ ?_⟩
    all_goals
      unfold Strand.ctlIx
      omega
  · exact ⟨_, rfl, rfl, fun _ _ => rfl⟩

/-- A 64-bit result in a scalar: what is read there once the fragment has gone on. -/
theorem scalar_result {us : List Use} (os : List Operand) (lo hi : Word) (hn : d.toNat < 0x40) (hd : d ≠ specDEADLINE)
    (hs : (aget t.strands cx.sid).isSome = true) (hc : (t.strand cx.sid).clasp = none) (hg : goesOn cx) :
    regWord (s.after cx us ((t.putScalarDest cx d (.words [lo, hi])).1.clearEvent cx.sid os, [], .next)) cx.sid
        ((t.strand cx.sid).scIx d.toNat) = ⟨lo, false⟩
      ∧ regWord (s.after cx us ((t.putScalarDest cx d (.words [lo, hi])).1.clearEvent cx.sid os, [], .next)) cx.sid
        ((t.strand cx.sid).scIx d.toNat + 1) = ⟨hi, false⟩ := by
  have hp : (t.putScalarDest cx d (.words [lo, hi])).1
      = (t.wrImg cx.sid ((t.strand cx.sid).scIx d.toNat) ⟨lo, false⟩).wrImg cx.sid ((t.strand cx.sid).scIx d.toNat + 1)
        ⟨hi, false⟩ := by
    unfold State.putScalarDest
    rw [if_neg hd]
    exact State.putSc_words _ _ _ hs
  have hs1 := State.isSome_wrImg (i := (t.strand cx.sid).scIx d.toNat) ⟨lo, false⟩ hs
  have hs2 := State.isSome_wrImg (i := (t.strand cx.sid).scIx d.toNat + 1) ⟨hi, false⟩ hs1
  obtain ⟨st, he, hec, hew⟩ := State.strand_clearEvent os hs2
  rw [hp]
  rw [State.clasp_wrImg _ hs1, State.clasp_wrImg _ hs, hc] at hec
  rw [State.fixed_wrImg _ hs1, State.fixed_wrImg _ hs] at hew
  have ha := State.GoneOn.after (s := s) (us := us) (cx := cx) (u := State.clearEvent _ cx.sid os)
    (by rw [State.strand_buried, he]; exact hec) hg
  have hlo : (t.strand cx.sid).scIx d.toNat < (t.strand cx.sid).fixed + 127 := by
    unfold Strand.scIx
    omega
  constructor
  · refine regWord_live (x := false) ?_
    rw [ha.word, State.strand_buried, he, hew _ (by omega), State.word_wrImg_other _ hs1 _ (by omega)]
    exact State.word_wrImg _ hs
  · refine regWord_live (x := false) ?_
    rw [ha.word, State.strand_buried, he, hew _ (by omega)]
    exact State.word_wrImg _ hs1

end

/-! ### Where a translated access lies -/

section
variable {s v : State} {st : Strand} {sid a i o : ℕ}

/-- A byte of device memory lies where its physical address says (R378). -/
theorem State.physLoc_mem {q : ℕ} (h : s.physLoc a = some (.mem q)) : q = a := by
  unfold State.physLoc at h
  dsimp only at h
  split at h
  · cases h
    rfl
  · split at h
    · split at h <;> cases h
    · split at h
      · cases h
      · split at h
        · cases h
        · split at h <;> cases h

/-- A check that did not refuse. -/
theorem passed {α ε : Type} {c : Prop} [Decidable c] {e : ε} {x : Except ε α} {y : α}
    (h : (if c then .error e else x) = Except.ok y) : x = .ok y := by
  split at h
  · cases h
  · exact h

/-- A page is a multiple of eight bytes, and so is its frame's address: a leaf keeps an address's place in its doubleword. -/
theorem State.leafPlace_mod {who : Who} {kind : AccessKind} {level : ℕ} {e : Dword} {p : Place} {pa : ℕ}
    (h : s.leafPlace who kind a level e = .ok p) (hp : p.loc = .mem pa) : pa % 8 = a % 8 := by
  have hb : (pteFrame e + a % pageBytes level) % 8 = a % 8 := by
    have hf : pteFrame e % 8 = 0 := by
      unfold pteFrame
      omega
    have hl : (a % pageBytes level) % 8 = a % 8 := by
      refine Nat.mod_mod_of_dvd a ?_
      unfold pageBytes
      split
      · norm_num
      · split <;> norm_num
    omega
  unfold State.leafPlace at h
  dsimp only at h
  replace h := passed (passed (passed (passed (passed (passed h)))))
  split at h
  · replace h := passed h
    split at h
    · cases h
      cases hp
    · cases h
  · split at h
    · next l hl =>
      cases h
      dsimp only at hp
      subst hp
      rw [State.physLoc_mem hl, hb]
    · cases h

/-- An address of device memory keeps its place in its doubleword (R154). -/
theorem State.translate_mod {who : Who} {kind : AccessKind} {x : Dword} {p : Place} {pa : ℕ}
    (h : s.translate who kind x = (v, .ok p)) (hp : p.loc = .mem pa) : pa % 8 = x.toNat % 8 := by
  have ho : fld x 0 56 % 8 = x.toNat % 8 := by
    unfold fld
    omega
  unfold State.translate at h
  dsimp only at h
  split at h
  · unfold State.transVa at h
    split at h
    · next t level e _ =>
      rw [← ho]
      exact State.leafPlace_mod (Prod.mk.inj h).2 hp
    · cases h
  · split at h
    · split at h
      · replace h := (Prod.mk.inj h).2
        split at h
        · cases h
          cases hp
        · cases h
      · cases h
    · split at h
      · split at h
        · replace h := (Prod.mk.inj h).2
          split at h
          · split at h
            · split at h
              · cases h
                cases hp
              · cases h
            · cases h
          · cases h
        · cases h
      · split at h
        · split at h
          · cases h
          · split at h
            · next l hl =>
              cases h
              dsimp only at hp
              subst hp
              rw [State.physLoc_mem hl, ho]
            · cases h
        · cases h

/-- A line is retired or not as a whole (R474). -/
theorem State.retiredLine_line {c : ℕ} (h : c / 128 = a / 128) : s.retiredLine c = s.retiredLine a := by
  have h1 : c / stackBytes = a / stackBytes := by
    unfold stackBytes
    omega
  have h2 : servicePos c = servicePos a := by
    unfold servicePos stackBytes
    omega
  unfold State.retiredLine
  rw [h1, h2]

/-- Of an aligned word that no image covers, a byte that one covers is the first of that image's. -/
theorem Strand.imageAt_first (h : st.imageAt (a / 4 * 4) = none) (hi : st.imageAt a = some i) : i = 0 := by
  have hd : a / 4 * 4 / 65536 = a / 65536 := by omega
  unfold Strand.imageAt at h hi
  rw [hd] at h
  split at h
  · next hf =>
    rw [hf] at hi
    cases hi
  · next j hf =>
    rw [hf] at hi
    dsimp only at h hi
    split at hi
    · next hc =>
      split at h
      · cases h
      · next hn =>
        simp only [Bool.and_eq_true, decide_eq_true_eq, not_and] at hc hn
        obtain ⟨⟨h1, h2⟩, h3⟩ := hc
        cases hi
        have hlt : ¬st.base.toNat ≤ (st.base.toNat / 65536 + j) * 65536 + a / 4 * 4 % 65536 := fun hle =>
          hn ⟨hle, by omega⟩ h3
        omega
    · cases hi

theorem imageOwner_first (l : List (ℕ × Strand)) (h : imageOwner l (a / 4 * 4) = none) (hi : imageOwner l a = some (o, i)) :
    i = 0 := by
  induction l with
  | nil => cases hi
  | cons e l ih =>
    obtain ⟨k, st⟩ := e
    unfold imageOwner at h hi
    split at h
    · cases h
    · next hn =>
      split at hi
      · next j hj =>
        cases hi
        exact Strand.imageAt_first hn hj
      · exact ih h hi

/-- No pass of the matrix queue is waited for: they write no word of memory, and not the first of an image. -/
theorem State.drainAt_mem (h : s.imageAt (a / 4 * 4) = none) : s.drainAt sid (.mem a) = s := by
  unfold State.drainAt
  split
  · rfl
  · dsimp only
    split
    · next o i hi =>
      have h0 : i = 0 := imageOwner_first _ h hi
      subst h0
      have hc : (0 / 2 * 2 == (s.strand sid).ctlIx ctlACCMODE) = false := by
        unfold Strand.ctlIx
        simp
        omega
      rw [hc]
      split
      · rfl
      · simp
    · rfl

end

/-! ### Samples -/

/-- The profiler takes no samples of a strand's accesses: its core has none, or PRFCFG says so (R459). -/
def State.Unsampled (s : State) (sid : ℕ) : Prop := s.coreOf sid < 512 → s.regF (rPRFCFG (s.coreOf sid)) 63 1 = 0

section
variable {s t : State} {sid : ℕ}

theorem State.unsampled_of_unprofiled (h : unprofiled s sid) : s.Unsampled sid := by
  intro _
  have h0 := h.1
  unfold State.regF fld at h0 ⊢
  omega

theorem State.Noted.unsampled (h : s.Noted t) (hu : s.Unsampled sid) : t.Unsampled sid := by
  have hr : t.regs = s.regs := by rw [h.rest]
  unfold State.Unsampled State.regF State.reg at hu ⊢
  rw [h.coreOf, hr]
  exact hu

theorem State.Kept.unsampled (h : s.Kept t) (hu : s.Unsampled sid) : t.Unsampled sid := by
  unfold State.Unsampled State.regF State.reg at hu ⊢
  rw [h.coreOf]
  intro hk
  have hlow : regKey (rPRFCFG (s.coreOf sid)) < 0x1000000 := by
    simp only [rPRFCFG, regKey]
    omega
  rw [h.cores _ hlow]
  exact hu hk

theorem State.Unsampled.sample (hu : s.Unsampled sid) (q : LaneReq) (l : Loc) (packet : Bool) :
    s.sample sid q l packet = s := by
  unfold State.sample
  dsimp only
  rw [if_pos]
  by_cases hk : s.coreOf sid < 512
  · simp [hu hk]
  · simp [Nat.le_of_not_lt hk]

end

/-! ### A load from memory (R330) -/

section
variable {s v : State} {sid lane a : ℕ} {who : Who} {ord : BitVec 2}

/-- A word of hardware-coherent memory, which no image covers and which is no line of a retired position, reads as it stands where
no lane has written it without order. -/
theorem State.readW_mem (hi : s.imageAt a = none) (hr : s.retiredLine a = false) (hl : ∀ g ∈ s.lags, g.loc ≠ .mem a) :
    ∃ t, s.readW who ⟨.mem a, ord, false⟩ = (t, s.mem.word a) ∧ s.Aside t := by
  have ht := State.Aside.touch s who a .shared hi
  have hw : (s.touch who (.mem a) .shared).getW (.mem a) = s.mem.word a := by
    unfold State.getW
    simp only [ht.imageAt, hi, ht.retiredLine, hr, Bool.false_eq_true, if_false, ht.mem]
  have hg : (s.touch who (.mem a) .shared).lagAt (.mem a) = none := by
    unfold State.lagAt
    rw [ht.lags, List.find?_eq_none]
    intro g hgm
    simpa using hl g hgm
  have ho : (s.touch who (.mem a) .shared).ownImage who (.mem a) = none := by
    unfold State.ownImage
    split
    · next h =>
      cases h
      rw [ht.imageAt, hi]
    · rfl
  refine ⟨_, ?_, ht⟩
  unfold State.readW
  simp only [regAt, Option.isSome_none, Bool.false_eq_true, if_false]
  unfold State.readHC State.hostFails State.lagRead State.plainLoc
  simp only [Bool.false_eq_true, if_false, hw, ho, hg]

end

/-- A word of memory that a plain access finds: no image covers it, it lies in no retired position, and no lane has written it
without order. -/
structure State.Plain (s : State) (a : ℕ) : Prop where
  image : s.imageAt a = none
  sound : s.retiredLine a = false
  seen : ∀ g ∈ s.lags, g.loc ≠ .mem a

theorem State.Aside.plain {s t : State} {a : ℕ} (h : s.Aside t) (ha : s.Plain a) : t.Plain a :=
  ⟨(h.imageAt a).trans ha.image, (h.retiredLine a).trans ha.sound, by rw [h.lags]; exact ha.seen⟩

section
variable {s v : State} {held : Strand} {sid lane pa : ℕ} {who : Who} {ord : BitVec 2} {x : Dword}

/-- A strand that holds no stores reads memory itself (R137). -/
theorem Strand.heldOver_nil (h : held.locket = []) (l : Loc) (w : Word) : held.heldOver l w = (w, 0, false) := by
  unfold Strand.heldOver
  rw [h]
  rfl

/-- A doubleword: its two words. -/
theorem State.readPart_wide (h0 : s.Plain (pa / 4 * 4)) (h4 : s.Plain (pa / 4 * 4 + 4)) (m0 : s.mem.marked (pa / 4 * 4) = false)
    (m4 : s.mem.marked (pa / 4 * 4 + 4) = false) (hl : held.locket = []) :
    ∃ t, s.readPart who held x 8 ⟨.mem pa, ord, false⟩
        = (t, .words [(s.mem.word (pa / 4 * 4)).data, (s.mem.word (pa / 4 * 4 + 4)).data]) ∧ s.Aside t := by
  obtain ⟨t, e0, ht⟩ := State.readW_mem (who := who) (ord := ord) h0.image h0.sound h0.seen
  have h4' := ht.plain h4
  obtain ⟨u, e4, hu⟩ := State.readW_mem (who := who) (ord := ord) h4'.image h4'.sound h4'.seen
  rw [ht.mem] at e4
  have k0 : (s.mem.word (pa / 4 * 4)).mark = false := m0
  have k4 : (s.mem.word (pa / 4 * 4 + 4)).mark = false := m4
  refine ⟨u, ?_, ht.trans hu⟩
  unfold State.readPart
  simp only [Loc.align, placeAdd, Loc.add, e0, e4, Strand.heldOver_nil hl, k0, k4, pairTok, Bool.false_and, Bool.false_eq_true,
    if_false, if_true]

/-- A part of a word. -/
theorem State.readPart_narrow {n : ℕ} (hn : n ≠ 8) (h0 : s.Plain (pa / 4 * 4)) (m0 : s.mem.marked (pa / 4 * 4) = false)
    (hl : held.locket = []) :
    ∃ t, s.readPart who held x n ⟨.mem pa, ord, false⟩
        = (t, .words [BitVec.ofNat 32 ((s.mem.word (pa / 4 * 4)).data.toNat / 2 ^ (8 * (x.toNat % 4)) % 2 ^ (8 * n))])
      ∧ s.Aside t := by
  obtain ⟨t, e0, ht⟩ := State.readW_mem (who := who) (ord := ord) h0.image h0.sound h0.seen
  have k0 : (s.mem.word (pa / 4 * 4)).mark = false := m0
  refine ⟨t, ?_, ht⟩
  unfold State.readPart
  simp only [hn, Loc.align, e0, Strand.heldOver_nil hl, k0, Bool.false_and, Bool.false_eq_true, if_false]

/-- A load of a lane from memory, once its address is translated. -/
theorem State.load_mem {n : ℕ} {q : LaneReq} {r : ReplyVal} (ha : x.toNat % n = 0)
    (ht : s.translate (s.whoOf sid) .read x = (v, .ok ⟨.mem pa, ord, false⟩)) (hi : v.imageAt (pa / 4 * 4) = none)
    (hr : ∃ t, v.readPart (v.whoLane sid lane) (v.strand sid) x n ⟨.mem pa, ord, false⟩ = (t, r) ∧ v.Aside t)
    (hu : v.Unsampled sid) :
    ∃ t, s.load sid lane x n (some q) = (t, r) ∧ v.Aside t := by
  obtain ⟨t, he, hv⟩ := hr
  refine ⟨t, ?_, hv⟩
  unfold State.load
  simp only [ha, bne_self_eq_false, Bool.false_eq_true, if_false, ht, State.drainAt_mem hi, State.readFails, Loc.remote,
    Bool.not_false, Bool.true_or, if_true, he, (hv.unsampled hu).sample]

end

/-! ### The bytes of a value (R4) -/

section
variable (m : Mem) (a : ℕ)

theorem toNat_glue {n k : ℕ} (x : BitVec n) (y : BitVec k) : (x ++ y).toNat = x.toNat * 2 ^ k + y.toNat := by
  rw [BitVec.toNat_append, ← Nat.shiftLeft_add_eq_or_of_lt y.isLt, Nat.shiftLeft_eq]

theorem memNum_succ (n : ℕ) : memNum m a (n + 1) = memNum m a n + (m.byte (a + n)).toNat * 256 ^ n := by
  simp [memNum, List.range_succ]

/-- A word is the number of its four bytes. -/
theorem Mem.word_toNat : (m.word a).data.toNat = memNum m a 4 := by
  have h0 : memNum m a 0 = 0 := rfl
  rw [memNum_succ, memNum_succ, memNum_succ, memNum_succ, h0]
  unfold Mem.word
  simp only [toNat_glue, Nat.add_zero]
  ring

theorem memNum_add (n k : ℕ) : memNum m a (n + k) = memNum m a n + memNum m (a + n) k * 256 ^ n := by
  induction k with
  | zero => simp [memNum]
  | succ k ih =>
    rw [← Nat.add_assoc, memNum_succ, ih, memNum_succ, Nat.add_assoc a n k, pow_add]
    ring

theorem memNum_lt (n : ℕ) : memNum m a n < 256 ^ n := by
  induction n with
  | zero => simp [memNum]
  | succ n ih =>
    have hb := (m.byte (a + n)).isLt
    rw [memNum_succ, pow_succ]
    nlinarith

/-- Some of the bytes of a number. -/
theorem memNum_part (k n r : ℕ) : memNum m a (k + (n + r)) / 2 ^ (8 * k) % 2 ^ (8 * n) = memNum m (a + k) n := by
  have h256 : ∀ j, 2 ^ (8 * j) = 256 ^ j := fun j => by
    rw [pow_mul]
    norm_num
  rw [h256, h256, memNum_add, Nat.add_mul_div_right _ _ (by positivity), Nat.div_eq_of_lt (memNum_lt m a k), Nat.zero_add,
    memNum_add, Nat.add_mul_mod_self_right, Nat.mod_eq_of_lt (memNum_lt m _ n)]

/-- The bytes of a part of a word. -/
theorem Mem.word_part (k n : ℕ) (h : k + n ≤ 4) : (m.word a).data.toNat / 2 ^ (8 * k) % 2 ^ (8 * n) = memNum m (a + k) n := by
  have h4 : 4 = k + (n + (4 - k - n)) := by omega
  rw [Mem.word_toNat, h4]
  exact memNum_part _ _ _ _ _

end

/-! ### LDS -/

/-- The 64 bits that LDS gives of a number of bytes of memory (R331). -/
def ldsValue (b : MemBody) (n : ℕ) : Dword :=
  if b.sx && b.size != 3 then dword (signed (8 * memSize b) n) else BitVec.ofNat 64 n

section
variable {s v : State} {b : MemBody} {lane pa sid : ℕ} {x : Dword} {ord : BitVec 2} {cx : Cx} {h : Hdr}

/-- The size of an access, as its field says (R206). -/
theorem memSize_cases (b : MemBody) :
    b.size = 3 ∧ memSize b = 8 ∨ b.size ≠ 3 ∧ (memSize b = 1 ∨ memSize b = 2 ∨ memSize b = 4) := by
  have hc : ∀ z : BitVec 2, z = 3 ∧ 2 ^ z.toNat = 8 ∨ z ≠ 3 ∧ (2 ^ z.toNat = 1 ∨ 2 ^ z.toNat = 2 ∨ 2 ^ z.toNat = 4) := by decide
  exact hc b.size

theorem loW_join32 (lo hi : Word) : loW (join32 lo hi) = lo := by
  refine BitVec.eq_of_getLsbD_eq fun i hi => ?_
  simp only [loW, join32, BitVec.getLsbD_append, BitVec.getLsbD_extractLsb']
  simp [hi]

theorem hiW_join32 (lo hi : Word) : hiW (join32 lo hi) = hi := by
  refine BitVec.eq_of_getLsbD_eq fun i hi => ?_
  simp only [hiW, join32, BitVec.getLsbD_append, BitVec.getLsbD_extractLsb']
  simp [hi]

/-- A doubleword from two words of memory. -/
theorem ldsValue_wide (m : Mem) (a : ℕ) (hs : b.size = 3) :
    loadVal b true (.words [(m.word a).data, (m.word (a + 4)).data])
      = .words [loW (ldsValue b (memNum m a 8)), hiW (ldsValue b (memNum m a 8))] := by
  have hv : ldsValue b (memNum m a 8) = join32 (m.word a).data (m.word (a + 4)).data := by
    unfold ldsValue
    rw [if_neg (by simp [hs])]
    apply BitVec.eq_of_toNat_eq
    have h0 := (m.word a).data.isLt
    have h4 := (m.word (a + 4)).data.isLt
    unfold join32
    rw [toNat_glue, BitVec.toNat_ofNat, memNum_add m a 4 4, ← Mem.word_toNat, ← Mem.word_toNat]
    omega
  rw [hv, loW_join32, hiW_join32]
  rfl

/-- Fewer bytes of a word of memory, extended. -/
theorem ldsValue_narrow (m : Mem) (a : ℕ) (hs : b.size ≠ 3) (hn : memSize b ≤ 4) :
    loadVal b true (.words [BitVec.ofNat 32 (memNum m a (memSize b))])
      = .words [loW (ldsValue b (memNum m a (memSize b))), hiW (ldsValue b (memNum m a (memSize b)))] := by
  have hlt : memNum m a (memSize b) < 2 ^ 32 :=
    (memNum_lt m a _).trans_le (le_trans (Nat.pow_le_pow_right (by norm_num) hn) (by norm_num))
  have hw : (BitVec.ofNat 32 (memNum m a (memSize b))).toNat = memNum m a (memSize b) := Nat.mod_eq_of_lt hlt
  have he : extend b.sx (memSize b) (BitVec.ofNat 32 (memNum m a (memSize b))) = ldsValue b (memNum m a (memSize b)) := by
    unfold extend ldsValue
    rw [hw, show (b.size != 3) = true by simpa using hs, Bool.and_true]
    split
    · rfl
    · apply BitVec.eq_of_toNat_eq
      rw [BitVec.toNat_setWidth, hw, BitVec.toNat_ofNat]
  unfold loadVal
  simp only [he, if_true, res64]

/-- What the one load of the form gives. -/
theorem State.loadLane_mem (ha : cx.src.ea cx.sid lane b false = .ok x) (hx : x.toNat % memSize b = 0)
    (ht : s.translate (s.whoOf cx.sid) .read x = (v, .ok ⟨.mem pa, ord, false⟩)) (hi : v.imageAt (pa / 4 * 4) = none)
    (hi4 : v.imageAt (pa / 4 * 4 + 4) = none) (hr : v.retiredLine pa = false) (m0 : v.mem.marked (pa / 4 * 4) = false)
    (m4 : v.mem.marked (pa / 4 * 4 + 4) = false) (hl : (v.strand cx.sid).locket = [])
    (hg : ∀ g ∈ v.lags, g.loc ≠ .mem (pa / 4 * 4) ∧ g.loc ≠ .mem (pa / 4 * 4 + 4)) (hu : v.Unsampled cx.sid) :
    ∃ t w, s.loadLane cx b lane (memSize b) = (t, w) ∧ v.Aside t
      ∧ loadVal b true w
        = .words [loW (ldsValue b (memNum v.mem pa (memSize b))), hiW (ldsValue b (memNum v.mem pa (memSize b)))] := by
  have hm := State.translate_mod ht rfl
  have hr0 : v.retiredLine (pa / 4 * 4) = false := (State.retiredLine_line (by omega)).trans hr
  have h0 : v.Plain (pa / 4 * 4) := ⟨hi, hr0, fun g hgm => (hg g hgm).1⟩
  unfold State.loadLane
  rw [ha]
  dsimp only
  obtain ⟨hs, h8⟩ | ⟨hs, hn⟩ := memSize_cases b
  · rw [h8] at hx ⊢
    have hpa : pa / 4 * 4 = pa := by omega
    have hr4 : v.retiredLine (pa / 4 * 4 + 4) = false := (State.retiredLine_line (by omega)).trans hr
    obtain ⟨t, he, hv⟩ := State.load_mem (lane := lane) (q := ⟨lane, cx.pc, x, cx.act⟩) hx ht hi
      (State.readPart_wide h0 ⟨hi4, hr4, fun g hgm => (hg g hgm).2⟩ m0 m4 hl) hu
    rw [hpa] at he
    exact ⟨t, _, he, hv, ldsValue_wide _ _ hs⟩
  · have hn8 : memSize b ≠ 8 := by omega
    have hp : x.toNat % 4 = pa % 4 := by omega
    have hk : pa % 4 + memSize b ≤ 4 := by rcases hn with hn | hn | hn <;> rw [hn] at hx ⊢ <;> omega
    obtain ⟨t, he, hv⟩ := State.load_mem (lane := lane) (q := ⟨lane, cx.pc, x, cx.act⟩) hx ht hi
      (State.readPart_narrow hn8 h0 m0 hl) hu
    rw [hp, Mem.word_part _ _ _ _ hk, show pa / 4 * 4 + pa % 4 = pa by omega] at he
    exact ⟨t, _, he, hv, ldsValue_narrow _ _ hs (by omega)⟩

end

theorem lds_completes {h : Hdr} {b : MemBody} {s : State} {cx : Cx} {r : Row} (hr : loadRows (.lds h b) = some r)
    (hd : r.Ready (.lds h b) s cx) : exec (.lds h b) s = .next (r.result s cx) := by
  cases hr
  exact accessIf_eq hd (eff := ldsEff h b) (once := true) rfl rfl fun t ht => by
    unfold ldsEff
    dsimp only
    rw [putScalarDest_eq ht]

/-- The destination of LDS is a scalar, where it is not $deadline. -/
theorem lds_dest {h : Hdr} {b : MemBody} (hl : legal (.lds h b) = true) (hd : h.dest ≠ specDEADLINE) : h.dest.toNat < 0x40 := by
  replace hl : Check.lds h b = true := hl
  unfold Check.lds Check.destS at hl
  simp only [Bool.and_eq_true, Bool.or_eq_true, decide_eq_true_eq, beq_iff_eq] at hl
  exact hl.2.resolve_right hd

/-- A fragment that issues is one of a strand of the state. -/
theorem Clear.present {s : State} {ok : Bool} {h : Hdr} {us : List Use} {sid idx : ℕ} {f : Frag} {act : Lanes}
    (c : Clear s ok h us sid idx f act) : (aget s.strands sid).isSome = true := by
  have hi := c.issuing
  unfold State.issuer at hi
  split at hi
  · cases hi
  · split at hi
    · cases hi
    · next st hs =>
      obtain ⟨f', _, he⟩ := Option.map_eq_some_iff.1 hi
      cases he
      rw [hs]
      rfl

/-- Settles O30: the words that the load gives are those of memory, and the scalar takes them. -/
theorem scalarLoadValue : Obligations.ScalarLoadValue := by
  unfold Obligations.ScalarLoadValue
  intro h b r s cx hr hd ho hg hu hne a v pa ord ha hal ht hi hi4 hret m0 m4 hl hlag
  refine ⟨_, lds_completes hr hd, ?_⟩
  have hn : s.Noted (atEffect r s cx) := State.Noted.used _ _ _ _
  have hv : (atEffect r s cx).Aside v := by
    have h := State.Aside.translate (atEffect r s cx) ((atEffect r s cx).whoOf cx.sid) .read a
    rwa [ht] at h
  have hvu := hv.unsampled (hn.unsampled (State.unsampled_of_unprofiled hu))
  obtain ⟨t, w, hw, hvt, hval⟩ := State.loadLane_mem ha hal ht hi hi4 hret m0 m4 hl hlag hvu
  have hmem : v.mem = s.mem := hv.mem.trans (by rw [hn.rest])
  have hst : t.strand cx.sid = (atEffect r s cx).strand cx.sid := (hvt.strand _).trans (hv.strand _)
  have hsc : (t.strand cx.sid).scIx h.dest.toNat = (s.strand cx.sid).scIx h.dest.toNat := by
    rw [hst, hn.strand]
    rfl
  have hcl : (t.strand cx.sid).clasp = none := by
    rw [hst, hn.strand]
    exact ho
  have hpr : (aget t.strands cx.sid).isSome = true := by
    rw [hvt.strands, hv.strands]
    exact (hn.listed _).trans hd.clear.present
  have hres := scalar_result (s := s) (us := r.uses s) (memSpecials b) (loW (ldsValue b (memNum v.mem pa (memSize b))))
    (hiW (ldsValue b (memNum v.mem pa (memSize b)))) (lds_dest hd.clear.allowed hne) hne hpr hcl hg
  rw [hsc, ← hval, hmem] at hres
  have he : r.result s cx = s.after cx (r.uses s)
      ((t.putScalarDest cx h.dest (loadVal b true w)).1.clearEvent cx.sid (memSpecials b), [], .next) := by
    cases hr
    have hw' : (s.used cx h (eaUses h b false ++ scDest h.dest 1)).loadLane cx b cx.once (memSize b) = (t, w) := hw
    unfold Row.result accessIf plainIf onward
    dsimp only
    rw [hw']
  rw [he]
  exact hres

end Sys2Proof.Machine
end

section
/-! PROOF. One store of a fragment outside a region (O31): what a release shows does not matter to the translation; then the bytes
in memory, in a cluster's copy or in a device register, and what the profiler and the fragment's going on leave of them. -/
namespace Sys2Proof.Machine
open Sys2Proof.Claims

/-! ### What lanes have not seen does not matter to a translation -/

/-- A state with other writes that are not yet seen by every lane. -/
def State.withLags (s : State) (l : List Lag) : State := { s with lags := l }

section
variable (s : State) (g : List Lag) (who : Who) (kind : AccessKind)

theorem State.showLanes_withLags (sid : ℕ) (m : Lanes) : ∃ l, s.showLanes sid m = s.withLags l := by
  unfold State.showLanes
  split
  · exact ⟨s.lags, rfl⟩
  · exact ⟨_, rfl⟩

theorem State.walk_withLags (va fuel level table : ℕ) : (s.withLags g).walk va fuel level table = s.walk va fuel level table := by
  induction fuel generalizing level table with
  | zero => rfl
  | succ n ih =>
    have hd : ∀ l, (s.withLags g).getD64 l = s.getD64 l := fun _ => rfl
    unfold State.walk
    simp only [hd, ih]

theorem State.walkReads_withLags (va fuel level table : ℕ) :
    (s.withLags g).walkReads va fuel level table = s.walkReads va fuel level table := by
  induction fuel generalizing level table with
  | zero => rfl
  | succ n ih =>
    have hd : ∀ l, (s.withLags g).getD64 l = s.getD64 l := fun _ => rfl
    unfold State.walkReads
    simp only [hd, ih]

theorem State.touchRetired_withLags (l : Loc) : (s.withLags g).touchRetired l = (s.touchRetired l).withLags g := by
  cases l with
  | mem pa =>
    unfold State.touchRetired
    dsimp only
    rw [apply_ite (State.withLags · g)]
    rfl
  | _ => rfl

theorem State.countWalk_withLags (clu ctx va : ℕ) (w : Walk) :
    (s.withLags g).countWalk clu ctx va w = (s.countWalk clu ctx va w).withLags g := by
  have hf : ∀ (xs : List ℕ) (t : State), xs.foldl (fun (t : State) a => t.touchRetired (.mem a)) (t.withLags g)
      = (xs.foldl (fun (t : State) a => t.touchRetired (.mem a)) t).withLags g := fun xs => by
    induction xs with
    | nil => exact fun _ => rfl
    | cons x xs ih =>
      intro t
      rw [List.foldl_cons, List.foldl_cons, State.touchRetired_withLags, ih]
  unfold State.countWalk
  rw [State.walkReads_withLags]
  dsimp only
  rw [hf]
  rw [apply_ite (State.withLags · g)]
  rfl

theorem State.leafFor_withLags (va : ℕ) :
    (s.withLags g).leafFor who kind va = ((s.leafFor who kind va).1.withLags g, (s.leafFor who kind va).2) := by
  have hw : (s.withLags g).walkCtx who.ctx va = s.walkCtx who.ctx va := State.walk_withLags _ _ _ _ _ _
  have hh : ∀ k, (s.withLags g).tlbHit k who.ctx va = s.tlbHit k who.ctx va := fun _ => rfl
  have hc : (s.withLags g).tick = s.tick := rfl
  have hl : ∀ (t : State) level e, (t.withLags g).leafPlace who kind va level e = t.leafPlace who kind va level e :=
    fun _ _ _ => rfl
  unfold State.leafFor
  dsimp only
  rw [hw]
  split
  · rw [State.countWalk_withLags]
  · simp only [hh, hc, State.countWalk_withLags, hl]
    split
    · rfl
    · split
      · split <;> rfl
      · rfl

theorem State.transVa_withLags (va : ℕ) :
    (s.withLags g).transVa who kind va = ((s.transVa who kind va).1.withLags g, (s.transVa who kind va).2) := by
  unfold State.transVa
  rw [State.leafFor_withLags]
  rcases s.leafFor who kind va with ⟨t, w⟩
  cases w <;> rfl

theorem State.translate_withLags (a : Dword) :
    (s.withLags g).translate who kind a = ((s.translate who kind a).1.withLags g, (s.translate who kind a).2) := by
  have hb : ∀ b, (s.withLags g).block b = s.block b := fun _ => rfl
  have hp : ∀ o, (s.withLags g).physLoc o = s.physLoc o := fun _ => rfl
  have hs : ∀ b n, (s.withLags g).slotBlock b n = s.slotBlock b n := fun _ _ => rfl
  have hu : ∀ o, (s.withLags g).unitSm o = s.unitSm o := fun _ => rfl
  unfold State.translate
  dsimp only
  rw [State.transVa_withLags]
  simp only [hb, hp, hs, hu]
  split
  · rfl
  · split
    · split <;> rfl
    · split
      · split <;> rfl
      · split
        · split
          · rfl
          · split <;> rfl
        · rfl

end

/-! ### What is left of a store once its fragment has gone on -/

/-- Nothing differs but strands, and of none the packet that it executes. -/
structure State.Within (s t : State) : Prop where
  rest : t = { s with strands := t.strands }
  clasp : ∀ o, (t.strand o).clasp = (s.strand o).clasp

section
variable {s t u : State} {sid : ℕ} {old : Strand} {us : List Use} {act : Lanes} {cx : Cx} {h : Hdr} {b : MemBody} {r : Row}
  {a x : Dword}

theorem State.Within.refl : s.Within s := ⟨rfl, fun _ => rfl⟩

theorem State.Within.trans (h : s.Within t) (h' : t.Within u) : s.Within u :=
  ⟨h'.rest.trans (congrArg (fun x : State => { x with strands := u.strands }) h.rest), fun o => (h'.clasp o).trans (h.clasp o)⟩

theorem State.Within.modStrand (f : Strand → Strand) (hf : ∀ st : Strand, (f st).clasp = st.clasp) :
    s.Within (s.modStrand sid f) := by
  refine ⟨rfl, fun o => ?_⟩
  by_cases ho : o = sid
  · subst ho
    cases hs : aget s.strands o with
    | none => simp only [State.strand, State.modStrand, aget_amod_same, hs, Option.map_none]
    | some y =>
      rw [State.strand_modStrand _ _ _ (by rw [hs]; rfl)]
      exact hf _
  · rw [State.strand_modStrand_other _ _ _ _ ho]

theorem State.Within.reg (h : s.Within t) (q : RegId) : t.reg q = s.reg q := by
  unfold State.reg
  rw [h.rest]

theorem State.GoneOn.within (h : s.GoneOn t) : s.Within t := ⟨h.rest, h.clasp⟩

theorem State.Within.clearEvent (os : List Operand) : s.Within (s.clearEvent sid os) := by
  unfold State.clearEvent
  split
  · exact .modStrand _ fun _ => rfl
  · exact .refl

/-- One store that is performed leaves no lane held and no record. -/
theorem State.settleEff_done (lane : ℕ) (pc : Dword) :
    s.settleEff sid pc [(lane, .done)] = (s.endTag sid s.tick, []) := rfl

theorem State.Within.endTag (tag : ℕ) : s.Within (s.endTag sid tag) := by
  unfold State.endTag
  split
  · exact .refl
  · exact .modStrand _ fun _ => rfl

/-- The words of a register that a last use makes dead are words of its use. -/
theorem Use.dead_words {z : Use} {i : ℕ} (hi : i ∈ (match z.kind with
    | .vec => z.words old (act &&& ~~~(0 : Lanes))
    | .sc => if act &&& ~~~(0 : Lanes) = 0 then [] else z.words old act
    | _ => [])) : i ∈ z.words old act := by
  have ha : act &&& ~~~(0 : Lanes) = act := BitVec.and_allOnes
  rw [ha] at hi
  split at hi
  · exact hi
  · split at hi
    · cases hi
    · exact hi
  · cases hi

/-- Poison that an instruction consumes is not counted where it dies (R447). -/
theorem State.buried_eaten (he : ∀ z ∈ us, z.last = true → z.eats = true ∧ z.write = false) :
    u.buried sid old us act [] = u := by
  have hm : maskOf (List.map Hold.lane []) = 0 := rfl
  unfold State.buried
  split
  · rfl
  · rw [hm]
    unfold State.countUses
    dsimp only
    rw [List.filter_eq_nil_iff.2, List.map_nil]
    · rfl
    · intro i hi
      rw [List.mem_eraseDups, List.mem_flatMap] at hi
      obtain ⟨z, hz, hzi⟩ := hi
      obtain ⟨hzu, hzl⟩ := List.mem_filter.1 hz
      obtain ⟨hze, hzw⟩ := he z hzu hzl
      have hmem : i ∈ (us.filter fun u => u.eats && !u.write).flatMap fun u => u.words old act :=
        List.mem_flatMap.2 ⟨z, List.mem_filter.2 ⟨hzu, by rw [hze, hzw]; rfl⟩, Use.dead_words hzi⟩
      simpa [and_assoc] using hmem

/-- A source that an instruction's effect consumes. -/
theorem opUse_eats (o : Operand) (n : ℕ) (last : Bool) :
    ∀ z ∈ opUse o n last true, z.last = true → z.eats = true ∧ z.write = false := by
  intro z hz hl
  unfold opUse at hz
  split at hz
  · rw [List.mem_singleton.1 hz]
    exact ⟨rfl, rfl⟩
  · rw [List.mem_singleton.1 hz]
    exact ⟨rfl, rfl⟩
  · rw [List.mem_singleton.1 hz]
    exact ⟨rfl, rfl⟩
  · split at hz
    · rw [List.mem_singleton.1 hz] at hl
      cases hl
    · cases hz
  · cases hz

theorem sts_eats : ∀ z ∈ eaUses h b true ++ opUse b.data 1 h.luc true, z.last = true → z.eats = true ∧ z.write = false := by
  intro z hz
  unfold eaUses at hz
  rcases List.mem_append.1 hz with hz | hz
  · rcases List.mem_append.1 hz with hz | hz
    · exact opUse_eats _ _ _ z hz
    · exact opUse_eats _ _ _ z hz
  · exact opUse_eats _ _ _ z hz

/-- The state in which STS makes its store: a release shows the fragment's earlier stores first (R170). -/
def stsStart (r : Row) (b : MemBody) (s : State) (cx : Cx) : State :=
  if isRel b then (atEffect r s cx).showLanes cx.sid cx.act else atEffect r s cx

theorem sts_completes (hr : storeRows (.sts h b) = some r) (hd : r.Ready (.sts h b) s cx) :
    exec (.sts h b) s = .next (r.result s cx) := by
  cases hr
  exact StoreForm.exec_eq _ (once := true) hd rfl rfl

/-- The store of one lane, where it is performed. -/
theorem State.storeLanes_one {l n : ℕ} {data : ℕ → Except Word (List Dword)} (ha : cx.src.ea cx.sid l b false = .ok a)
    (hx : data l = .ok [x])
    (hS : (if isRel b then s.showLanes cx.sid cx.act else s).storeOne cx b l n a x true = (t, .done)) :
    s.storeLanes cx b [l] n .ok data = ((t.endTag cx.sid t.tick).clearEvent cx.sid (memSpecials b), []) := by
  have hp : (if isRel b then s.showLanes cx.sid cx.act else s).storeParts cx b l n a [x] = (t, .done) := hS
  unfold State.storeLanes
  dsimp only
  rw [List.foldl_cons, List.foldl_nil, ha]
  dsimp only
  rw [hx]
  dsimp only
  rw [hp]
  dsimp only [List.nil_append]
  rw [State.settleEff_done]

/-- What STS leaves, where its store is performed: nothing differs from the state that the store leaves but strands. -/
theorem sts_leaves (hr : storeRows (.sts h b) = some r) (hd : r.Ready (.sts h b) s cx) (hg : goesOn cx)
    (ha : cx.src.ea cx.sid cx.once b false = .ok a) (hx : cx.datum b cx.once = .ok [x])
    (hS : (stsStart r b s cx).storeOne cx b cx.once (memSize b) a x true = (t, .done)) (hc : (t.strand cx.sid).clasp = none) :
    ∃ w, exec (.sts h b) s = .next w ∧ t.Within w := by
  refine ⟨_, sts_completes hr hd, ?_⟩
  have hw : t.Within ((t.endTag cx.sid t.tick).clearEvent cx.sid (memSpecials b)) := (State.Within.endTag _).trans (.clearEvent _)
  have hb : ((t.endTag cx.sid t.tick).clearEvent cx.sid (memSpecials b)).buried cx.sid (s.strand cx.sid)
      (eaUses h b true ++ opUse b.data 1 h.luc true) cx.act [] = (t.endTag cx.sid t.tick).clearEvent cx.sid (memSpecials b) :=
    State.buried_eaten sts_eats
  have hgo := State.GoneOn.after (s := s) (us := eaUses h b true ++ opUse b.data 1 h.luc true) (cx := cx)
    (u := (t.endTag cx.sid t.tick).clearEvent cx.sid (memSpecials b)) (by rw [hb, hw.clasp]; exact hc) hg
  have hl := State.storeLanes_one (s := atEffect r s cx) (data := cx.datum b) ha hx hS
  have he : r.result s cx = s.after cx (eaUses h b true ++ opUse b.data 1 h.luc true)
      (((atEffect r s cx).storeLanes cx b [cx.once] (memSize b) .ok (cx.datum b)).1, [], .next) := by
    cases hr
    rfl
  rw [hb] at hgo
  rw [he, hl]
  exact hw.trans hgo.within

end

/-! ### Bytes written to a memory -/

/-- The bytes of an access of `n` bytes, from byte `o` of the word at `a` on, or of a doubleword. -/
def Mem.putBytes (m : Mem) (a o n : ℕ) (x : Dword) : Mem :=
  if n = 8 then (m.setWord a 15 ⟨loW x, false⟩).setWord (a + 4) 15 ⟨hiW x, false⟩
  else m.setWord a ((2 ^ n - 1) * 2 ^ o) ⟨loW x <<< (8 * o), false⟩

section
variable (m : Mem) (a o n be j : ℕ) (w : MWord) (x : Dword)

/-- A byte after a word is written: the word's where its enable is set. -/
theorem Mem.byte_setWord :
    (m.setWord a be w).byte j = if a ≤ j ∧ j < a + 4 ∧ be.testBit (j - a) = true then byteOf w.data (j - a) else m.byte j := by
  have put : ∀ (m : Mem) (i : ℕ), (if be.testBit i then m.setByte (a + i) (byteOf w.data i) else m).byte j
      = if be.testBit i = true ∧ j = a + i then byteOf w.data i else m.byte j := by
    intro m i
    by_cases hj : j = a + i
    · subst hj
      by_cases hb : be.testBit i = true <;> simp [hb]
    · by_cases hb : be.testBit i = true <;> simp [hb, hj, Mem.byte_setByte_other]
  have mark : ∀ m' : Mem, (if be % 16 = 0 then m' else m'.setMark a w.mark).byte j = m'.byte j := by
    intro m'
    split <;> simp
  unfold Mem.setWord
  dsimp only
  rw [mark, put, put, put, put]
  by_cases hin : a ≤ j ∧ j < a + 4
  · obtain ⟨i, rfl⟩ := Nat.exists_eq_add_of_le hin.1
    have hi : i = 0 ∨ i = 1 ∨ i = 2 ∨ i = 3 := by omega
    rcases hi with rfl | rfl | rfl | rfl <;> simp
  · have h0 : ∀ i, i < 4 → j ≠ a + i := fun i hi hj => hin (by omega)
    have hn : ¬(a ≤ j ∧ j < a + 4 ∧ be.testBit (j - a) = true) := fun h => hin ⟨h.1, h.2.1⟩
    have ha : j ≠ a := h0 0 (by decide)
    simp [ha, h0 1, h0 2, h0 3, hn]

/-- The marks after a word is written: the word's own. -/
theorem Mem.marked_setWord_same (hb : be % 16 ≠ 0) : (m.setWord a be w).marked a = w.mark := by
  unfold Mem.setWord
  dsimp only
  rw [if_neg hb]
  exact Mem.marked_setMark_same _ _ _

theorem Mem.marked_setWord_other (hj : j ≠ a) : (m.setWord a be w).marked j = m.marked j := by
  have put : ∀ (m : Mem) (i : ℕ), (if be.testBit i then m.setByte (a + i) (byteOf w.data i) else m).marked j = m.marked j := by
    intro m i
    split <;> rfl
  unfold Mem.setWord
  dsimp only
  split
  · rw [put, put, put, put]
  · rw [Mem.marked_setMark_other _ _ _ _ hj, put, put, put, put]

/-- Byte i of the halves of a doubleword. -/
theorem byteOf_loW (i : ℕ) (hi : i < 4) : byteOf (loW x) i = x.extractLsb' (8 * i) 8 := by
  refine BitVec.eq_of_getLsbD_eq fun k hk => ?_
  simp only [byteOf, loW, BitVec.getLsbD_extractLsb']
  simp [hk, show 8 * i + k < 32 by omega]

theorem byteOf_hiW (i : ℕ) (hi : i < 4) : byteOf (hiW x) i = x.extractLsb' (8 * (i + 4)) 8 := by
  refine BitVec.eq_of_getLsbD_eq fun k hk => ?_
  simp only [byteOf, hiW, BitVec.getLsbD_extractLsb']
  simp [hk, show 8 * i + k < 32 by omega, show 32 + (8 * i + k) = 8 * (i + 4) + k by omega]

/-- And of a low half that is moved up by whole bytes. -/
theorem byteOf_shift (i : ℕ) (hi : i + o < 4) : byteOf (loW x <<< (8 * o)) (i + o) = x.extractLsb' (8 * i) 8 := by
  refine BitVec.eq_of_getLsbD_eq fun k hk => ?_
  simp only [byteOf, loW, BitVec.getLsbD_extractLsb', BitVec.getLsbD_shiftLeft]
  simp [hk, show 8 * (i + o) + k < 32 by omega, show 8 * o ≤ 8 * (i + o) + k by omega,
    show 8 * (i + o) + k - 8 * o = 8 * i + k by omega, show 8 * i + k < 32 by omega]

/-- The enables of some bytes of a word. -/
theorem testBit_enables (hn : n = 1 ∨ n = 2 ∨ n = 4) (ho : o + n ≤ 4) (i : ℕ) (hi : i < 4) :
    ((2 ^ n - 1) * 2 ^ o).testBit i = true ↔ o ≤ i ∧ i < o + n := by
  have hd : ∀ n ∈ [1, 2, 4], ∀ o < 4, ∀ i < 4, o + n ≤ 4 →
      (((2 ^ n - 1) * 2 ^ o).testBit i = true ↔ o ≤ i ∧ i < o + n) := by decide
  exact hd n (by simpa using hn) o (by omega) i hi ho

/-- Where an access of `n` bytes may lie: a doubleword, or a part of a word. -/
def Fits (n o : ℕ) : Prop := n = 8 ∧ o = 0 ∨ (n = 1 ∨ n = 2 ∨ n = 4) ∧ o + n ≤ 4

/-- The bytes of an access hold its data, and every other byte is as it was (R4). -/
theorem Mem.byte_putBytes (h : Fits n o) : (m.putBytes a o n x).byte j
    = if a + o ≤ j ∧ j < a + o + n then x.extractLsb' (8 * (j - (a + o))) 8 else m.byte j := by
  unfold Mem.putBytes
  rcases h with ⟨rfl, rfl⟩ | ⟨hn, ho⟩
  · have h15 : ∀ i < 4, Nat.testBit 15 i = true := by decide
    rw [if_pos rfl, Mem.byte_setWord, Mem.byte_setWord]
    by_cases hhi : a + 4 ≤ j ∧ j < a + 8
    · rw [if_pos ⟨hhi.1, by omega, h15 _ (by omega)⟩, if_pos (by omega), byteOf_hiW _ _ (by omega)]
      congr 1
      omega
    · rw [if_neg (by omega)]
      by_cases hlo : a ≤ j ∧ j < a + 4
      · rw [if_pos ⟨hlo.1, hlo.2, h15 _ (by omega)⟩, if_pos (by omega), byteOf_loW _ _ (by omega)]
        rfl
      · rw [if_neg (by omega), if_neg (by omega)]
  · rw [if_neg (by omega), Mem.byte_setWord]
    by_cases hj : a + o ≤ j ∧ j < a + o + n
    · have hb := (testBit_enables o n hn ho (j - a) (by omega)).2 (by omega)
      rw [if_pos ⟨by omega, by omega, hb⟩, if_pos hj, show j - a = j - (a + o) + o by omega, byteOf_shift _ _ _ (by omega)]
    · rw [if_neg hj, if_neg]
      rintro ⟨h1, h2, h3⟩
      have hb := (testBit_enables o n hn ho (j - a) (by omega)).1 h3
      omega

theorem enables_ne (hn : n = 1 ∨ n = 2 ∨ n = 4) (ho : o + n ≤ 4) : ((2 ^ n - 1) * 2 ^ o) % 16 ≠ 0 := by
  have hd : ∀ n ∈ [1, 2, 4], ∀ o < 4, o + n ≤ 4 → ((2 ^ n - 1) * 2 ^ o) % 16 ≠ 0 := by decide
  exact hd n (by simpa using hn) o (by omega) ho

/-- The words that an access writes lose their marks, and the others keep theirs (R125). -/
theorem Mem.marked_putBytes (h : Fits n o) : (m.putBytes a o n x).marked a = false := by
  unfold Mem.putBytes
  rcases h with ⟨rfl, rfl⟩ | ⟨hn, ho⟩
  · rw [if_pos rfl, Mem.marked_setWord_other _ _ _ _ _ (by omega), Mem.marked_setWord_same _ _ _ _ (by decide)]
  · rw [if_neg (by omega), Mem.marked_setWord_same _ _ _ _ (enables_ne _ _ hn ho)]

theorem Mem.marked_putBytes_wide : (m.putBytes a o 8 x).marked (a + 4) = false := by
  unfold Mem.putBytes
  rw [if_pos rfl, Mem.marked_setWord_same _ _ _ _ (by decide)]

theorem Mem.marked_putBytes_other (h1 : j ≠ a) (h2 : n = 8 → j ≠ a + 4) : (m.putBytes a o n x).marked j = m.marked j := by
  unfold Mem.putBytes
  split
  · next h => rw [Mem.marked_setWord_other _ _ _ _ _ (h2 h), Mem.marked_setWord_other _ _ _ _ _ h1]
  · rw [Mem.marked_setWord_other _ _ _ _ _ h1]

end

/-! ### A store to memory (R335) -/

section
variable {s t : State} {who : Who} {a n be pa k : ℕ} {ord : BitVec 2} {w : MWord} {x d : Dword} {sm : Bool}

/-- Nothing of what `State.Kept` tells of differs where these parts do not. -/
theorem State.Kept.same (h : (t.strands, t.blocks, t.chans, t.regs) = (s.strands, s.blocks, s.chans, s.regs)) : s.Kept t := by
  simp only [Prod.mk.injEq] at h
  obtain ⟨h1, h2, h3, h4⟩ := h
  exact ⟨h1, h2, h3, fun _ _ => by rw [h4]⟩

theorem State.ownImage_none (h : s.imageAt a = none) : s.ownImage who (.mem a) = none := by
  unfold State.ownImage
  split
  · next heq =>
    cases heq
    rw [h]
  · rfl

/-- A lane's write is noted, or what was noted of the word is seen. -/
theorem State.lagWrite_withLags (p : Place) : ∃ g, s.lagWrite who p = s.withLags g := by
  have hs : ∀ l, ∃ g, s.showLoc l = s.withLags g := fun l => by
    unfold State.showLoc
    split
    · exact ⟨s.lags, rfl⟩
    · dsimp only
      split
      · exact ⟨s.lags, rfl⟩
      · exact ⟨_, rfl⟩
  unfold State.lagWrite
  split
  · exact hs _
  · dsimp only
    split
    · split
      · split
        · exact ⟨s.lags, rfl⟩
        · obtain ⟨g, hg⟩ := hs (s.plainLoc p.loc)
          rw [hg]
          exact ⟨_, rfl⟩
      · exact ⟨_, rfl⟩
    · exact hs _

/-- A line that a core writes: what L2 holds of it stays behind, or it is written back (R227). -/
theorem State.Kept.oldLines (core : Option ℕ) (l : Loc) :
    s.Kept (if core.isNone then s.lineClean l else s.noteOld core l)
      ∧ (if core.isNone then s.lineClean l else s.noteOld core l).mem = s.mem := by
  split
  · exact ⟨.same rfl, rfl⟩
  · unfold State.noteOld
    split
    · split
      · exact ⟨.refl, rfl⟩
      · dsimp only
        split <;> exact ⟨.same rfl, rfl⟩
    · exact ⟨.refl, rfl⟩

/-- A word of hardware-coherent memory is written, and nothing else of what memory holds. -/
theorem State.writeW_mem (hi : s.imageAt a = none) (hr : s.retiredLine a = false) :
    s.Kept (s.writeW who ⟨.mem a, ord, false⟩ be w) ∧ (s.writeW who ⟨.mem a, ord, false⟩ be w).mem = s.mem.setWord a be w := by
  have ht := State.Aside.touch s who a .modified hi
  obtain ⟨ho, hom⟩ := State.Kept.oldLines (s := s.touch who (.mem a) .modified) who.core (.mem a)
  obtain ⟨g, hg⟩ := State.lagWrite_withLags (who := who) (⟨.mem a, ord, false⟩ : Place)
    (s := if who.core.isNone then (s.touch who (.mem a) .modified).lineClean (.mem a)
      else (s.touch who (.mem a) .modified).noteOld who.core (.mem a))
  have hk : s.Kept (State.withLags (if who.core.isNone then (s.touch who (.mem a) .modified).lineClean (.mem a)
      else (s.touch who (.mem a) .modified).noteOld who.core (.mem a)) g) := (ht.toKept.trans ho).trans (.same rfl)
  have he : s.writeW who ⟨.mem a, ord, false⟩ be w
      = (State.withLags (if who.core.isNone then (s.touch who (.mem a) .modified).lineClean (.mem a)
        else (s.touch who (.mem a) .modified).noteOld who.core (.mem a)) g).putW (.mem a) be w := by
    unfold State.writeW
    simp only [regAt, Option.isSome_none, Bool.false_eq_true, if_false]
    unfold State.writeHC
    simp only [State.ownImage_none hi]
    rw [hg]
  rw [he]
  unfold State.putW
  simp only [hk.imageAt, hi, hk.retiredLine, hr, Bool.false_eq_true, if_false]
  refine ⟨hk.trans (.same rfl), ?_⟩
  exact congrArg (fun m : Mem => m.setWord a be w) (hom.trans ht.mem)

theorem State.Kept.pairLags (l : Loc) :
    s.Kept (s.pairLags l) ∧ (s.pairLags l).mem = s.mem ∧ (s.pairLags l).smCopies = s.smCopies := by
  unfold State.pairLags
  split
  · exact ⟨.refl, rfl, rfl⟩
  · exact ⟨.same rfl, rfl, rfl⟩

/-- A store to hardware-coherent memory writes its bytes. -/
theorem State.writeBytes_mem (hi : s.imageAt (pa / 4 * 4) = none) (hi4 : s.imageAt (pa / 4 * 4 + 4) = none)
    (hr : s.retiredLine (pa / 4 * 4) = false) (hr4 : n = 8 → s.retiredLine (pa / 4 * 4 + 4) = false) :
    s.Kept (s.writeBytes who x n ⟨.mem pa, ord, false⟩ d)
      ∧ (s.writeBytes who x n ⟨.mem pa, ord, false⟩ d).mem = s.mem.putBytes (pa / 4 * 4) (x.toNat % 4) n d := by
  unfold State.writeBytes Mem.putBytes
  simp only [Loc.align, regAt, placeAdd, Loc.add]
  split
  · next h8 =>
    obtain ⟨k0, m0⟩ := State.writeW_mem (who := who) (ord := ord) (be := 15) (w := ⟨loW d, false⟩) hi hr
    obtain ⟨k4, m4⟩ := State.writeW_mem (who := who) (ord := ord) (be := 15) (w := ⟨hiW d, false⟩) ((k0.imageAt _).trans hi4)
      ((k0.retiredLine _).trans (hr4 h8))
    obtain ⟨kp, mp, _⟩ := State.Kept.pairLags (s := ((s.writeW who ⟨.mem (pa / 4 * 4), ord, false⟩ 15 ⟨loW d, false⟩).writeW who
      ⟨.mem (pa / 4 * 4 + 4), ord, false⟩ 15 ⟨hiW d, false⟩)) (.mem (pa / 4 * 4))
    exact ⟨(k0.trans k4).trans kp, by rw [mp, m4, m0]⟩
  · next h8 =>
    have he : enables x n 0 = (2 ^ n - 1) * 2 ^ (x.toNat % 4) := by
      unfold enables
      rw [if_neg h8, if_pos rfl]
    rw [he]
    exact State.writeW_mem hi hr

end

/-! ### A store to a software-managed line (R166, R394) -/

/-- What a copy holds. -/
def SmCopy.mem (c : SmCopy) : Mem := ⟨c.bytes, c.marks⟩

/-- A copy with a word written, the bytes dirty. -/
def SmCopy.put (c : SmCopy) (o be : ℕ) (w : MWord) : SmCopy :=
  { c with
    bytes := (c.mem.setWord o be w).cells
    marks := (c.mem.setWord o be w).marks
    dirty := ((List.range 4).filter fun j => be.testBit j).foldl (fun d j => aput d (o + j) ()) c.dirty }

/-- The copy that a cluster writes to: the one it holds, or a fresh one. -/
def State.copyAt (s : State) (clu : ℕ) (l : Loc) : SmCopy := (s.smCopy clu l).getD (s.fillCopy clu l)

section
variable {s t : State} {who : Who} {a n be pa k clu j : ℕ} {ord : BitVec 2} {w : MWord} {x d : Dword} {c : SmCopy} {l : Loc}

theorem State.copyAt_key : (s.copyAt clu l).clu = clu ∧ (s.copyAt clu l).loc = l.align lineBytes := by
  unfold State.copyAt
  cases h : s.smCopy clu l with
  | none => exact ⟨rfl, rfl⟩
  | some c =>
    have hc := List.find?_some h
    simpa using hc

theorem State.smCopy_putCopy (h1 : c.clu = clu) (h2 : c.loc = l.align lineBytes) : (s.putCopy c).smCopy clu l = some c := by
  unfold State.putCopy State.smCopy
  rw [List.find?_cons_of_pos]
  simp [h1, h2]

/-- Places entered in a set one after the other. -/
theorem aget_foldl_aput (o : ℕ) (is : List ℕ) (d : List (ℕ × Unit)) :
    aget (is.foldl (fun d i => aput d (o + i) ()) d) j = some () ↔ (∃ i ∈ is, j = o + i) ∨ aget d j = some () := by
  induction is generalizing d with
  | nil => simp
  | cons i is ih =>
    rw [List.foldl_cons, ih]
    by_cases hj : j = o + i
    · subst hj
      simp [aget_aput_same]
    · rw [aget_aput_other _ _ _ _ hj]
      simp [hj]

/-- The dirty bytes of a copy after a word is written: those written, and those that were. -/
theorem SmCopy.dirty_put (o : ℕ) : aget (c.put o be w).dirty j = some ()
    ↔ (∃ i, i < 4 ∧ be.testBit i = true ∧ j = o + i) ∨ aget c.dirty j = some () := by
  unfold SmCopy.put
  dsimp only
  rw [aget_foldl_aput]
  simp [and_assoc]

/-- A core writes a word of a software-managed line in its cluster's copy. -/
theorem State.writeW_copy (hk : who.core = some k) :
    s.writeW who ⟨.mem a, ord, true⟩ be w = s.putCopy ((s.copyAt (k / 128) (.mem a)).put (a % lineBytes) be w) := by
  unfold State.writeW
  simp only [regAt, Option.isSome_none, Bool.false_eq_true, if_false]
  rw [hk]
  rfl

theorem State.Kept.putCopy (c : SmCopy) : s.Kept (s.putCopy c) := .same rfl

theorem Loc.align_word (h : a / lineBytes = pa / lineBytes) : (Loc.mem a).align lineBytes = (Loc.mem pa).align lineBytes := by
  simp only [Loc.align, h]

/-- Of an access of `n` bytes at an address of a software-managed line, the bytes are in the copy of the cluster, dirty, and memory
is as it was. -/
structure State.CopyTakes (s t : State) (clu pa o n : ℕ) (d : Dword) (c : SmCopy) : Prop where
  held : t.smCopy clu (.mem pa) = some c
  kept : s.Kept t
  mem : t.mem = s.mem
  bytes : ∃ m : Mem, c.mem = m.putBytes (pa / 4 * 4 % lineBytes) o n d
  dirty : ∀ j, j < n → aget c.dirty (pa % lineBytes + j) = some ()

/-- A store of fewer than 8 bytes: one word of the copy. -/
theorem State.writeBytes_copy_narrow (hk : who.core = some k) (hn : n = 1 ∨ n = 2 ∨ n = 4) (ho : x.toNat % 4 + n ≤ 4)
    (hm : pa % 4 = x.toNat % 4) :
    ∃ c, s.CopyTakes (s.writeBytes who x n ⟨.mem pa, ord, true⟩ d) (k / 128) pa (x.toNat % 4) n d c := by
  have hline : pa / 4 * 4 / lineBytes = pa / lineBytes := by
    unfold lineBytes
    omega
  have hoff : pa % lineBytes = pa / 4 * 4 % lineBytes + x.toNat % 4 := by
    unfold lineBytes
    omega
  have hkey := s.copyAt_key (clu := k / 128) (l := .mem (pa / 4 * 4))
  rw [Loc.align_word hline] at hkey
  have he : enables x n 0 = (2 ^ n - 1) * 2 ^ (x.toNat % 4) := by
    unfold enables
    rw [if_neg (by omega), if_pos rfl]
  unfold State.writeBytes
  simp only [Loc.align, State.writeW_copy hk]
  rw [if_neg (by omega), he]
  refine ⟨_, State.smCopy_putCopy hkey.1 hkey.2, .putCopy _, rfl, ⟨(s.copyAt (k / 128) (.mem (pa / 4 * 4))).mem, ?_⟩,
    fun j hj => ?_⟩
  · unfold Mem.putBytes
    rw [if_neg (by omega)]
    rfl
  · rw [SmCopy.dirty_put, hoff]
    exact .inl ⟨x.toNat % 4 + j, by omega, (testBit_enables _ _ hn ho _ (by omega)).2 (by omega), by omega⟩

/-- A store of a doubleword: two words, the second in the copy that the first left. -/
theorem State.writeBytes_copy_wide (hk : who.core = some k) (hm : pa % 8 = 0) :
    ∃ c, s.CopyTakes (s.writeBytes who x 8 ⟨.mem pa, ord, true⟩ d) (k / 128) pa 0 8 d c := by
  have hpa : pa / 4 * 4 = pa := by omega
  have hline : (pa + 4) / lineBytes = pa / lineBytes := by
    unfold lineBytes
    omega
  have hoff : (pa + 4) % lineBytes = pa % lineBytes + 4 := by
    unfold lineBytes
    omega
  have h15 : ∀ i < 4, Nat.testBit 15 i = true := by decide
  unfold State.writeBytes
  simp only [Loc.align, regAt, placeAdd, Loc.add, State.writeW_copy hk, if_true, hpa]
  have hkey := s.copyAt_key (clu := k / 128) (l := .mem pa)
  generalize hc : (s.copyAt (k / 128) (.mem pa)).put (pa % lineBytes) 15 ⟨loW d, false⟩ = c
  have hkey4 : c.clu = k / 128 ∧ c.loc = (Loc.mem pa).align lineBytes := by
    rw [← hc]
    exact hkey
  have hat : (s.putCopy c).copyAt (k / 128) (.mem (pa + 4)) = c := by
    unfold State.copyAt
    rw [State.smCopy_putCopy hkey4.1 (hkey4.2.trans (Loc.align_word hline).symm)]
    rfl
  rw [hat]
  obtain ⟨kp, mp, cp⟩ := State.Kept.pairLags (s := (s.putCopy c).putCopy (c.put ((pa + 4) % lineBytes) 15 ⟨hiW d, false⟩)) (.mem pa)
  refine ⟨c.put ((pa + 4) % lineBytes) 15 ⟨hiW d, false⟩, ?_, (State.Kept.putCopy _).trans ((State.Kept.putCopy _).trans kp), mp,
    ⟨(s.copyAt (k / 128) (.mem pa)).mem, ?_⟩, fun j hj => ?_⟩
  · unfold State.smCopy
    rw [cp]
    exact State.smCopy_putCopy hkey4.1 hkey4.2
  · rw [← hc, hoff, hpa]
    rfl
  · rw [SmCopy.dirty_put, ← hc, SmCopy.dirty_put, hoff]
    by_cases hlo : j < 4
    · exact .inr (.inl ⟨j, hlo, h15 _ hlo, rfl⟩)
    · exact .inl ⟨j - 4, by omega, h15 _ (by omega), by omega⟩

/-- A store to a software-managed line writes its bytes in the copy of the cluster, where they are dirty, and memory stays. -/
theorem State.writeBytes_copy (hk : who.core = some k) (hf : Fits n (x.toNat % 4)) (hm : pa % 4 = x.toNat % 4)
    (h8 : n = 8 → pa % 8 = 0) :
    ∃ c, s.CopyTakes (s.writeBytes who x n ⟨.mem pa, ord, true⟩ d) (k / 128) pa (x.toNat % 4) n d c := by
  rcases hf with ⟨rfl, ho⟩ | ⟨hn, ho⟩
  · rw [ho]
    exact State.writeBytes_copy_wide hk (h8 rfl)
  · exact State.writeBytes_copy_narrow hk hn ho hm

end

/-! ### A store to a device register (R379, R382) -/

/-- A function of the state that goes by the register file and what stands beside it: strands and blocks stay as they are, and
writes that not every lane has seen do not matter. -/
structure State.Filed (f : State → State) : Prop where
  strands : ∀ s, (f s).strands = s.strands
  blocks : ∀ s, (f s).blocks = s.blocks
  lags : ∀ (s : State) g, f (s.withLags g) = (f s).withLags g

section
variable {f f' : State → State} {who : Agent} {v : Dword} {i k : ℕ} {q : RegId}

theorem State.Filed.id : State.Filed fun s => s := ⟨fun _ => rfl, fun _ => rfl, fun _ _ => rfl⟩

theorem State.Filed.comp (h : State.Filed f) (h' : State.Filed f') : State.Filed fun s => f' (f s) :=
  ⟨fun s => (h'.strands _).trans (h.strands s), fun s => (h'.blocks _).trans (h.blocks s), fun s g => by rw [h.lags, h'.lags]⟩

theorem State.Filed.ite {c : State → Prop} [∀ s, Decidable (c s)] (hc : ∀ (s : State) g, c (s.withLags g) ↔ c s) (h : State.Filed f)
    (h' : State.Filed f') : State.Filed fun s => if c s then f s else f' s := by
  refine ⟨fun s => ?_, fun s => ?_, fun s g => ?_⟩
  · split
    · exact h.strands s
    · exact h'.strands s
  · split
    · exact h.blocks s
    · exact h'.blocks s
  · by_cases hs : c s
    · simp only [if_pos hs, if_pos ((hc s g).2 hs), h.lags]
    · simp only [if_neg hs, if_neg (fun hx => hs ((hc s g).1 hx)), h'.lags]

theorem State.reg_withLags (s : State) (g : List Lag) (q : RegId) : (s.withLags g).reg q = s.reg q := rfl

theorem State.regF_withLags (s : State) (g : List Lag) (q : RegId) (lo len : ℕ) :
    (s.withLags g).regF q lo len = s.regF q lo len := rfl

theorem State.setReg_withLags (s : State) (g : List Lag) (q : RegId) (v : Dword) :
    (s.withLags g).setReg q v = (s.setReg q v).withLags g := rfl

theorem State.setRegF_withLags (s : State) (g : List Lag) (q : RegId) (lo len n : ℕ) :
    (s.withLags g).setRegF q lo len n = (s.setRegF q lo len n).withLags g := rfl

theorem State.fqSize_withLags (s : State) (g : List Lag) : (s.withLags g).fqSize = s.fqSize := rfl

/-- A field of a register takes a value that the register file gives. -/
theorem State.Filed.setRegF (q : RegId) (lo len : ℕ) (n : State → ℕ) (hn : ∀ (s : State) g, n (s.withLags g) = n s) :
    State.Filed fun s => s.setRegF q lo len (n s) :=
  ⟨fun _ => rfl, fun _ => rfl, fun s g => by rw [hn, State.setRegF_withLags]⟩

theorem State.Filed.regPut (q : RegId) (v : Dword) : State.Filed fun s => s.regPut q v :=
  ⟨fun _ => rfl, fun _ => rfl, fun _ _ => rfl⟩

theorem State.Filed.bump (q : RegId) (lo len : ℕ) : State.Filed fun s => s.bump q lo len :=
  ⟨fun _ => rfl, fun _ => rfl, fun _ _ => rfl⟩

/-- A division of a core that is due at its next reset. -/
theorem State.Filed.pendStore (q : RegId) (lo len n : ℕ) (d : Dword) :
    State.Filed fun s => { s.setRegF q lo len n with pendStore := aput s.pendStore k d } :=
  ⟨fun _ => rfl, fun _ => rfl, fun _ _ => rfl⟩

theorem State.Filed.writeCStore : State.Filed fun s => s.writeCStore who k v :=
  .ite (fun _ _ => .rfl) .id (.pendStore _ _ _ _ _)

theorem State.Filed.writeCResv : State.Filed fun s => s.writeCResv who k v := .ite (fun _ _ => .rfl) .id (.regPut _ _)

theorem State.Filed.writePart : State.Filed fun s => s.writePart who i v :=
  .ite (fun _ _ => .rfl) .id (.ite (fun _ _ => .rfl) (.ite (fun _ _ => .rfl) .id (.regPut _ _))
    (.ite (fun _ _ => .rfl) (.ite (fun _ _ => .rfl) .id (.regPut _ _)) (.ite (fun _ _ => .rfl) .id (.regPut _ _))))

theorem State.Filed.writeLqcfg : State.Filed fun s => s.writeLqcfg who k v := .ite (fun _ _ => .rfl) .id (.regPut _ _)

theorem State.Filed.writeJournal : State.Filed fun s => s.writeJournal i v :=
  .ite (fun _ _ => .rfl) .id (.ite (fun _ _ => .rfl) .id (.regPut _ _))

theorem State.Filed.writeErrLog : State.Filed fun s => s.writeErrLog i v := by
  have hh : State.Filed fun s => (s.setRegF rELTAIL 0 32 (s.regF rELTAIL 0 32 % 2 ^ s.regF rELBASE 0 5)).setRegF rELHEAD 0 32
      (s.regF rELHEAD 0 32 % 2 ^ s.regF rELBASE 0 5) :=
    ⟨fun _ => rfl, fun _ => rfl, fun s g => by simp only [State.regF_withLags, State.setRegF_withLags]⟩
  exact .ite (fun _ _ => .rfl) .id (.comp (.regPut (.device i) v) (.ite (c := fun _ => i = 0x54) (fun _ _ => .rfl) hh .id))

theorem State.Filed.writeOverflow : State.Filed fun s => s.writeOverflow i v :=
  .ite (fun _ _ => .rfl) .id ⟨fun _ => rfl, fun _ => rfl, fun _ _ => rfl⟩

theorem State.Filed.writeTsrc : State.Filed fun s => s.writeTsrc v := .ite (fun _ _ => .rfl) .id (.regPut _ _)

theorem State.Filed.writeProfile : State.Filed fun s => s.writeProfile k i v :=
  .ite (fun _ _ => .rfl) .id (.ite (fun _ _ => .rfl) .id (.comp (.regPut (.core k i) v)
    (.ite (c := fun _ => i = 0x29) (fun _ _ => .rfl)
      (.setRegF (rPRFTAIL k) 0 32 (fun s => s.regF (rPRFTAIL k) 0 32 % 2 ^ s.regF (rPRFBASE k) 0 5) fun _ _ => rfl) .id)))

theorem State.Filed.writeFqSize : State.Filed fun s => s.writeFqSize v := by
  have hh : State.Filed fun s => (s.regPut rFQSIZE v).writeFqHead (s.reg rFQHEAD) :=
    ⟨fun _ => rfl, fun _ => rfl, fun s g => by
      simp only [State.writeFqHead, State.regPut, State.reg_withLags, State.setReg_withLags, State.fqSize_withLags]⟩
  have ht : State.Filed fun s => (s.setRegF rFQTAIL 0 32 (s.regF rFQTAIL 0 32 % s.fqSize)).setReg rFQLOST
      (BitVec.ofNat 64 ((s.reg rFQLOST).toNat % s.fqSize)) :=
    ⟨fun _ => rfl, fun _ => rfl, fun s g => by
      simp only [State.reg_withLags, State.regF_withLags, State.setRegF_withLags, State.setReg_withLags, State.fqSize_withLags]⟩
  exact .ite (fun _ _ => .rfl) .id (.comp hh ht)

theorem State.Filed.writeCrtab : State.Filed fun s => s.writeCrtab who v :=
  .ite (fun _ _ => .rfl) ⟨fun _ => rfl, fun _ => rfl, fun _ _ => rfl⟩ .id

/-- Writes of registers but DEVHEAD, whose write moves debug events. -/
theorem State.Filed.regWrite (hq : q ≠ rDEVHEAD) : State.Filed fun s => s.regWrite who q v := by
  cases q with
  | core k i =>
    exact .ite (fun _ _ => .rfl) .writeCStore
      (.ite (fun _ _ => .rfl) .writeCResv (.ite (fun _ _ => .rfl) .writeProfile (.regPut _ _)))
  | cluster c i => exact .regPut _ _
  | device i =>
    have hi : i ≠ 0x5E := fun h => hq (congrArg RegId.device h)
    refine .ite (fun _ _ => .rfl) .writeFqSize (.ite (fun _ _ => .rfl) ?_ (.ite (fun _ _ => .rfl) .writePart
      (.ite (fun _ _ => .rfl) ?_ (.ite (fun _ _ => .rfl) .writeOverflow (.ite (fun _ _ => .rfl) .writeCrtab
        (.ite (fun _ _ => .rfl) .writeTsrc (.ite (fun _ _ => .rfl) .writeJournal (.ite (fun _ _ => .rfl) .writeErrLog
          (.ite (fun _ _ => .rfl) ?_ ?_)))))))))
    · exact ⟨fun _ => rfl, fun _ => rfl, fun _ _ => rfl⟩
    · exact ⟨fun _ => rfl, fun _ => rfl, fun _ _ => rfl⟩
    · exact ⟨fun _ => rfl, fun _ => rfl, fun _ _ => rfl⟩
    · simp only [if_neg hi]
      exact .ite (fun _ _ => .rfl) .writeLqcfg (.ite (fun _ _ => .rfl) (.bump _ _ _) (.regPut _ _))

end

/-- A write anywhere in memory: of the registers only counters of unconsumed poison may differ, and no strand executes another
packet. -/
structure State.Written (s t : State) : Prop where
  clasp : ∀ o, (t.strand o).clasp = (s.strand o).clasp
  regs : ∀ k, ¬(0x22 ≤ k % 0x1000 ∧ k % 0x1000 ≤ 0x25) → aget t.regs k = aget s.regs k

section
variable {s t u : State} {k sid i be : ℕ} {w : MWord} {l : Loc}

theorem State.Written.refl : s.Written s := ⟨fun _ => rfl, fun _ _ => rfl⟩

theorem State.Written.trans (h : s.Written t) (h' : t.Written u) : s.Written u :=
  ⟨fun o => (h'.clasp o).trans (h.clasp o), fun k hk => (h'.regs k hk).trans (h.regs k hk)⟩

theorem State.Written.same (h : (t.strands, t.regs) = (s.strands, s.regs)) : s.Written t := by
  simp only [Prod.mk.injEq] at h
  obtain ⟨h1, h2⟩ := h
  exact ⟨fun o => by unfold State.strand; rw [h1], fun _ _ => by rw [h2]⟩

theorem State.Written.fold {α : Type} {f : State → α → State} (hf : ∀ (s : State) x, s.Written (f s x)) (xs : List α) (s : State) :
    s.Written (xs.foldl f s) := by
  induction xs generalizing s with
  | nil => exact .refl
  | cons x xs ih => exact (hf s x).trans (ih _)

/-- There are four counters (R446). -/
theorem upCounter_le {c n : ℕ} (h : upCounter c = some n) : n ≤ 3 := by
  unfold upCounter at h
  split at h
  · cases h
    decide
  · split at h
    · cases h
      decide
    · split at h
      · cases h
        decide
      · split at h
        · cases h
          decide
        · cases h

theorem State.Written.countUp (c : BitVec 8) : s.Written (s.countUp k c) := by
  unfold State.countUp
  split
  · exact .refl
  · next n hn =>
    have hle := upCounter_le hn
    refine ⟨fun _ => rfl, fun j hj => aget_aputD_other _ _ _ _ _ ?_⟩
    simp only [regKey]
    omega

theorem State.Written.countDying (ws : List ImgWord) : s.Written (s.countDying k ws) := .fold (fun _ _ => .countUp _) _ _

theorem State.Written.modStrand (f : Strand → Strand) (hf : ∀ st : Strand, (f st).clasp = st.clasp) :
    s.Written (s.modStrand sid f) :=
  ⟨(State.Within.modStrand f hf).clasp, fun _ _ => rfl⟩

theorem State.Written.putImage : s.Written (s.putImage sid i be w) := by
  unfold State.putImage
  dsimp only
  split
  · exact .refl
  · exact (State.Written.countDying _).trans (.modStrand _ fun _ => rfl)

theorem State.Written.putSpad : s.Written (s.putSpad k i be w) := by
  have hd : s.Written (s.dyingSpad k i) := by
    unfold State.dyingSpad
    dsimp only
    split
    · exact .countUp _
    · exact .refl
  unfold State.putSpad
  split
  · exact .refl
  · exact hd.trans (.same rfl)

theorem State.Written.putW : s.Written (s.putW l be w) := by
  unfold State.putW
  split
  · split
    · exact .putImage
    · split
      · unfold State.putRetired
        dsimp only
        split
        · exact .refl
        · exact .same rfl
      · exact .same rfl
  · exact .same rfl
  · exact .same rfl
  · exact .putSpad
  · split
    · split
      · exact .putImage
      · exact .refl
    · split
      · exact .putSpad
      · exact .refl
  · exact .refl
  · exact .refl

theorem State.Written.putDwords (pa : ℕ) (ds : List Dword) : s.Written (s.putDwords pa ds) := by
  refine .fold (fun t d => ?_) _ _
  split
  · exact State.Written.putW.trans .putW
  · exact .refl

end

section
variable {s t u : State} {sid : ℕ} {q : RegId}

theorem regKey_core (k i : ℕ) : regKey (.core k i) = k * 0x1000 + i := rfl

theorem State.reg_setRegF_other {r : RegId} (s : State) (lo len n : ℕ) (h : regKey q ≠ regKey r) :
    (s.setRegF r lo len n).reg q = s.reg q := State.reg_setReg_other _ _ _ _ h

/-- A register that neither a write of memory nor the profiler changes. -/
def stillReg (q : RegId) : Prop :=
  ¬(0x22 ≤ regKey q % 0x1000 ∧ regKey q % 0x1000 ≤ 0x25) ∧ regKey q % 0x1000 ≠ 0x2A ∧ regKey q % 0x1000 ≠ 0x2C

theorem State.Written.reg (h : s.Written t) (hq : ¬(0x22 ≤ regKey q % 0x1000 ∧ regKey q % 0x1000 ≤ 0x25)) : t.reg q = s.reg q := by
  unfold State.reg
  rw [h.regs _ hq]

/-- A sample writes no other register. -/
theorem State.reg_sample (hq : stillReg q) (r : LaneReq) (l : Loc) (packet : Bool) : (s.sample sid r l packet).reg q = s.reg q := by
  obtain ⟨h1, h2, h3⟩ := hq
  have ht : regKey q ≠ regKey (rPRFTAIL (s.coreOf sid)) := by
    rw [rPRFTAIL, regKey_core]
    omega
  have hl : regKey q ≠ regKey (rPRFLOST (s.coreOf sid)) := by
    rw [rPRFLOST, regKey_core]
    omega
  unfold State.sample
  dsimp only
  split
  · rfl
  · split
    · rfl
    · unfold State.profile
      dsimp only
      split
      · exact State.reg_setRegF_other _ _ _ _ hl
      · refine (State.reg_setRegF_other _ _ _ _ ht).trans ?_
        exact (State.Written.putDwords _ _).reg h1

theorem State.clasp_sample (r : LaneReq) (l : Loc) (packet : Bool) (o : ℕ) :
    ((s.sample sid r l packet).strand o).clasp = (s.strand o).clasp := by
  unfold State.sample
  dsimp only
  split
  · rfl
  · split
    · rfl
    · unfold State.profile
      dsimp only
      split
      · rfl
      · exact (State.Written.putDwords (s := { s with prfCount := _ }) _ _).clasp o

/-- DEVHEAD is as it was, and no strand executes another packet. -/
structure State.HeadKept (s t : State) : Prop where
  head : t.reg rDEVHEAD = s.reg rDEVHEAD
  clasp : ∀ o, (t.strand o).clasp = (s.strand o).clasp

theorem State.HeadKept.trans (h : s.HeadKept t) (h' : t.HeadKept u) : s.HeadKept u :=
  ⟨h'.head.trans h.head, fun o => (h'.clasp o).trans (h.clasp o)⟩

theorem State.HeadKept.dbgBuf (b : List (List Dword)) : s.HeadKept { s with dbgBuf := b } := ⟨rfl, fun _ => rfl⟩

/-- A debug event goes to the ring, and the tail goes on. -/
theorem State.HeadKept.dbgWrite (e : List Dword) : s.HeadKept (s.dbgWrite e) := by
  unfold State.dbgWrite
  dsimp only
  have hw := fun pa => State.Written.putDwords (s := s) pa e
  exact ⟨(State.reg_setRegF_other _ _ _ _ (by decide)).trans ((hw _).reg (by decide)), (hw _).clasp⟩

/-- Debug events that move in leave DEVHEAD as it was written. -/
theorem State.HeadKept.dbgDrain : s.HeadKept s.dbgDrain := by
  have hall : ∀ (es : List (List Dword)) (t : State), s.HeadKept t →
      s.HeadKept (es.foldl (fun t e => if t.dbgFull then t else { t.dbgWrite e with dbgBuf := t.dbgBuf.drop 1 }) t) := by
    intro es
    induction es with
    | nil => exact fun _ h => h
    | cons e es ih =>
      intro t h
      rw [List.foldl_cons]
      by_cases hf : t.dbgFull = true
      · rw [if_pos hf]
        exact ih _ h
      · rw [if_neg hf]
        exact ih _ (h.trans ((State.HeadKept.dbgWrite e).trans (.dbgBuf _)))
  exact hall _ s ⟨rfl, fun _ => rfl⟩

end

section
variable {s t : State} {sid k i c : ℕ} {who : Agent} {q : RegId} {v : Dword}

/-- A register beyond those of the cores. -/
theorem State.Kept.setHigh (h : 0x1000000 ≤ regKey q) : s.Kept (s.setReg q v) :=
  ⟨rfl, rfl, rfl, fun k hk => aget_aputD_other _ _ _ _ _ (by omega)⟩

/-- A register of a core other than its PRFCFG. -/
theorem State.Unsampled.setCore (hu : s.Unsampled sid) (hi : i % 0x1000 ≠ 0x28) : (s.setReg (.core k i) v).Unsampled sid := by
  have hk : ∀ c, (s.setReg (.core k i) v).reg (rPRFCFG c) = s.reg (rPRFCFG c) := fun c => by
    refine State.reg_setReg_other _ _ _ _ ?_
    rw [rPRFCFG, regKey_core, regKey_core]
    omega
  intro hc
  unfold State.regF
  rw [hk]
  exact hu hc

theorem State.Unsampled.ite {p : Prop} [Decidable p] (h : s.Unsampled sid) (h' : t.Unsampled sid) :
    (if p then s else t).Unsampled sid := by
  split
  · exact h
  · exact h'

theorem regKey_device (i : ℕ) : regKey (.device i) = 0x2000000 + i := rfl

theorem State.Unsampled.putDevice (hu : s.Unsampled sid) : (s.regPut (.device i) v).Unsampled sid := by
  refine (State.Kept.setHigh ?_).unsampled hu
  rw [regKey_device]
  omega

/-- A register that the profiler or a counter changes turns no profiler on. -/
theorem State.Unsampled.regWrite (hu : s.Unsampled sid) (hx : regExists q = true) (hq : ¬stillReg q) :
    (s.regWrite who q v).Unsampled sid := by
  unfold stillReg at hq
  cases q with
  | core k i =>
    rw [regKey_core] at hq
    simp only [regExists, Bool.and_eq_true, List.contains_eq_mem, decide_eq_true_eq, List.mem_cons, List.not_mem_nil,
      or_false] at hx
    have hi : i ≠ 0x00 ∧ i ≠ 0x10 ∧ ¬(i = 0x28 ∨ i = 0x29) ∧ i % 0x1000 ≠ 0x28 := by omega
    obtain ⟨h1, h2, h3, h4⟩ := hi
    simp only [State.regWrite, Bool.or_eq_true, decide_eq_true_eq]
    rw [if_neg h1, if_neg h2, if_neg h3]
    exact hu.setCore h4
  | cluster c i =>
    refine (State.Kept.setHigh ?_).unsampled hu
    simp only [regKey]
    omega
  | device i =>
    rw [regKey_device] at hq
    simp only [regExists, Bool.or_eq_true, Bool.and_eq_true, decide_eq_true_eq, beq_iff_eq] at hx
    have hi : (0x22 ≤ i ∧ i ≤ 0x25) ∨ (0x1000 ≤ i ∧ i < 0x1400) := by omega
    have h3 : i ≠ 0x03 := by omega
    have h4 : i ≠ 0x04 := by omega
    simp only [State.regWrite, Bool.or_eq_true, Bool.and_eq_true, decide_eq_true_eq]
    rw [if_neg h3, if_neg h4]
    rcases hi with hi | hi
    · rw [if_pos (by omega)]
      exact .ite hu (.ite (.ite hu hu.putDevice) (.ite (.ite hu hu.putDevice) (.ite hu hu.putDevice)))
    · rw [if_neg (by omega), if_neg (by omega), if_neg (by omega), if_neg (by omega), if_neg (by omega), if_neg (by omega),
        if_neg (by omega), if_neg (by omega), if_neg (by omega), if_neg (by omega), if_pos (by omega)]
      refine (State.Kept.setHigh ?_).unsampled hu
      rw [rLQCFG, regKey_device]
      omega

/-- Who reads what the write leaves: the value that the write itself gave, or a counter's and a tail's. -/
theorem State.regWrite_clasp (o : ℕ) : ((s.regWrite who q v).strand o).clasp = (s.strand o).clasp := by
  by_cases hq : q = rDEVHEAD
  · subst hq
    exact (State.HeadKept.dbgDrain (s := s.regPut rDEVHEAD v)).clasp o
  · unfold State.strand
    rw [(State.Filed.regWrite hq).strands]

/-- What a register holds after its write does not depend on the writes that not every lane has seen. -/
theorem State.regWrite_withLags (g : List Lag) : ((s.withLags g).regWrite who q v).reg q = (s.regWrite who q v).reg q := by
  by_cases hq : q = rDEVHEAD
  · subst hq
    exact (State.HeadKept.dbgDrain (s := (s.withLags g).regPut rDEVHEAD v)).head.trans
      (State.HeadKept.dbgDrain (s := s.regPut rDEVHEAD v)).head.symm
  · rw [(State.Filed.regWrite hq).lags]
    rfl

end

/-! ### STS -/

section
variable {s u v t w : State} {r : Row} {h : Hdr} {b : MemBody} {cx : Cx} {a x : Dword} {p : Place} {sid : ℕ} {q : LaneReq}

/-- A store outside a region is performed at once, where its address is translated (R138). -/
theorem State.store_out {n : ℕ} {rel : Bool} {scope : BitVec 3} (ha : a.toNat % n = 0)
    (ht : s.translate (s.whoOf sid) .write a = (v, .ok p)) (hdr : v.drainAt sid p.loc = v)
    (hro : (v.strand sid).regionOpen = false) (hc : (v.strand sid).clasp = none) (hp : p.loc.remote = false) :
    s.store sid q a n x rel scope true = ((v.writeBytes (v.whoLane sid q.lane) a n p x).sample sid q p.loc false, .done) := by
  have hcl : ∀ l, (v.strand sid).onClaspLine l = false := fun l => by
    unfold Strand.onClaspLine
    rw [hc]
  have hgo : goesOut (v.whoLane sid q.lane) p = false := by
    unfold goesOut
    rw [hp]
    rfl
  unfold State.store State.writeOut
  simp only [ha, bne_self_eq_false, Bool.false_eq_true, if_false, ht, hdr, hro, hcl, Bool.not_false, Bool.and_self, if_true, hgo]

/-- Where STS stores: the state and the place of its translation, in which a release has shown the fragment's earlier stores. -/
theorem sts_translate (ht : (atEffect r s cx).translate ((atEffect r s cx).whoOf cx.sid) .write a = (v, .ok p)) :
    ∃ g, (stsStart r b s cx).translate ((stsStart r b s cx).whoOf cx.sid) .write a = (v.withLags g, .ok p) := by
  have hg : ∃ g, stsStart r b s cx = (atEffect r s cx).withLags g := by
    unfold stsStart
    split
    · exact State.showLanes_withLags _ _ _
    · exact ⟨(atEffect r s cx).lags, rfl⟩
  obtain ⟨g, hg⟩ := hg
  have hw : ((atEffect r s cx).withLags g).whoOf cx.sid = (atEffect r s cx).whoOf cx.sid := rfl
  refine ⟨g, ?_⟩
  rw [hg, hw, State.translate_withLags, ht]

/-- On behalf of a strand that is no routine's: its context and its core. -/
theorem State.whoLane_core (hc : (v.strand sid).clasp = none) (l : ℕ) :
    (v.whoLane sid l).core = some (v.coreOf sid) ∧ (v.whoLane sid l).ctx = (v.strand sid).ctx := by
  unfold State.whoLane State.whoOf
  dsimp only
  rw [hc]
  exact ⟨rfl, rfl⟩

theorem memSize_wide : b.size = 3 ↔ memSize b = 8 := by
  obtain ⟨h3, h8⟩ | ⟨h3, hn⟩ := memSize_cases b
  · exact ⟨fun _ => h8, fun _ => h3⟩
  · exact ⟨fun h => absurd h h3, fun h => by omega⟩

/-- An aligned access of a form is a doubleword, or lies within a word. -/
theorem memSize_fits (ha : a.toNat % memSize b = 0) : Fits (memSize b) (a.toNat % 4) := by
  unfold Fits
  obtain ⟨_, h8⟩ | ⟨_, hn⟩ := memSize_cases b
  · rw [h8] at ha ⊢
    omega
  · refine .inr ⟨hn, ?_⟩
    rcases hn with hn | hn | hn <;> rw [hn] at ha ⊢ <;> omega

/-- What every store of STS outside a region goes by. -/
structure StsStore (r : Row) (h : Hdr) (b : MemBody) (s : State) (cx : Cx) (a x : Dword) (v : State) (p : Place) : Prop where
  row : storeRows (.sts h b) = some r
  ready : r.Ready (.sts h b) s cx
  plain : ordinary s cx.sid
  goes : goesOn cx
  quiet : unprofiled s cx.sid
  closed : ((atEffect r s cx).strand cx.sid).regionOpen = false
  addr : cx.src.ea cx.sid cx.once b false = .ok a
  aligned : a.toNat % memSize b = 0
  data : cx.datum b cx.once = .ok [x]
  place : (atEffect r s cx).translate ((atEffect r s cx).whoOf cx.sid) .write a = (v, .ok p)

theorem atEffect_noted (r : Row) (s : State) (cx : Cx) : s.Noted (atEffect r s cx) := State.Noted.used _ _ _ _

theorem StsStore.aside (hs : StsStore r h b s cx a x v p) : (atEffect r s cx).Aside v := by
  have h := State.Aside.translate (atEffect r s cx) ((atEffect r s cx).whoOf cx.sid) .write a
  rwa [hs.place] at h

theorem StsStore.clasp (hs : StsStore r h b s cx a x v p) : (v.strand cx.sid).clasp = none := by
  rw [hs.aside.strand, (atEffect_noted r s cx).strand]
  exact hs.plain

theorem StsStore.coreOf (hs : StsStore r h b s cx a x v p) : v.coreOf cx.sid = s.coreOf cx.sid :=
  (hs.aside.coreOf _).trans ((atEffect_noted r s cx).coreOf _)

theorem StsStore.ctx (hs : StsStore r h b s cx a x v p) : (v.strand cx.sid).ctx = (s.strand cx.sid).ctx := by
  rw [hs.aside.strand, (atEffect_noted r s cx).strand]

theorem StsStore.mem (hs : StsStore r h b s cx a x v p) : v.mem = s.mem := by
  rw [hs.aside.mem, (atEffect_noted r s cx).rest]

theorem StsStore.unsampled (hs : StsStore r h b s cx a x v p) (g : List Lag) : (v.withLags g).Unsampled cx.sid :=
  hs.aside.unsampled ((atEffect_noted r s cx).unsampled (State.unsampled_of_unprofiled hs.quiet))

/-- From the store to what STS leaves: the bytes are written in the state that the translation left, but for what lanes have
seen. -/
theorem StsStore.leaves (hs : StsStore r h b s cx a x v p) (hdr : ∀ g, (v.withLags g).drainAt cx.sid p.loc = v.withLags g)
    (hp : p.loc.remote = false)
    (hc : ∀ g, (((v.withLags g).writeBytes ((v.withLags g).whoLane cx.sid cx.once) a (memSize b) p x).strand cx.sid).clasp = none) :
    ∃ g w, exec (.sts h b) s = .next w
      ∧ (((v.withLags g).writeBytes ((v.withLags g).whoLane cx.sid cx.once) a (memSize b) p x).sample cx.sid
        ⟨cx.once, cx.pc, a, cx.act⟩ p.loc false).Within w := by
  obtain ⟨g, ht⟩ := sts_translate hs.place
  have hro : (v.strand cx.sid).regionOpen = false := by
    rw [hs.aside.strand]
    exact hs.closed
  have hS := State.store_out (q := ⟨cx.once, cx.pc, a, cx.act⟩) (x := x) (rel := isRel b) (scope := b.scope) hs.aligned ht
    (hdr g) hro hs.clasp hp
  exact ⟨g, sts_leaves hs.row hs.ready hs.goes hs.addr hs.data hS ((State.clasp_sample _ _ _ _).trans (hc _))⟩

/-- To hardware-coherent memory: the bytes are written, and a fragment that has gone on changes no memory. -/
theorem sts_mem {pa : ℕ} {ord : BitVec 2} (hs : StsStore r h b s cx a x v ⟨.mem pa, ord, false⟩)
    (hi : v.imageAt (pa / 4 * 4) = none) (hi4 : v.imageAt (pa / 4 * 4 + 4) = none) (hr : v.retiredLine pa = false) :
    ∃ w, exec (.sts h b) s = .next w ∧ w.mem = s.mem.putBytes (pa / 4 * 4) (a.toNat % 4) (memSize b) x := by
  have hm := State.translate_mod hs.place rfl
  have hr0 : v.retiredLine (pa / 4 * 4) = false := (State.retiredLine_line (by omega)).trans hr
  have hr4 : memSize b = 8 → v.retiredLine (pa / 4 * 4 + 4) = false := fun h8 => by
    have ha := hs.aligned
    rw [h8] at ha
    exact (State.retiredLine_line (by omega)).trans hr
  have hwb := fun g who => State.writeBytes_mem (s := v.withLags g) (who := who) (ord := ord) (x := a) (d := x) (n := memSize b)
    hi hi4 hr0 hr4
  obtain ⟨g, w, hw, hin⟩ := hs.leaves (fun g => State.drainAt_mem (s := v.withLags g) hi) rfl fun g => by
    rw [(hwb g _).1.strand]
    exact hs.clasp
  obtain ⟨hk, hmem⟩ := hwb g ((v.withLags g).whoLane cx.sid cx.once)
  rw [((hk.unsampled (hs.unsampled g)).sample)] at hin
  refine ⟨w, hw, ?_⟩
  rw [hin.rest, ← hs.mem]
  exact hmem

/-- To a software-managed line: the bytes are written in the cluster's copy, where they are dirty. -/
theorem sts_copy {pa : ℕ} {ord : BitVec 2} (hs : StsStore r h b s cx a x v ⟨.mem pa, ord, true⟩)
    (hi : v.imageAt (pa / 4 * 4) = none) :
    ∃ w c, exec (.sts h b) s = .next w ∧ w.smCopy (cluOf s cx.sid) (.mem pa) = some c ∧ w.mem = s.mem
      ∧ (∃ m : Mem, c.mem = m.putBytes (pa / 4 * 4 % lineBytes) (a.toNat % 4) (memSize b) x)
      ∧ ∀ j, j < memSize b → aget c.dirty (pa % lineBytes + j) = some () := by
  have hm := State.translate_mod hs.place rfl
  have h8 : memSize b = 8 → pa % 8 = 0 := fun h8 => by
    have ha := hs.aligned
    rw [h8] at ha
    omega
  have hwb := fun g => State.writeBytes_copy (s := v.withLags g) (ord := ord) (x := a) (d := x)
    (State.whoLane_core (v := v.withLags g) hs.clasp cx.once).1 (memSize_fits hs.aligned) (pa := pa) (by omega) h8
  obtain ⟨g, w, hw, hin⟩ := hs.leaves (fun g => State.drainAt_mem (s := v.withLags g) hi) rfl fun g => by
    obtain ⟨c, hc⟩ := hwb g
    rw [hc.kept.strand]
    exact hs.clasp
  obtain ⟨c, hc⟩ := hwb g
  have hclu : (v.withLags g).coreOf cx.sid / 128 = cluOf s cx.sid := congrArg (· / 128) hs.coreOf
  have held := hc.held
  rw [hclu] at held
  rw [((hc.kept.unsampled (hs.unsampled g)).sample)] at hin
  refine ⟨w, c, hw, ?_, ?_, hc.bytes, hc.dirty⟩
  · rw [hin.rest]
    exact held
  · rw [hin.rest, ← hs.mem]
    exact hc.mem

/-- A place of a register block is no word of memory, and lies in this device. -/
theorem regAt_loc {l : Loc} {q : RegId} (h : regAt l = some q) : (∀ (s : State) sid, s.drainAt sid l = s) ∧ l.remote = false := by
  cases l with
  | mem _ => cases h
  | host _ => cases h
  | rem _ _ => cases h
  | spad _ _ => cases h
  | core _ _ => exact ⟨fun s sid => by unfold State.drainAt; split <;> rfl, rfl⟩
  | creg _ _ => exact ⟨fun s sid => by unfold State.drainAt; split <;> rfl, rfl⟩
  | dreg _ => exact ⟨fun s sid => by unfold State.drainAt; split <;> rfl, rfl⟩

/-- To a device register: it takes the write where it may be written, and else keeps its value (R379). -/
theorem sts_reg {q : RegId} (hs : StsStore r h b s cx a x v p) (hq : regAt p.loc = some q) (h3 : b.size = 3) :
    ∃ w, exec (.sts h b) s = .next w
      ∧ w.reg q = if regExists q && !regReadOnly q then (v.regWrite (.ctx (s.strand cx.sid).ctx) q x).reg q else v.reg q := by
  have h8 : memSize b = 8 := memSize_wide.1 h3
  have hctx := fun g => (State.whoLane_core (v := v.withLags g) hs.clasp cx.once).2.trans hs.ctx
  have hwb : ∀ g, (v.withLags g).writeBytes ((v.withLags g).whoLane cx.sid cx.once) a (memSize b) p x
      = if regExists q && !regReadOnly q then (v.withLags g).regWrite (.ctx (s.strand cx.sid).ctx) q x
        else v.withLags g := fun g => by
    unfold State.writeBytes
    rw [if_pos h8, hq, ← hctx g]
  obtain ⟨g, w, hw, hin⟩ := hs.leaves (fun g => (regAt_loc hq).1 _ _) (regAt_loc hq).2 fun g => by
    rw [hwb]
    split
    · exact (State.regWrite_clasp _).trans hs.clasp
    · exact hs.clasp
  refine ⟨w, hw, ?_⟩
  have hu : ((v.withLags g).writeBytes ((v.withLags g).whoLane cx.sid cx.once) a (memSize b) p x).reg q
      = (((v.withLags g).writeBytes ((v.withLags g).whoLane cx.sid cx.once) a (memSize b) p x).sample cx.sid
        ⟨cx.once, cx.pc, a, cx.act⟩ p.loc false).reg q := by
    by_cases hst : stillReg q
    · exact (State.reg_sample hst _ _ _).symm
    · rw [State.Unsampled.sample]
      rw [hwb]
      split
      · next hx =>
        rw [Bool.and_eq_true] at hx
        exact (hs.unsampled g).regWrite hx.1 hst
      · exact hs.unsampled g
  rw [hin.reg, ← hu, hwb]
  split
  · exact State.regWrite_withLags g
  · rfl

/-- Settles O31: the store is made in the state that its translation leaves, and what follows it changes strands alone. -/
theorem scalarStoreValue : Obligations.ScalarStoreValue := by
  unfold Obligations.ScalarStoreValue
  intro h b r s cx hr hd ho hg hu hro a x v p ha hal hx ht
  have hs : StsStore r h b s cx a x v p := ⟨hr, hd, ho, hg, hu, hro, ha, hal, hx, ht⟩
  have hfit := memSize_fits hal
  refine ⟨fun pa hl hsm hi hi4 hret => ?_, fun pa hl hsm hi => ?_, fun q hq h3 => ?_⟩
  · obtain ⟨loc, ord, sm⟩ := p
    subst hl hsm
    have hm := State.translate_mod ht rfl
    obtain ⟨t, he, hmem⟩ := sts_mem hs hi hi4 hret
    have hpa : pa / 4 * 4 + a.toNat % 4 = pa := by omega
    refine ⟨t, he, fun j => ?_, ?_, fun h3 => ?_, fun j hj hj4 => ?_⟩
    · rw [hmem, Mem.byte_putBytes _ _ _ _ _ _ hfit, hpa]
    · rw [hmem, Mem.marked_putBytes _ _ _ _ _ hfit]
    · rw [hmem, memSize_wide.1 h3, Mem.marked_putBytes_wide]
    · rw [hmem, Mem.marked_putBytes_other _ _ _ _ _ _ (by omega)]
      intro h8
      have := hj4 (memSize_wide.2 h8)
      omega
  · obtain ⟨loc, ord, sm⟩ := p
    subst hl hsm
    have hm := State.translate_mod ht rfl
    obtain ⟨t, c, he, hc, hmem, ⟨m, hbytes⟩, hdirty⟩ := sts_copy hs hi
    have hpa : pa / 4 * 4 % lineBytes + a.toNat % 4 = pa % lineBytes := by
      unfold lineBytes
      omega
    refine ⟨t, c, he, hc, hmem, fun k hk => ⟨?_, hdirty k hk⟩⟩
    have hb : c.mem.byte (pa % lineBytes + k) = x.extractLsb' (8 * k) 8 := by
      rw [hbytes, Mem.byte_putBytes _ _ _ _ _ _ hfit, hpa, if_pos (by omega), Nat.add_sub_cancel_left]
    exact hb
  · obtain ⟨t, he, hreg⟩ := sts_reg hs hq h3
    refine ⟨t, he, fun hx hro _ => ?_, fun hn => ?_⟩
    · rw [hreg, if_pos (by rw [hx, hro]; rfl)]
    · rw [hreg, if_neg (by rw [hn]; decide)]

end

end Sys2Proof.Machine
end
